-- ==== Sys2Proof/Word.lean ====
section
/-! DEFINITION. The bit-vector words of the TS416: bytes of frames, 16-bit fields and 64-member sets. -/

namespace Sys2Proof

/-- One byte of a trunk or field frame (R184). -/
abbrev Byte := BitVec 8

/-- A two-byte field of a frame, or one data word of the plan store (R184, Table 12-7). -/
abbrev Half := BitVec 16

/-- A set of slots: bit s of the 64-bit number is set for slot s (Table 12-4). -/
abbrev SlotSet := BitVec 64

end Sys2Proof
end

