-- ==== Sys2Proof/Config.lean ====
section
/-! DEFINITION. The constants of the part, each with the rule that gives it, and the one free value. -/

namespace Sys2Proof.Config

/-- Deciseconds of one day (section 6.2 of 00_scope.md; R3). -/
def dayDs : Nat := 864000
/-- Day numbers run from 0 to 65,535 (Table 1-1). -/
def dayCount : Nat := 65536
/-- Deciseconds of one minute (R4). -/
def minuteDs : Nat := 600
/-- A local second is ten ticks (R2). -/
def ticksPerSecond : Nat := 10
/-- The mark age stops at 60, and there LOCKED becomes HOLDOVER (R11). -/
def ageLimit : Nat := 60
/-- |d| at most 5 agrees in ACQUIRE (R9). -/
def agreeWindow : Nat := 5
/-- |d| at most 20 is accepted in LOCKED and HOLDOVER (R10, R12). -/
def acceptWindow : Nat := 20
/-- Three agreements lock, three outliers step, three misses lose a slot (R9, R10, R32). -/
def runOfThree : Nat := 3
/-- Counts of 16 bits stop here (Tables 2-1, 7-1 and 9-2). -/
def count16 : Nat := 65535
/-- Plan store locations (R61). -/
def locations : Nat := 1024
/-- Words of one stored image (Table 12-7). -/
def imageWords : Nat := 32
/-- Capacity of an out-queue (R152). -/
def outQueueCap : Nat := 8
/-- Capacity of the request queue (R157). -/
def requestCap : Nat := 4
/-- Capacity of the record ring (R167). -/
def ringCap : Nat := 128
/-- Capacities of the timetable collections (Table 6-1). -/
def calendarCap : Nat := 48
/-- Capacity of the base entries (Table 6-1). -/
def baseCap : Nat := 384
/-- Capacity of the event entries (Table 6-1). -/
def eventCap : Nat := 64
/-- Capacity of the cue table (Table 6-1). -/
def cueCap : Nat := 64
/-- Longest body of a trunk frame (Table 9-1). -/
def bodyCap : Nat := 240
/-- A cue whose end lies further ahead than this is removed at a step (R112). -/
def cueHorizon : Nat := 432000
/-- A timed direct selection whose end lies further ahead than this is removed at a step (R112). -/
def directHorizon : Nat := 864000
/-- The longest event span, 14 days in minutes (R100). -/
def eventSpan : Nat := 20160
/-- The blocked timer's end in milliseconds (R129). -/
def blockedMs : Nat := 20
/-- READ STATION's family code (section 12.3). -/
def familyCode : Byte := 0x1C#8
/-- READ STATION's part code (section 12.3). -/
def partCode : Half := 0x0416#16

/-- FREE VALUE (log entry 7): what READ PORT reads of the milliseconds elapsed in an open response window.
No row of the table ticks milliseconds, so the spec does not fix the value in terms of the part's commands. -/
opaque windowReading : Nat → Nat

end Sys2Proof.Config
end

