-- ==== Sys2Proof/Syntax.lean ====
section
/-! DEFINITION. The commands of the TS416: one constructor of Instr per row of spec/opcode_table.json. -/

namespace Sys2Proof

/-- The two trunk ports (section 3.1 of 00_scope.md): A faces the traffic centre, B the next hub. -/
inductive TrunkPort where
  | a
  | b
  deriving DecidableEq, Repr

/-- What a field port's receiver sees on its line (R123). -/
inductive LineCondition where
  | idle
  | active
  deriving DecidableEq, Repr

/-- Level of a hold line (Table 8-1). -/
inductive Level where
  | inactive
  | active
  deriving DecidableEq, Repr

/-- The pins as the part finds them when it samples them after a reset: the hold lines (R148) and the
field lines, which the receivers judge afresh (R133, R134). -/
structure PinSample where
  /-- HOLD0 to HOLD3. -/
  holds : Vector Level 4
  /-- Field lines 0 to 3. -/
  lines : Vector LineCondition 4
  deriving DecidableEq, Repr

/-- Where a request came from: its tag, and whether it was sent to station 0 (R157). -/
structure Source where
  tag : Half
  broadcast : Bool
  deriving DecidableEq, Repr

/-- A request as the request queue holds it (R157): where it came from, its request code, its parameters. -/
structure Request where
  src : Source
  code : Byte
  params : List Byte
  deriving DecidableEq, Repr

/-- One phase of a LOAD PLAN (Table 12-5): phase id, split and minimum. -/
structure PhaseEntry where
  id : Byte
  split : Half
  minimum : Half
  deriving DecidableEq, Repr

/-- The events that one advance of network time brings to the other blocks (Table 1-2), the arrival of what those send to each
other, and what the field receivers see during it. A TICK names in which order those that arrive together are taken (log
entry 3). -/
inductive TickEvent where
  /-- The advance event at one running slot, its boundary included (R19, R20). -/
  | slot (i : Fin 64)
  /-- The advance event at the scrubber (R77). -/
  | scrub
  /-- The step event of the day wrap at the slot engine (R5, R23). -/
  | stepFlags
  /-- The minute event at one group of the group coordinator (R90). -/
  | groupMinute (g : Fin 16)
  /-- The minute, day or step event at the timetable engine (R112). -/
  | timetable
  /-- The receiver of a port sees its line idle or active (R123). No row of the table reports a line that turns active, so a
  TICK tells it, among the advance's events where it names it (log entry 4). -/
  | lineSeen (port : Fin 4) (line : LineCondition)
  /-- The member events that a slot sends at its boundary arrive at the group coordinator (R81). An order that does not name this
  after the boundary has them arrive with the boundary itself. -/
  | memberArrives (i : Fin 64)
  /-- The forced-immediate event that a group sends at its minute event arrives at the slot (R47, R91). An order that does not
  name this after the minute event has it arrive with the minute event itself. -/
  | forcedArrives (i : Fin 64)
  deriving DecidableEq, Repr

/-- An advance raises the event itself (Table 1-2); a line report, and the arrival of what another event sends, stand in an order
beside those. -/
def TickEvent.raised : TickEvent → Bool
  | .slot _ | .scrub | .stepFlags | .groupMinute _ | .timetable => true
  | .lineSeen _ _ | .memberArrives _ | .forcedArrives _ => false

/-- The commands. A request's `src` and fields are the tag, the station field and the parameters of its
REQUEST frame (Table 12-5), each at the width the frame gives it. -/
inductive Instr where
  /-- TICK (R2). `order` is the order in which the events of the advance are taken, with the arrivals of what they send
  and the changes of the field lines that come among them. -/
  | tick (order : List TickEvent)
  /-- HOLDOVER_ENTRY (R11). -/
  | holdoverEntry
  /-- TRANSITION_LIMIT_REACHED (R91). -/
  | transitionLimitReached (group : Fin 16)
  /-- EVENT_ENTRY_END (R102). -/
  | eventEntryEnd (id : Fin 64)
  /-- CUE_EXPIRY (R107). -/
  | cueExpiry (group : Fin 16)
  /-- DIRECT_EXPIRY (R109). -/
  | directExpiry (group : Fin 16)
  /-- TIME_MARK (R7): an accepted TIME MARK frame on port A. -/
  | timeMark (station hops : Byte) (body : List Byte)
  /-- CUE (R105): an accepted CUE frame on port A. -/
  | cue (station hops : Byte) (body : List Byte)
  /-- CUE_CANCEL (R106): an accepted CUE CANCEL frame on port A. -/
  | cueCancel (station hops : Byte) (body : List Byte)
  /-- REQUEST (R157): an accepted REQUEST frame on port A. -/
  | request (station hops : Byte) (body : List Byte)
  /-- TRUNK_FRAME (R150): the bytes a trunk port receives, as they stand on the line. -/
  | trunkFrame (port : TrunkPort) (line : List Byte)
  /-- TRUNK_TRANSMIT_END (R152): port A sends A-out, port B sends B-out. -/
  | trunkTransmitEnd (port : TrunkPort)
  /-- HELD_REPLY_PLACED (R158). -/
  | heldReplyPlaced
  /-- RESTART_EFFECT (R162). -/
  | restartEffect (pins : PinSample)
  /-- UNKNOWN_REQUEST_CODE (R160). -/
  | unknownRequestCode (src : Source) (code : Byte) (params : List Byte)
  /-- READ_TIME (R14). -/
  | readTime (src : Source)
  /-- SET_DAY (R15). -/
  | setDay (src : Source) (day : Half)
  /-- DEFINE_SLOT (R35). -/
  | defineSlot (src : Source) (slot : Byte) (intersection : Half) (port drop group divider mode : Byte)
  /-- RELEASE_SLOT (R36). -/
  | releaseSlot (src : Source) (slot : Byte)
  /-- READ_SLOT (R37). -/
  | readSlot (src : Source) (slot : Byte)
  /-- LOAD_PLAN (R64). -/
  | loadPlan (src : Source) (slot plan : Byte) (cycle offset : Half) (shortPct longPct coord : Byte)
      (phases : List PhaseEntry)
  /-- DROP_PLAN (R70). -/
  | dropPlan (src : Source) (slot plan part : Byte)
  /-- READ_PLAN (R72). -/
  | readPlan (src : Source) (slot plan part : Byte)
  /-- SET_GROUP (R92). -/
  | setGroup (src : Source) (group defaultPlan policy mode tol limit : Byte)
  /-- READ_GROUP (R93). -/
  | readGroup (src : Source) (group cursor : Byte)
  /-- SET_CALENDAR (R97). -/
  | setCalendar (src : Source) (day : Half) (action dayType : Byte)
  /-- ADD_BASE (R98). -/
  | addBase (src : Source) (group mask : Byte) (start : Half) (plan mode : Byte)
  /-- ADD_EVENT (R100). -/
  | addEvent (src : Source) (group : Byte) (startDay startMinute endDay endMinute : Half)
      (plan priority mode : Byte)
  /-- CUT_ENTRY (R103). -/
  | cutEntry (src : Source) (kind : Byte) (id : Half)
  /-- READ_TIMETABLE (R114). -/
  | readTimetable (src : Source) (collection : Byte) (cursor : Half)
  /-- SET_CUE (R104). -/
  | setCue (src : Source) (cue group plan : Byte) (duration : Half) (priority : Byte)
  /-- CUT_CUE (R104). -/
  | cutCue (src : Source) (cue group : Byte)
  /-- DIRECT_PLAN (R108). -/
  | directPlan (src : Source) (group plan : Byte) (duration : Half)
  /-- END_DIRECT (R109). -/
  | endDirect (src : Source) (group : Byte)
  /-- SET_PORT (R131). -/
  | setPort (src : Source) (port : Byte) (window : Half) (clear : Byte)
  /-- READ_PORT (R132). -/
  | readPort (src : Source) (port : Byte)
  /-- SET_HOLD_MAP (R147). -/
  | setHoldMap (src : Source) (line : Byte) (map : SlotSet)
  /-- CLEAR_OVERRIDE (R146). -/
  | clearOverride (src : Source) (slot : Byte)
  /-- READ_STATION (R161). -/
  | readStation (src : Source) (clear : Byte)
  /-- RESTART_WARM (R162). A broadcast one takes effect at once and samples the pins. -/
  | restartWarm (src : Source) (pins : PinSample)
  /-- RESTART_COLD (R162). -/
  | restartCold (src : Source)
  /-- SET_RECORDING (R170). -/
  | setRecording (src : Source) (filter : SlotSet) (reload choice : Byte)
  /-- READ_RECORDS (R169). -/
  | readRecords (src : Source) (maximum : Byte)
  /-- READ_NOTICES (R172). -/
  | readNotices (src : Source)
  /-- SET_NOTICE_MASK (R173). -/
  | setNoticeMask (src : Source) (mask : Half)
  /-- CHECKSUM_PLANS (R176). -/
  | checksumPlans (src : Source) (first last sum : Half)
  /-- TEST_LOCATION (R178, R179). -/
  | testLocation (src : Source) (location : Half)
  /-- FORCE_CHECK (R181). -/
  | forceCheck (src : Source) (location : Half) (word bit1 bit2 : Byte)
  /-- SCRUB_CONTROL (R182). -/
  | scrubControl (src : Source) (state : Byte)
  /-- READ_LOGOUT (R180). -/
  | readLogout (src : Source)
  /-- EXCHANGE_START (R121): the receiver of an IDLE port sees its line idle. -/
  | exchangeStart (port : Fin 4)
  /-- FIELD_TRANSMIT_END (R122). `line` is what the receiver then sees. -/
  | fieldTransmitEnd (port : Fin 4) (line : LineCondition)
  /-- STATUS (R124): the fields of a STATUS frame of good check, the milliseconds then elapsed in the open
  window, and the line condition the receiver then sees. -/
  | status (port : Fin 4) (drop : Byte) (intersection : Half) (plan count override : Byte)
      (elapsed : Nat) (line : LineCondition)
  /-- BAD_FRAME (R123): the bytes that follow a valid frame start, as they stand on the line. -/
  | badFrame (port : Fin 4) (bytes : List Byte) (elapsed : Nat) (line : LineCondition)
  /-- RESPONSE_WINDOW_EXPIRY (R127). -/
  | responseWindowExpiry (port : Fin 4) (line : LineCondition)
  /-- LINE_BLOCKED (R129). -/
  | lineBlocked (port : Fin 4)
  /-- LINE_FREED (R130). -/
  | lineFreed (port : Fin 4)
  /-- HOLD_ACTIVATION_EDGE (R138). -/
  | holdActivationEdge (line : Fin 4)
  /-- HOLD_RELEASE_EDGE (R139). -/
  | holdReleaseEdge (line : Fin 4)
  /-- COUNT_DOWN_ZERO (R168). -/
  | countDownZero
  /-- RESET_ASSERT (R163). -/
  | resetAssert
  /-- RESET_RELEASE (R153): the straps and the pins as they are sampled. -/
  | resetRelease (straps : Byte) (pins : PinSample)
  deriving DecidableEq, Repr

end Sys2Proof
end

