-- ==== Sys2Proof/Machine/Operands.lean ====
section
/-! DEFINITION. Byte layouts of chapter 12: byte order, escaping and CRC of the lines, the lengths of request
parameters, and the check bits of a plan store word. -/

namespace Sys2Proof.Machine

/-! ### Byte order (R184) -/

/-- The most significant byte of a two-byte field (R184). -/
def hiByte (x : Half) : Byte := x.extractLsb' 8 8

/-- The least significant byte of a two-byte field (R184). -/
def loByte (x : Half) : Byte := x.extractLsb' 0 8

/-- A two-byte field, most significant byte first (R184). -/
def beHalf (hi lo : Byte) : Half := hi ++ lo

/-- The bytes of a two-byte field (R184). -/
def halfBytes (x : Half) : List Byte := [hiByte x, loByte x]

/-- The bytes of an eight-byte set of slots, most significant byte first (R184, Table 12-4). -/
def setBytes (x : SlotSet) : List Byte :=
  [x.extractLsb' 56 8, x.extractLsb' 48 8, x.extractLsb' 40 8, x.extractLsb' 32 8,
   x.extractLsb' 24 8, x.extractLsb' 16 8, x.extractLsb' 8 8, x.extractLsb' 0 8]

/-- The eight-byte set of slots that eight bytes spell (R184, Table 12-4). -/
def beSet (a b c d e f g h : Byte) : SlotSet := a ++ b ++ c ++ d ++ e ++ f ++ g ++ h

/-- A number in one byte (Table 12-4). -/
def num1 (n : Nat) : List Byte := [BitVec.ofNat 8 n]

/-- A number in two bytes (Table 12-4). -/
def num2 (n : Nat) : List Byte := halfBytes (BitVec.ofNat 16 n)

/-- A number in four bytes, such as NT (Table 12-4). -/
def num4 (n : Nat) : List Byte := num2 (n / 65536) ++ num2 n

/-- A number in five bytes, such as an end R (Table 12-4). -/
def num5 (n : Nat) : List Byte := num1 (n / 4294967296) ++ num4 n

/-- A signed number in two bytes (Table 12-4; two's complement by R184). -/
def signed2 (n : Int) : List Byte := halfBytes (BitVec.ofInt 16 n)

/-- A lone flag in one byte, bit 0 set when the flag is set (log entry 10). -/
def flag1 (b : Bool) : List Byte := num1 b.toNat

/-- An optional field: its presence byte, then the field, or zeros of its width (Table 12-4). -/
def optField {α : Type} (width : Nat) (enc : α → List Byte) : Option α → List Byte
  | some x => 1#8 :: enc x
  | none => 0#8 :: List.replicate width 0#8

/-- Bits given first to last, bit 0 first, as a number: a flag set (Table 12-4). -/
def bitsNum : List Bool → Nat
  | [] => 0
  | b :: bs => b.toNat + 2 * bitsNum bs

/-! ### CRC (R185) -/

/-- One bit of the CRC with polynomial 0x1021 (R185). -/
def crcBit (c : Half) : Half :=
  if c.msb then (c <<< 1) ^^^ 0x1021#16 else c <<< 1

/-- One byte of the CRC, most significant bit first (R185). -/
def crcByte (c : Half) (b : Byte) : Half :=
  (List.range 8).foldl (fun c _ => crcBit c) (c ^^^ (b ++ 0#8))

/-- The CRC over unescaped bytes: initial value 0xFFFF, no final inversion (R185). -/
def crc16 (bs : List Byte) : Half := bs.foldl crcByte 0xFFFF#16

/-! ### Delimiter and escaping (R185) -/

/-- The delimiter byte (R185). -/
def delimiter : Byte := 0x7E#8

/-- The escape byte (R185). -/
def escapeByte : Byte := 0x7D#8

/-- The sender's escaping of the bytes after the delimiter (R185). -/
def escape : List Byte → List Byte
  | [] => []
  | b :: bs =>
    if b = delimiter ∨ b = escapeByte then escapeByte :: (b ^^^ 0x20#8) :: escape bs
    else b :: escape bs

/-- The receiver's reversal of the escaping (R185), on bytes that hold no break. An escape byte with nothing after it is the
start of a break and ends the bytes. After an escape byte R185 has a sender put 0x5E or 0x5D only; any other byte is
exclusive-ORed with 0x20 like those, and reception goes on: DESIGN CHOICE (log entry 24). -/
def unescape : List Byte → List Byte
  | [] => []
  | [b] => if b = escapeByte then [] else [b]
  | b :: c :: bs => if b = escapeByte then (c ^^^ 0x20#8) :: unescape bs else b :: unescape (c :: bs)

/-- The receptions that a run of line bytes holds: what follows each delimiter, up to the next delimiter or
the end of the run. Bytes before the first delimiter are passed over (R150). -/
def receptions : List Byte → List (List Byte)
  | [] => []
  | b :: bs =>
    if b = delimiter then (bs.takeWhile (· ≠ delimiter)) :: receptions bs else receptions bs

/-- The line bytes after a frame start on a field line, up to the first break, and those after each break (R185: an escape
byte and then 0x7E begin a new frame). A delimiter that stands alone begins none, since the line was not idle before it
(R123), and stays among the bytes. -/
def splitAtBreaks : List Byte → List Byte × List (List Byte)
  | [] => ([], [])
  | [b] => ([b], [])
  | b :: c :: bs =>
    if b = escapeByte then
      let r := splitAtBreaks bs
      if c = delimiter then ([], r.1 :: r.2) else (b :: c :: r.1, r.2)
    else
      let r := splitAtBreaks (c :: bs)
      (b :: r.1, r.2)

/-- The receptions on a field line after a valid frame start: the bytes up to the first break, and those after each
break (R123, R185). -/
def fieldRuns (bytes : List Byte) : List (List Byte) := (splitAtBreaks bytes).1 :: (splitAtBreaks bytes).2

/-! ### Lengths of request parameters (Table 12-5) -/

/-- Table 12-5: the parameter length of each request code but LOAD PLAN's; absent for a code that names no
request. -/
def paramLength (code : Byte) : Option Nat :=
  match code.toNat with
  | 0x01 => some 0 | 0x02 => some 2
  | 0x10 => some 8 | 0x11 => some 1 | 0x12 => some 1
  | 0x21 => some 3 | 0x22 => some 3
  | 0x30 => some 6 | 0x31 => some 2
  | 0x40 => some 4 | 0x41 => some 6 | 0x42 => some 12 | 0x43 => some 3 | 0x44 => some 3
  | 0x45 => some 6 | 0x46 => some 2 | 0x47 => some 4 | 0x48 => some 1
  | 0x50 => some 4 | 0x51 => some 1
  | 0x60 => some 9 | 0x61 => some 1
  | 0x70 => some 1 | 0x71 => some 1
  | 0x80 => some 10 | 0x81 => some 1 | 0x82 => some 0 | 0x83 => some 2
  | 0x90 => some 6 | 0x91 => some 2 | 0x92 => some 5 | 0x93 => some 1 | 0x94 => some 0
  | _ => none

/-- R160: the code names a request and the parameters fit it by Table 12-5. LOAD PLAN's fit when there are
10 + 5n of them for the n that its tenth byte gives. -/
def paramsFit (code : Byte) (params : List Byte) : Bool :=
  if code = 0x20#8 then
    decide (10 ≤ params.length) && params.length == 10 + 5 * (params.getD 9 0#8).toNat
  else paramLength code == some params.length

/-- R162: a RESTART whose kind is neither WARM (0) nor COLD (1). -/
def restartKindUnknown (code : Byte) (params : List Byte) : Bool :=
  code == 0x71#8 && (match params with | [k] => decide (1 < k.toNat) | _ => false)

/-- A request that no row but UNKNOWN_REQUEST_CODE can carry out: its form is bad (R160), or it is a RESTART of
unknown kind (R162), which has the same outcome (log entry 11). -/
def namesNoRow (code : Byte) (params : List Byte) : Bool :=
  !paramsFit code params || restartKindUnknown code params

/-! ### Check bits of a plan store word (R188) -/

/-- R188: the position of each data bit, 0 to 15, among the 21 positions of the Hamming code. -/
def dataPositions : List Nat := [3, 5, 6, 7, 9, 10, 11, 12, 13, 14, 15, 17, 18, 19, 20, 21]

/-- R188: check bit i, 0 to 4, is the parity of the data bits whose position has bit i set. -/
def hammingBit (d : Half) (i : Nat) : Bool :=
  (List.range 16).foldl (fun acc j => acc ^^ (d.getLsbD j && (dataPositions.getD j 0).testBit i)) false

/-- Parity of the low n bits of a number held as a bit vector. -/
def parityOf {w : Nat} (x : BitVec w) : Bool :=
  (List.range w).foldl (fun acc j => acc ^^ x.getLsbD j) false

/-- R188: the six check bits of a data word. Check bit 5 is the parity of the data and of check bits 0 to 4. -/
def checkBits (d : Half) : BitVec 6 :=
  let h : BitVec 5 := BitVec.ofNat 5 (bitsNum ((List.range 5).map (hammingBit d)))
  BitVec.ofBool (parityOf d ^^ parityOf h) ++ h

/-- One word of a location with its check bits (section 4.2). -/
structure CodeWord where
  data : Half
  check : BitVec 6
  deriving DecidableEq, Repr

/-- A word written with fresh check bits (R61, R74). -/
def CodeWord.fresh (d : Half) : CodeWord := ⟨d, checkBits d⟩

/-- What the check of a word finds (R74, R188); a correction says whether it was of a check bit (R179). -/
inductive Finding where
  | clean
  | corrected (data : Half) (ofCheck : Bool)
  | uncorrectable
  deriving DecidableEq, Repr

/-- R188: the positions at which the recomputed Hamming bits disagree with the stored ones, as a number. -/
def CodeWord.syndrome (w : CodeWord) : Nat :=
  bitsNum ((List.range 5).map fun i => hammingBit w.data i ^^ w.check.getLsbD i)

/-- R188: the overall parity agrees. -/
def CodeWord.parityAgrees (w : CodeWord) : Bool := parityOf w.data == parityOf w.check

/-- R188's table of findings. -/
def CodeWord.finding (w : CodeWord) : Finding :=
  if w.syndrome = 0 then
    if w.parityAgrees then .clean else .corrected w.data true
  else if w.parityAgrees then .uncorrectable
  else if w.syndrome ∈ dataPositions then
    .corrected (w.data ^^^ (1#16 <<< dataPositions.idxOf w.syndrome)) false
  else if w.syndrome ≤ 21 then .corrected w.data true
  else .uncorrectable

end Sys2Proof.Machine
end

