-- ==== Sys2Proof/WellFormed.lean ====
section
/-! DEFINITION. Well-formed commands: what a sender can send. -/

namespace Sys2Proof

/-- A frame body is at most 240 bytes (Table 9-1). -/
def bodyFits (body : List Byte) : Bool := decide (body.length ≤ Config.bodyCap)

/-- The parameters of a request leave room for its tag and code in one body (Tables 9-1 and 12-2). -/
def paramsRoom (params : List Byte) : Bool := decide (params.length + 3 ≤ Config.bodyCap)

/-- A phase count fits LOAD PLAN's frame: 10 + 5n parameters in one body (Tables 9-1 and 12-5). -/
def phasesRoom (phases : List PhaseEntry) : Bool := decide (10 + 5 * phases.length + 3 ≤ Config.bodyCap)

/-- The fields of a STATUS lie in their ranges (R187): drop, intersection number, plan, override state. -/
def statusInRange (drop : Byte) (intersection : Half) (plan override : Byte) : Bool :=
  decide (1 ≤ drop.toNat ∧ drop.toNat ≤ 16) && decide (1 ≤ intersection.toNat ∧ intersection.toNat ≤ 4095) &&
    decide (plan.toNat ≤ 250) && decide (override.toNat ≤ 3)

/-- A command that a sender can send. Values that a rule refuses with an outcome are well formed: the
refusal is the command's effect. -/
def Instr.wellFormed : Instr → Bool
  | .timeMark _ _ body => bodyFits body
  | .cue _ _ body => bodyFits body
  | .cueCancel _ _ body => bodyFits body
  | .request _ _ body => bodyFits body
  | .unknownRequestCode _ code params => paramsRoom params && Machine.namesNoRow code params
  | .loadPlan _ _ _ _ _ _ _ _ phases => phasesRoom phases
  | .status _ drop intersection plan _ override elapsed _ =>
    statusInRange drop intersection plan override && decide (elapsed ≤ 200)
  | .badFrame _ _ elapsed _ => decide (elapsed ≤ 200)
  | .tick _ | .holdoverEntry | .transitionLimitReached _ | .eventEntryEnd _ | .cueExpiry _ | .directExpiry _
  | .trunkFrame _ _ | .trunkTransmitEnd _ | .heldReplyPlaced | .restartEffect _ | .readTime _ | .setDay _ _
  | .defineSlot _ _ _ _ _ _ _ _ | .releaseSlot _ _ | .readSlot _ _ | .dropPlan _ _ _ _ | .readPlan _ _ _ _
  | .setGroup _ _ _ _ _ _ _ | .readGroup _ _ _ | .setCalendar _ _ _ _ | .addBase _ _ _ _ _ _
  | .addEvent _ _ _ _ _ _ _ _ _ | .cutEntry _ _ _ | .readTimetable _ _ _ | .setCue _ _ _ _ _ _ | .cutCue _ _ _
  | .directPlan _ _ _ _ | .endDirect _ _ | .setPort _ _ _ _ | .readPort _ _ | .setHoldMap _ _ _
  | .clearOverride _ _ | .readStation _ _ | .restartWarm _ _ | .restartCold _ | .setRecording _ _ _ _
  | .readRecords _ _ | .readNotices _ | .setNoticeMask _ _ | .checksumPlans _ _ _ _ | .testLocation _ _
  | .forceCheck _ _ _ _ _ | .scrubControl _ _ | .readLogout _ | .exchangeStart _ | .fieldTransmitEnd _ _
  | .responseWindowExpiry _ _ | .lineBlocked _ | .lineFreed _ | .holdActivationEdge _ | .holdReleaseEdge _
  | .countDownZero | .resetAssert | .resetRelease _ _ => true

end Sys2Proof
end

