-- ==== Sys2Proof/Decode.lean ====
section
/-! DEFINITION. Reading commands: the opcode table gives no row any bits, so no word spells a command; the
parameters of a REQUEST frame (Tables 12-4 and 12-5) spell the command that carries the request out. -/

namespace Sys2Proof

open Machine

/-- The command that a word spells by the bits of spec/opcode_table.json. The table gives no row any bits, so
every word is refused. -/
def decodeTableWord (_nbits _w : Nat) : Option Instr := none

/-- The phase entries of a LOAD PLAN, five bytes each (Table 12-5). Bytes left over are dropped. -/
def decodePhases : List Byte → List PhaseEntry
  | a :: b :: c :: d :: e :: rest => ⟨a, beHalf b c, beHalf d e⟩ :: decodePhases rest
  | _ => []

/-- The bytes of the phase entries of a LOAD PLAN (Table 12-5). -/
def phaseBytes : List PhaseEntry → List Byte
  | [] => []
  | p :: ps => p.id :: (halfBytes p.split ++ (halfBytes p.minimum ++ phaseBytes ps))

/-- The command that carries a request out (R160, R186, Table 12-5): UNKNOWN_REQUEST_CODE for a request of
bad form. `pins` is what a broadcast RESTART WARM samples. -/
def decodeRequest (pins : PinSample) (r : Request) : Instr :=
  let bad : Instr := .unknownRequestCode r.src r.code r.params
  if r.code = 0x01#8 then
    (match r.params with | [] => .readTime r.src | _ => bad)
  else if r.code = 0x02#8 then
    (match r.params with | [a, b] => .setDay r.src (beHalf a b) | _ => bad)
  else if r.code = 0x10#8 then
    (match r.params with | [a, b, c, d, e, f, g, h] => .defineSlot r.src a (beHalf b c) d e f g h | _ => bad)
  else if r.code = 0x11#8 then
    (match r.params with | [a] => .releaseSlot r.src a | _ => bad)
  else if r.code = 0x12#8 then
    (match r.params with | [a] => .readSlot r.src a | _ => bad)
  else if r.code = 0x21#8 then
    (match r.params with | [a, b, c] => .dropPlan r.src a b c | _ => bad)
  else if r.code = 0x22#8 then
    (match r.params with | [a, b, c] => .readPlan r.src a b c | _ => bad)
  else if r.code = 0x30#8 then
    (match r.params with | [a, b, c, d, e, f] => .setGroup r.src a b c d e f | _ => bad)
  else if r.code = 0x31#8 then
    (match r.params with | [a, b] => .readGroup r.src a b | _ => bad)
  else if r.code = 0x40#8 then
    (match r.params with | [a, b, c, d] => .setCalendar r.src (beHalf a b) c d | _ => bad)
  else if r.code = 0x41#8 then
    (match r.params with | [a, b, c, d, e, f] => .addBase r.src a b (beHalf c d) e f | _ => bad)
  else if r.code = 0x42#8 then
    (match r.params with | [a, b, c, d, e, f, g, h, i, j, k, l] => .addEvent r.src a (beHalf b c) (beHalf d e) (beHalf f g) (beHalf h i) j k l | _ => bad)
  else if r.code = 0x43#8 then
    (match r.params with | [a, b, c] => .cutEntry r.src a (beHalf b c) | _ => bad)
  else if r.code = 0x44#8 then
    (match r.params with | [a, b, c] => .readTimetable r.src a (beHalf b c) | _ => bad)
  else if r.code = 0x45#8 then
    (match r.params with | [a, b, c, d, e, f] => .setCue r.src a b c (beHalf d e) f | _ => bad)
  else if r.code = 0x46#8 then
    (match r.params with | [a, b] => .cutCue r.src a b | _ => bad)
  else if r.code = 0x47#8 then
    (match r.params with | [a, b, c, d] => .directPlan r.src a b (beHalf c d) | _ => bad)
  else if r.code = 0x48#8 then
    (match r.params with | [a] => .endDirect r.src a | _ => bad)
  else if r.code = 0x50#8 then
    (match r.params with | [a, b, c, d] => .setPort r.src a (beHalf b c) d | _ => bad)
  else if r.code = 0x51#8 then
    (match r.params with | [a] => .readPort r.src a | _ => bad)
  else if r.code = 0x60#8 then
    (match r.params with | [a, b, c, d, e, f, g, h, i] => .setHoldMap r.src a (beSet b c d e f g h i) | _ => bad)
  else if r.code = 0x61#8 then
    (match r.params with | [a] => .clearOverride r.src a | _ => bad)
  else if r.code = 0x70#8 then
    (match r.params with | [a] => .readStation r.src a | _ => bad)
  else if r.code = 0x80#8 then
    (match r.params with | [a, b, c, d, e, f, g, h, i, j] => .setRecording r.src (beSet a b c d e f g h) i j | _ => bad)
  else if r.code = 0x81#8 then
    (match r.params with | [a] => .readRecords r.src a | _ => bad)
  else if r.code = 0x82#8 then
    (match r.params with | [] => .readNotices r.src | _ => bad)
  else if r.code = 0x83#8 then
    (match r.params with | [a, b] => .setNoticeMask r.src (beHalf a b) | _ => bad)
  else if r.code = 0x90#8 then
    (match r.params with | [a, b, c, d, e, f] => .checksumPlans r.src (beHalf a b) (beHalf c d) (beHalf e f) | _ => bad)
  else if r.code = 0x91#8 then
    (match r.params with | [a, b] => .testLocation r.src (beHalf a b) | _ => bad)
  else if r.code = 0x92#8 then
    (match r.params with | [a, b, c, d, e] => .forceCheck r.src (beHalf a b) c d e | _ => bad)
  else if r.code = 0x93#8 then
    (match r.params with | [a] => .scrubControl r.src a | _ => bad)
  else if r.code = 0x94#8 then
    (match r.params with | [] => .readLogout r.src | _ => bad)
  else if r.code = 0x20#8 then
    (match r.params with
      | a :: b :: c :: d :: e :: f :: g :: h :: i :: n :: ph =>
        if ph.length = 5 * n.toNat then
          .loadPlan r.src a b (beHalf c d) (beHalf e f) g h i (decodePhases ph)
        else bad
      | _ => bad)
  else if r.code = 0x71#8 then
    (match r.params with
      | [k] => if k = 0#8 then .restartWarm r.src pins else if k = 1#8 then .restartCold r.src else bad
      | _ => bad)
  else bad

/-- The request whose carrying out a command is (Table 12-5); absent for a command that is no request. -/
def encodeRequest : Instr → Option Request
  | .readTime src => some ⟨src, 0x01#8, []⟩
  | .setDay src day => some ⟨src, 0x02#8, halfBytes day⟩
  | .defineSlot src slot intersection port drop group divider mode => some ⟨src, 0x10#8, [slot] ++ halfBytes intersection ++ [port] ++ [drop] ++ [group] ++ [divider] ++ [mode]⟩
  | .releaseSlot src slot => some ⟨src, 0x11#8, [slot]⟩
  | .readSlot src slot => some ⟨src, 0x12#8, [slot]⟩
  | .dropPlan src slot plan part => some ⟨src, 0x21#8, [slot] ++ [plan] ++ [part]⟩
  | .readPlan src slot plan part => some ⟨src, 0x22#8, [slot] ++ [plan] ++ [part]⟩
  | .setGroup src group defaultPlan policy mode tol limit => some ⟨src, 0x30#8, [group] ++ [defaultPlan] ++ [policy] ++ [mode] ++ [tol] ++ [limit]⟩
  | .readGroup src group cursor => some ⟨src, 0x31#8, [group] ++ [cursor]⟩
  | .setCalendar src day action dayType => some ⟨src, 0x40#8, halfBytes day ++ [action] ++ [dayType]⟩
  | .addBase src group mask start plan mode => some ⟨src, 0x41#8, [group] ++ [mask] ++ halfBytes start ++ [plan] ++ [mode]⟩
  | .addEvent src group startDay startMinute endDay endMinute plan priority mode => some ⟨src, 0x42#8, [group] ++ halfBytes startDay ++ halfBytes startMinute ++ halfBytes endDay ++ halfBytes endMinute ++ [plan] ++ [priority] ++ [mode]⟩
  | .cutEntry src kind id => some ⟨src, 0x43#8, [kind] ++ halfBytes id⟩
  | .readTimetable src collection cursor => some ⟨src, 0x44#8, [collection] ++ halfBytes cursor⟩
  | .setCue src cue group plan duration priority => some ⟨src, 0x45#8, [cue] ++ [group] ++ [plan] ++ halfBytes duration ++ [priority]⟩
  | .cutCue src cue group => some ⟨src, 0x46#8, [cue] ++ [group]⟩
  | .directPlan src group plan duration => some ⟨src, 0x47#8, [group] ++ [plan] ++ halfBytes duration⟩
  | .endDirect src group => some ⟨src, 0x48#8, [group]⟩
  | .setPort src port window clear => some ⟨src, 0x50#8, [port] ++ halfBytes window ++ [clear]⟩
  | .readPort src port => some ⟨src, 0x51#8, [port]⟩
  | .setHoldMap src line map => some ⟨src, 0x60#8, [line] ++ setBytes map⟩
  | .clearOverride src slot => some ⟨src, 0x61#8, [slot]⟩
  | .readStation src clear => some ⟨src, 0x70#8, [clear]⟩
  | .setRecording src filter reload choice => some ⟨src, 0x80#8, setBytes filter ++ [reload] ++ [choice]⟩
  | .readRecords src maximum => some ⟨src, 0x81#8, [maximum]⟩
  | .readNotices src => some ⟨src, 0x82#8, []⟩
  | .setNoticeMask src mask => some ⟨src, 0x83#8, halfBytes mask⟩
  | .checksumPlans src first last sum => some ⟨src, 0x90#8, halfBytes first ++ halfBytes last ++ halfBytes sum⟩
  | .testLocation src location => some ⟨src, 0x91#8, halfBytes location⟩
  | .forceCheck src location word bit1 bit2 => some ⟨src, 0x92#8, halfBytes location ++ [word] ++ [bit1] ++ [bit2]⟩
  | .scrubControl src state => some ⟨src, 0x93#8, [state]⟩
  | .readLogout src => some ⟨src, 0x94#8, []⟩
  | .loadPlan src slot plan cycle offset shortPct longPct coord phases =>
    some ⟨src, 0x20#8, [slot, plan] ++ halfBytes cycle ++ halfBytes offset ++
      [shortPct, longPct, coord, BitVec.ofNat 8 phases.length] ++ phaseBytes phases⟩
  | .restartWarm src _ => some ⟨src, 0x71#8, [0#8]⟩
  | .restartCold src => some ⟨src, 0x71#8, [1#8]⟩
  | .unknownRequestCode src code params => some ⟨src, code, params⟩
  | .tick _ | .holdoverEntry | .transitionLimitReached _ | .eventEntryEnd _ | .cueExpiry _ | .directExpiry _
  | .timeMark _ _ _ | .cue _ _ _ | .cueCancel _ _ _ | .request _ _ _ | .trunkFrame _ _ | .trunkTransmitEnd _
  | .heldReplyPlaced | .restartEffect _ | .exchangeStart _ | .fieldTransmitEnd _ _ | .status _ _ _ _ _ _ _ _
  | .badFrame _ _ _ _ | .responseWindowExpiry _ _ | .lineBlocked _ | .lineFreed _ | .holdActivationEdge _
  | .holdReleaseEdge _ | .countDownZero | .resetAssert | .resetRelease _ _ => none

end Sys2Proof
end

