-- ==== Sys2Proof/Machine/State.lean ====
section
/-! DEFINITION. The state of the TS416 as plain data, its reset, and the reasons a step can stop. -/

namespace Sys2Proof.Machine

/-- No command of this part stops with a fault: trouble shows as an outcome code, a notice or a count
(Tables 9-5 and 10-3). The type has no constructor, so no meaning can raise one (safe). -/
inductive Fault where
  deriving DecidableEq, Repr

/-- Reasons to refuse a command. -/
inductive Refusal where
  /-- Raised only by an arm of exec whose command has no meaning yet; safe, since the machine stops. -/
  | notModelled (mnemonic : String)
  deriving DecidableEq, Repr

/-! ### Names -/

/-- Discipline states of the time base (Table 1-1). -/
inductive Discipline where
  | unset
  | acquire
  | locked
  | holdover
  deriving DecidableEq, Repr

/-- Slot states (Table 2-1). -/
inductive SlotState where
  | unused
  | joining
  | coordinated
  | transition
  | overridden
  | lost
  deriving DecidableEq, Repr

/-- Override modes (Table 2-1). -/
inductive OverrideMode where
  | latched
  | perCycle
  deriving DecidableEq, Repr

/-- Timetable layers: the target cause of a slot and the source layer of a group (Tables 2-1 and 5-1). -/
inductive Layer where
  | base
  | event
  | cue
  | direct
  | default
  deriving DecidableEq, Repr

/-- Transition modes (Table 2-1). -/
inductive Mode where
  | best
  | lengthen
  | shorten
  | immediate
  deriving DecidableEq, Repr

/-- Causes of an evaluation (Table 10-1). -/
inductive Cause where
  | join
  | base
  | event
  | cue
  | direct
  | default
  | shadow
  | step
  | recovery
  | resync
  deriving DecidableEq, Repr

/-- Evaluations owed at the next boundary (Table 2-1). -/
inductive PendingEval where
  | recovery
  | resync
  deriving DecidableEq, Repr

/-- Directions of a transition (section 3.4). -/
inductive Direction where
  | shorten
  | lengthen
  | immediate
  deriving DecidableEq, Repr

/-- Outcomes of a transition record (Table 10-1). -/
inductive RecordOutcome where
  | completed
  | superseded
  | overridden
  | lost
  | released
  deriving DecidableEq, Repr

/-- Override states that a controller reports (Table 7-2). -/
inductive FieldOverride where
  | none
  | preempt
  | flash
  | localTiming
  deriving DecidableEq, Repr

/-- Override causes (Table 8-1). -/
inductive OverrideCause where
  | field
  | hold (line : Fin 4)
  deriving DecidableEq, Repr

/-- Group policies (Table 5-1). -/
inductive Policy where
  | wait
  | leave
  deriving DecidableEq, Repr

/-- Group states (Table 5-1). -/
inductive GroupState where
  | steady
  | pending
  | transition
  | held
  deriving DecidableEq, Repr

/-- Port states (Table 7-1). -/
inductive PortState where
  | idle
  | awaiting
  | blocked
  deriving DecidableEq, Repr

/-- Phases of an exchange (section 7.1). -/
inductive ExchangePhase where
  | sending
  | window
  deriving DecidableEq, Repr

/-- Outcomes of an exchange (R32). -/
inductive ExchangeOutcome where
  | good
  | timeout
  | addressMismatch
  | contentMismatch
  deriving DecidableEq, Repr

/-- Notice kinds in the order of Table 10-3. -/
inductive Notice where
  | timeLocked
  | timeStep
  | timeHoldover
  | groupSteady
  | groupLimit
  | slotLost
  | slotRejoined
  | overrideEnter
  | overrideExit
  | planMissing
  | planFault
  | recordCount
  | ringOverwrite
  | cueIgnored
  | trunkDrop
  deriving DecidableEq, Repr

/-- Outcomes of a request in the order of Table 12-3. -/
inductive RequestOutcome where
  | done
  | partly
  | busy
  | noRoom
  | noSuch
  | duplicate
  | inUse
  | badValue
  | badPlan
  | state
  | faulted
  deriving DecidableEq, Repr

/-- Error codes of TEST LOCATION (R179). -/
inductive TestError where
  | data
  | check
  | detect
  deriving DecidableEq, Repr

/-- Kinds of restart (R162). -/
inductive RestartKind where
  | warm
  | cold
  deriving DecidableEq, Repr

/-- A time stamp: day number and NT (section 6.2 of 00_scope.md). -/
structure Stamp where
  day : Nat
  nt : Nat
  deriving DecidableEq, Repr

/-! ### Time base (Table 1-1) -/

/-- The time base. -/
structure TimeBase where
  nt : Nat
  day : Nat
  disc : Discipline
  /-- tick phase, 0 to 9 -/
  phase : Nat
  agree : Nat
  outliers : Nat
  /-- pending slew, -20 to +20 -/
  slew : Int
  /-- mark age, 0 to 60 -/
  age : Nat
  /-- last difference, absent or -32,768 to +32,767 -/
  lastDiff : Option Int
  deriving DecidableEq, Repr

/-- R16: the time base after RESET line assertion and RESTART COLD. -/
def TimeBase.cold : TimeBase :=
  { nt := 0, day := 0, disc := .unset, phase := 0, agree := 0, outliers := 0, slew := 0, age := 0,
    lastDiff := none }

/-! ### Slot engine (Tables 2-1 and 8-1) -/

/-- One phase of a plan (Table 4-1). -/
structure Phase where
  id : Nat
  split : Nat
  minimum : Nat
  deriving DecidableEq, Repr

/-- The plan fields of a record, and the active plan copy of a slot (Tables 2-1 and 4-1). -/
structure Plan where
  /-- C, the plan cycle length -/
  cycle : Nat
  /-- O, the offset -/
  offset : Nat
  shortPct : Nat
  longPct : Nat
  /-- the coordinated index, 1 to n -/
  coord : Nat
  phases : List Phase
  deriving DecidableEq, Repr

/-- What a running slot has and another lacks: position p, cycle length L, current splits (R18). -/
structure CycleRun where
  p : Nat
  len : Nat
  splits : List Nat
  deriving DecidableEq, Repr

/-- The open transition of a slot (Table 2-1). -/
structure Transition where
  dir : Direction
  cause : Cause
  fromPlan : Nat
  start : Stamp
  used : Nat
  total : Nat
  forced : Bool
  lateSeen : Bool
  missSeen : Bool
  deriving DecidableEq, Repr

/-- A slot context. -/
structure Slot where
  intersection : Nat
  port : Fin 4
  drop : Nat
  group : Fin 16
  divider : Nat
  mode : OverrideMode
  recording : Bool
  state : SlotState
  joined : Bool
  current : Nat
  /-- the active plan copy -/
  copy : Option Plan
  target : Nat
  targetCause : Option Layer
  targetMode : Option Mode
  failReported : Bool
  run : Option CycleRun
  count : Nat
  firstCycle : Bool
  stepFlag : Bool
  pendingEval : Option PendingEval
  trans : Option Transition
  missRun : Nat
  timeouts : Nat
  addressMisses : Nat
  contentMisses : Nat
  lateSyncs : Nat
  /-- the override cause set: bit 0 FIELD, bits 1 to 4 HOLD0 to HOLD3 -/
  causes : BitVec 5
  latch : Bool
  lastOverride : FieldOverride
  deriving DecidableEq, Repr

/-- R38: an UNUSED slot, as every slot is after RESET line assertion and RESTART COLD. -/
def Slot.unused : Slot :=
  { intersection := 0, port := 0, drop := 0, group := 0, divider := 0, mode := .latched, recording := false,
    state := .unused, joined := false, current := 0, copy := none, target := 0, targetCause := none,
    targetMode := none, failReported := false, run := none, count := 0, firstCycle := false,
    stepFlag := false, pendingEval := none, trans := none, missRun := 0, timeouts := 0, addressMisses := 0,
    contentMisses := 0, lateSyncs := 0, causes := 0#5, latch := false, lastOverride := .none }

/-- One hold line (Table 8-1). -/
structure HoldLine where
  level : Level
  map : SlotSet
  deriving DecidableEq, Repr

/-! ### Group coordinator (Table 5-1) -/

/-- A group record. -/
structure Group where
  defaultPlan : Nat
  policy : Policy
  defaultMode : Mode
  tol : Nat
  limit : Nat
  state : GroupState
  target : Nat
  layer : Option Layer
  targetMode : Option Mode
  elapsed : Nat
  adopted : Bool
  reported : Bool
  deriving DecidableEq, Repr

/-- R94: a group record after RESET line assertion and RESTART COLD. -/
def Group.cold : Group :=
  { defaultPlan := 0, policy := .leave, defaultMode := .best, tol := 2, limit := 15, state := .steady,
    target := 0, layer := none, targetMode := none, elapsed := 0, adopted := false, reported := false }

/-- What the member view holds of a defined slot (section 5.1). -/
structure Member where
  group : Fin 16
  state : SlotState
  current : Nat
  deriving DecidableEq, Repr

/-! ### Timetable engine (Table 6-1) -/

/-- A calendar exception. -/
structure CalendarEntry where
  day : Nat
  dayType : Nat
  deriving DecidableEq, Repr

/-- A base entry. -/
structure BaseEntry where
  id : Nat
  group : Fin 16
  mask : BitVec 8
  start : Nat
  plan : Nat
  mode : Option Mode
  deriving DecidableEq, Repr

/-- An event entry. -/
structure EventEntry where
  id : Nat
  group : Fin 16
  startDay : Nat
  startMinute : Nat
  endDay : Nat
  endMinute : Nat
  plan : Nat
  priority : Nat
  mode : Option Mode
  deriving DecidableEq, Repr

/-- A cue table entry. -/
structure CueEntry where
  number : Nat
  group : Fin 16
  plan : Nat
  duration : Nat
  priority : Nat
  deriving DecidableEq, Repr

/-- An active cue. -/
structure ActiveCue where
  number : Nat
  plan : Nat
  priority : Nat
  endR : Nat
  deriving DecidableEq, Repr

/-- A direct selection; no end means "until ended". -/
structure DirectSelection where
  plan : Nat
  endR : Option Nat
  deriving DecidableEq, Repr

/-- The timetable engine. -/
structure Timetable where
  calendar : List CalendarEntry
  base : List BaseEntry
  events : List EventEntry
  cues : List CueEntry
  active : Vector (Option ActiveCue) 16
  direct : Vector (Option DirectSelection) 16
  deriving DecidableEq, Repr

/-- R115: the timetable engine after RESET line assertion and RESTART COLD. -/
def Timetable.cold : Timetable :=
  { calendar := [], base := [], events := [], cues := [], active := Vector.replicate 16 none,
    direct := Vector.replicate 16 none }

/-! ### Plan store (sections 4.1 and 4.2) -/

/-- What an occupied location holds (R61). -/
inductive Occupancy where
  | record
  | shadow
  deriving DecidableEq, Repr

/-- An occupied location. Its key and marks stand beside the image and are not covered by check bits. -/
structure Location where
  num : Nat
  occupancy : Occupancy
  slot : Fin 64
  plan : Nat
  faulted : Bool
  /-- the shadow link of a record -/
  link : Option Nat
  words : List CodeWord
  deriving DecidableEq, Repr

/-- A cell of the store that holds one level whatever is written to it (the MODEL's own, log entry 8). Bits 0 to
15 are the data bits and bits 16 to 21 the check bits. -/
structure StuckBit where
  num : Nat
  word : Nat
  bit : Nat
  level : Bool
  deriving DecidableEq, Repr

/-- The plan store with its scrubber. `held` lists the occupied locations, strictly ascending. -/
structure PlanStore where
  held : List Location
  corrected : Nat
  scrubOn : Bool
  scrubPos : Nat
  passes : Nat
  stuck : List StuckBit
  deriving DecidableEq, Repr

/-- R79: the plan store after RESET line assertion and RESTART COLD; the cells stay as they are made. -/
def PlanStore.cold (stuck : List StuckBit) : PlanStore :=
  { held := [], corrected := 0, scrubOn := true, scrubPos := 0, passes := 0, stuck := stuck }

/-! ### Field port controller (Table 7-1) -/

/-- A frame that a slot decided for its controller (R27, Table 7-2). -/
inductive FieldFrame where
  | sync (drop intersection plan count len : Nat) (first transition resync : Bool) (coord : Nat)
      (points : List Nat)
  | poll (drop intersection count : Nat)
  deriving DecidableEq, Repr

/-- An entry of a port queue (R118). -/
structure QueueEntry where
  slot : Fin 64
  frame : FieldFrame
  deriving DecidableEq, Repr

/-- An exchange record (section 7.1). -/
structure Exchange where
  slot : Fin 64
  detached : Bool
  /-- the frame kind: SYNC, or else POLL -/
  isSync : Bool
  drop : Nat
  intersection : Nat
  /-- the plan that a SYNC carried; 0 for a POLL -/
  plan : Nat
  count : Nat
  window : Nat
  phase : ExchangePhase
  elapsed : Nat
  badSeen : Bool
  deriving DecidableEq, Repr

/-- A port context. -/
structure Port where
  state : PortState
  window : Nat
  queue : List QueueEntry
  exchange : Option Exchange
  line : LineCondition
  /-- the bytes that the port drives onto its line while it sends (R122, Table 12-6) -/
  wire : List Byte
  blockedTimer : Nat
  idleTimer : Nat
  sent : Nat
  outside : Nat
  otherDrops : Nat
  bad : Nat
  blockedEntries : Nat
  deriving DecidableEq, Repr

/-- R133: a port after RESET line assertion and RESTART COLD. -/
def Port.cold : Port :=
  { state := .idle, window := 60, queue := [], exchange := none, line := .idle, wire := [], blockedTimer := 0,
    idleTimer := 0, sent := 0, outside := 0, otherDrops := 0, bad := 0, blockedEntries := 0 }

/-! ### Trunk interface and management engine (Table 9-2, section 9.4) -/

/-- A trunk frame (Table 12-1); its length byte is the length of the body. -/
structure TrunkFrame where
  kind : Byte
  station : Byte
  hops : Byte
  body : List Byte
  crc : Half
  deriving DecidableEq, Repr

/-- The counts of one trunk port (Table 9-2). -/
structure PortCounts where
  received : Nat
  crcDrops : Nat
  hopExpiries : Nat
  foreign : Nat
  deriving DecidableEq, Repr

/-- An out-queue and its counts (Table 9-2). The frame being sent is at the head. -/
structure OutQueue where
  frames : List TrunkFrame
  sent : Nat
  drops : Nat
  deriving DecidableEq, Repr

/-- The trunk interface. -/
structure Trunk where
  strap : Byte
  countsA : PortCounts
  countsB : PortCounts
  malformed : Nat
  aOut : OutQueue
  bOut : OutQueue
  deriving DecidableEq, Repr

/-- Counts all 0 (R163). -/
def PortCounts.zero : PortCounts := ⟨0, 0, 0, 0⟩

/-- R163: the trunk interface after RESET line assertion; the strap value stands until it is sampled. -/
def Trunk.cold (strap : Byte) : Trunk :=
  { strap := strap, countsA := .zero, countsB := .zero, malformed := 0, aOut := ⟨[], 0, 0⟩, bOut := ⟨[], 0, 0⟩ }

/-- States of the management engine (section 9.4), with the request in progress. -/
inductive Engine where
  | idle
  | carrying (r : Request)
  | replyWait (r : Request) (reply : TrunkFrame)
  deriving DecidableEq, Repr

/-- The management engine. `restart` is an addressed RESTART carried out whose effect is still to come (R162),
with its reply. -/
structure Management where
  queue : List Request
  engine : Engine
  restart : Option (RestartKind × TrunkFrame)
  deriving DecidableEq, Repr

/-- R163: the management engine after a reset. -/
def Management.cold : Management := { queue := [], engine := .idle, restart := none }

/-! ### Record unit and integrity test unit (Table 10-1, R180) -/

/-- A transition record (Table 10-1). From-plan 0 is absent; an absent direction is NONE. -/
structure TransitionRecord where
  slot : Fin 64
  intersection : Nat
  fromPlan : Nat
  toPlan : Nat
  cause : Cause
  start : Stamp
  stop : Stamp
  used : Nat
  dir : Option Direction
  total : Nat
  outcome : RecordOutcome
  forced : Bool
  lateSeen : Bool
  missSeen : Bool
  deriving DecidableEq, Repr

/-- The record unit. Bit k of `mask` and `notices` is the kind at row k + 1 of Table 10-3. -/
structure RecordUnit where
  ring : List TransitionRecord
  overwrites : Nat
  filter : SlotSet
  countDown : Nat
  reload : Nat
  notices : BitVec 15
  mask : BitVec 15
  deriving DecidableEq, Repr

/-- R174: the record unit after RESET line assertion and RESTART COLD. -/
def RecordUnit.cold : RecordUnit :=
  { ring := [], overwrites := 0, filter := 0#64, countDown := 0, reload := 0, notices := 0#15, mask := 0#15 }

/-- The log-out record (R180). -/
structure LogOut where
  num : Nat
  error : TestError
  pattern : Nat
  word : Nat
  dataDiff : Half
  checkDiff : BitVec 6
  stamp : Stamp
  deriving DecidableEq, Repr

/-! ### The whole part -/

/-- The part, with the queue of commands waiting for it. -/
structure State where
  pending : List Instr
  resetAsserted : Bool
  time : TimeBase
  slots : Vector Slot 64
  holds : Vector HoldLine 4
  groups : Vector Group 16
  members : Vector (Option Member) 64
  tables : Timetable
  store : PlanStore
  ports : Vector Port 4
  trunk : Trunk
  mgmt : Management
  records : RecordUnit
  logOut : Option LogOut
  freeReads : Nat
  deriving DecidableEq, Repr

/-- The part right after reset: every block at the values of R16, R38, R79, R94, R115, R133, R148, R163, R174 and
R183, with the RESET line still asserted (log entry 2) and no command waiting. -/
def State.reset : State :=
  { pending := [], resetAsserted := true, time := .cold, slots := Vector.replicate 64 .unused,
    holds := Vector.replicate 4 ⟨.inactive, 0#64⟩, groups := Vector.replicate 16 .cold,
    members := Vector.replicate 64 none, tables := .cold, store := .cold [], ports := Vector.replicate 4 .cold,
    trunk := .cold 0#8, mgmt := .cold, records := .cold, logOut := none, freeReads := 0 }

end Sys2Proof.Machine
end

