-- ==== Sys2Proof/Machine/Flags.lean ====
section
/-! DEFINITION. Codes of enumerations (Table 12-4), the notice set, the override cause set and other flag sets. -/

namespace Sys2Proof.Machine

/-- The code of a value: its position in the list of Table 1-1 (Table 12-4). -/
def disciplineCode : Discipline → Nat
  | .unset => 0
  | .acquire => 1
  | .locked => 2
  | .holdover => 3

/-- The code of a value: its position in the list of Table 2-1 (Table 12-4). -/
def slotStateCode : SlotState → Nat
  | .unused => 0
  | .joining => 1
  | .coordinated => 2
  | .transition => 3
  | .overridden => 4
  | .lost => 5

/-- The code of a value: its position in the list of Table 2-1 (Table 12-4). -/
def overrideModeCode : OverrideMode → Nat
  | .latched => 0
  | .perCycle => 1

/-- The code of a value: its position in the list of Table 5-1 (Table 12-4). -/
def layerCode : Layer → Nat
  | .base => 0
  | .event => 1
  | .cue => 2
  | .direct => 3
  | .default => 4

/-- The code of a value: its position in the list of Table 5-1 (Table 12-4). -/
def modeCode : Mode → Nat
  | .best => 0
  | .lengthen => 1
  | .shorten => 2
  | .immediate => 3

/-- The code of a value: its position in the list of Table 12-8 (Table 12-4). -/
def causeCode : Cause → Nat
  | .join => 0
  | .base => 1
  | .event => 2
  | .cue => 3
  | .direct => 4
  | .default => 5
  | .shadow => 6
  | .step => 7
  | .recovery => 8
  | .resync => 9

/-- The code of a value: its position in the list of Table 2-1 (Table 12-4). -/
def pendingEvalCode : PendingEval → Nat
  | .recovery => 0
  | .resync => 1

/-- The code of a value: its position in the list of Table 12-8 (Table 12-4). -/
def recordOutcomeCode : RecordOutcome → Nat
  | .completed => 0
  | .superseded => 1
  | .overridden => 2
  | .lost => 3
  | .released => 4

/-- The code of a value: its position in the list of Table 12-6 (Table 12-4). -/
def fieldOverrideCode : FieldOverride → Nat
  | .none => 0
  | .preempt => 1
  | .flash => 2
  | .localTiming => 3

/-- The code of a value: its position in the list of Table 5-1 (Table 12-4). -/
def policyCode : Policy → Nat
  | .wait => 0
  | .leave => 1

/-- The code of a value: its position in the list of Table 5-1 (Table 12-4). -/
def groupStateCode : GroupState → Nat
  | .steady => 0
  | .pending => 1
  | .transition => 2
  | .held => 3

/-- The code of a value: its position in the list of Table 7-1 (Table 12-4). -/
def portStateCode : PortState → Nat
  | .idle => 0
  | .awaiting => 1
  | .blocked => 2

/-- The code of a value: its position in the list of section 7.1 (Table 12-4). -/
def phaseCode : ExchangePhase → Nat
  | .sending => 0
  | .window => 1

/-- The code of a value: its position in the list of Table 12-3 (Table 12-4). -/
def outcomeCode : RequestOutcome → Nat
  | .done => 0
  | .partly => 1
  | .busy => 2
  | .noRoom => 3
  | .noSuch => 4
  | .duplicate => 5
  | .inUse => 6
  | .badValue => 7
  | .badPlan => 8
  | .state => 9
  | .faulted => 10

/-- The code of a value: its position in the list of R179 (Table 12-4). -/
def testErrorCode : TestError → Nat
  | .data => 0
  | .check => 1
  | .detect => 2

/-- The code of a value: its position in the list of section 12.2: bit k stands for the kind at row k + 1 of Table 10-3 (Table 12-4). -/
def noticeBit : Notice → Nat
  | .timeLocked => 0
  | .timeStep => 1
  | .timeHoldover => 2
  | .groupSteady => 3
  | .groupLimit => 4
  | .slotLost => 5
  | .slotRejoined => 6
  | .overrideEnter => 7
  | .overrideExit => 8
  | .planMissing => 9
  | .planFault => 10
  | .recordCount => 11
  | .ringOverwrite => 12
  | .cueIgnored => 13
  | .trunkDrop => 14

/-- The code of a value: its position in the list of Table 8-1 (Table 12-4). -/
def levelCode : Level → Nat
  | .inactive => 0
  | .active => 1

/-- The code of a value: its position in the list of Table 7-1 (Table 12-4). -/
def lineCode : LineCondition → Nat
  | .idle => 0
  | .active => 1

/-- The value that a code names, or none for an unknown value (R186). -/
def overrideModeOfCode (b : Byte) : Option OverrideMode :=
  match b.toNat with
  | 0 => some .latched
  | 1 => some .perCycle
  | _ => none

/-- The value that a code names, or none for an unknown value (R186). -/
def modeOfCode (b : Byte) : Option Mode :=
  match b.toNat with
  | 0 => some .best
  | 1 => some .lengthen
  | 2 => some .shorten
  | 3 => some .immediate
  | _ => none

/-- The value that a code names, or none for an unknown value (R186). -/
def fieldOverrideOfCode (b : Byte) : Option FieldOverride :=
  match b.toNat with
  | 0 => some .none
  | 1 => some .preempt
  | 2 => some .flash
  | 3 => some .localTiming
  | _ => none

/-- The value that a code names, or none for an unknown value (R186). -/
def policyOfCode (b : Byte) : Option Policy :=
  match b.toNat with
  | 0 => some .wait
  | 1 => some .leave
  | _ => none

/-- An optional mode of a request: 0xFF is absent (section 12.3). The outer none is an unknown value. -/
def optModeOfCode (b : Byte) : Option (Option Mode) :=
  if b = 0xFF#8 then some none else (modeOfCode b).map some

/-- An optional mode in a reply: 0xFF when absent (section 12.3). -/
def optMode1 : Option Mode → List Byte
  | some m => num1 (modeCode m)
  | none => [0xFF#8]

/-- The direction code of a record, 0 for NONE (Table 12-8); READ SLOT uses the same list (log entry 10). -/
def directionCode : Option Direction → Nat
  | none => 0
  | some .shorten => 1
  | some .lengthen => 2
  | some .immediate => 3

/-- A target cause as an evaluation cause (R21). -/
def Layer.cause : Layer → Cause
  | .base => .base
  | .event => .event
  | .cue => .cue
  | .direct => .direct
  | .default => .default

/-- A pending evaluation as an evaluation cause (R24). -/
def PendingEval.cause : PendingEval → Cause
  | .recovery => .recovery
  | .resync => .resync

/-! ### Counts -/

/-- A 16-bit count that saturates, increased by n (Tables 2-1, 7-1 and 9-2). -/
def satAdd (c n : Nat) : Nat := min Config.count16 (c + n)

/-! ### Sets held as bits -/

/-- The bit of an override cause in the cause set (Table 8-1's list; Table 12-4). -/
def causeBit : OverrideCause → Nat
  | .field => 0
  | .hold l => l.val + 1

/-- The cause is in the set. -/
def causeIn (set : BitVec 5) (c : OverrideCause) : Bool := set.getLsbD (causeBit c)

/-- The set with the cause joined (R136). -/
def causeJoin (set : BitVec 5) (c : OverrideCause) : BitVec 5 := set ||| (1#5 <<< causeBit c)

/-- The set without the cause (R136). -/
def causeLeave (set : BitVec 5) (c : OverrideCause) : BitVec 5 := set &&& ~~~(1#5 <<< causeBit c)

/-- The notice kind is in a set of kinds. -/
def noticeIn (set : BitVec 15) (k : Notice) : Bool := set.getLsbD (noticeBit k)

/-- The slot is in a set of slots. -/
def slotIn (set : SlotSet) (i : Fin 64) : Bool := set.getLsbD i.val

/-! ### The record unit's notice set (R171 to R173) -/

/-- R171: a raised kind is discarded when masked, and otherwise joins the pending set. -/
def RecordUnit.raise (u : RecordUnit) (k : Notice) : RecordUnit :=
  if noticeIn u.mask k then u else { u with notices := u.notices ||| (1#15 <<< noticeBit k) }

/-- R173: the mask is replaced whole, and the kinds now masked leave the pending set. Bit 15 of the field is
ignored (section 12.2). -/
def RecordUnit.setMask (u : RecordUnit) (mask : Half) : RecordUnit :=
  let m := mask.setWidth 15
  { u with mask := m, notices := u.notices &&& ~~~m }

/-- The 16-bit field of a set of notice kinds, bit 15 clear (section 12.2). -/
def noticeBytes (set : BitVec 15) : List Byte := halfBytes (set.setWidth 16)

end Sys2Proof.Machine
end

