-- ==== Sys2Proof/Machine/Ops.lean ====
section
/-! DEFINITION. The named operations over the state: reading and writing a block, raising a notice, taking a
transition record, and the frame of carrying a request out. -/

namespace Sys2Proof.Machine

/-! ### Writing one block -/

/-- The state with another `time`. -/
def State.setTime (s : State) (x : TimeBase) : State := { s with time := x }

/-- The state with another `tables`. -/
def State.setTables (s : State) (x : Timetable) : State := { s with tables := x }

/-- The state with another `store`. -/
def State.setStore (s : State) (x : PlanStore) : State := { s with store := x }

/-- The state with another `trunk`. -/
def State.setTrunk (s : State) (x : Trunk) : State := { s with trunk := x }

/-- The state with another `mgmt`. -/
def State.setMgmt (s : State) (x : Management) : State := { s with mgmt := x }

/-- The state with another `records`. -/
def State.setRecords (s : State) (x : RecordUnit) : State := { s with records := x }

/-- The state with another `logOut`. -/
def State.setLogOut (s : State) (x : Option LogOut) : State := { s with logOut := x }

/-- The state with another `resetAsserted`. -/
def State.setResetAsserted (s : State) (x : Bool) : State := { s with resetAsserted := x }

/-- The state with another `freeReads`. -/
def State.setFreeReads (s : State) (x : Nat) : State := { s with freeReads := x }

/-- The state with another `pending`. -/
def State.setPending (s : State) (x : List Instr) : State := { s with pending := x }

/-- Element i of `slots`. -/
def State.slot (s : State) (i : Fin 64) : Slot := s.slots.get i

/-- The state with another element i of `slots`. -/
def State.setSlot (s : State) (i : Fin 64) (x : Slot) : State :=
  { s with slots := s.slots.set i.val x i.isLt }

/-- Element i of `holds`. -/
def State.hold (s : State) (i : Fin 4) : HoldLine := s.holds.get i

/-- The state with another element i of `holds`. -/
def State.setHold (s : State) (i : Fin 4) (x : HoldLine) : State :=
  { s with holds := s.holds.set i.val x i.isLt }

/-- Element i of `groups`. -/
def State.group (s : State) (i : Fin 16) : Group := s.groups.get i

/-- The state with another element i of `groups`. -/
def State.setGroup (s : State) (i : Fin 16) (x : Group) : State :=
  { s with groups := s.groups.set i.val x i.isLt }

/-- Element i of `members`. -/
def State.member (s : State) (i : Fin 64) : Option Member := s.members.get i

/-- The state with another element i of `members`. -/
def State.setMember (s : State) (i : Fin 64) (x : Option Member) : State :=
  { s with members := s.members.set i.val x i.isLt }

/-- Element i of `ports`. -/
def State.port (s : State) (i : Fin 4) : Port := s.ports.get i

/-- The state with another element i of `ports`. -/
def State.setPort (s : State) (i : Fin 4) (x : Port) : State :=
  { s with ports := s.ports.set i.val x i.isLt }

/-! ### Time as the blocks read it -/

/-- The reference count R (section 6.2 of 00_scope.md). -/
def TimeBase.ref (t : TimeBase) : Nat := t.day * Config.dayDs + t.nt

/-- R1: time is set when the discipline state is not UNSET. -/
def TimeBase.isSet (t : TimeBase) : Bool := t.disc != .unset

/-- The time stamp now (section 6.2 of 00_scope.md). -/
def TimeBase.stamp (t : TimeBase) : Stamp := ⟨t.day, t.nt⟩

/-- The present minute of the day (R110). -/
def TimeBase.minute (t : TimeBase) : Nat := t.nt / Config.minuteDs

/-- R18: a slot is running when it has a position. -/
def Slot.running (x : Slot) : Bool := x.run.isSome

/-! ### Notices and records -/

/-- R171: a block raises a notice kind in the record unit. -/
def State.raise (s : State) (k : Notice) : State := s.setRecords (s.records.raise k)

/-- R168: a count-down that stands at 0 with a reload value above 0 raises RECORD_COUNT and reloads. -/
def RecordUnit.countDownZero (u : RecordUnit) : RecordUnit :=
  if 0 < u.reload ∧ u.countDown = 0 then { u.raise .recordCount with countDown := u.reload } else u

/-- R168: a record placed in the ring lowers the count-down. -/
def RecordUnit.countPlaced (u : RecordUnit) : RecordUnit :=
  if u.reload = 0 then u else ({ u with countDown := u.countDown - 1 } : RecordUnit).countDownZero

/-- R167: a record joins the end of the ring; a full ring first discards its oldest, which is counted and
raises RING_OVERWRITE. -/
def RecordUnit.place (u : RecordUnit) (r : TransitionRecord) : RecordUnit :=
  if u.ring.length < Config.ringCap then { u with ring := u.ring ++ [r] }
  else ({ u with ring := u.ring.drop 1 ++ [r], overwrites := satAdd u.overwrites 1 } : RecordUnit).raise .ringOverwrite

/-- R166: the filter is tested first; a record that passes is placed and then counted. -/
def RecordUnit.take (u : RecordUnit) (r : TransitionRecord) : RecordUnit :=
  if slotIn u.filter r.slot then (u.place r).countPlaced else u

/-- R165: the slot engine hands a record over, and the record unit stamps its end from the time base. -/
def State.takeRecord (s : State) (r : TransitionRecord) : State :=
  s.setRecords (s.records.take { r with stop := s.time.stamp })

/-! ### Frames and out-queues -/

/-- R153: the station number, none at a pass-through station. -/
def Trunk.station (t : Trunk) : Option Byte :=
  if 1 ≤ t.strap.toNat ∧ t.strap.toNat ≤ 250 then some t.strap else none

/-- The bytes of a frame that its CRC covers (R185, Table 12-1). -/
def frameBytes (kind station hops : Byte) (body : List Byte) : List Byte :=
  [kind, station, hops, BitVec.ofNat 8 body.length] ++ body

/-- A frame with a fresh CRC (R151, R185). -/
def TrunkFrame.make (kind station hops : Byte) (body : List Byte) : TrunkFrame :=
  { kind := kind, station := station, hops := hops, body := body, crc := crc16 (frameBytes kind station hops body) }

/-- The bytes of a frame on the line, delimiter first (R185, Table 12-1). -/
def TrunkFrame.lineBytes (f : TrunkFrame) : List Byte :=
  delimiter :: escape (frameBytes f.kind f.station f.hops f.body ++ halfBytes f.crc)

/-- R152: an out-queue has room for a frame. -/
def OutQueue.hasRoom (q : OutQueue) : Bool := decide (q.frames.length < Config.outQueueCap)

/-- R152: a frame placed at the tail. -/
def OutQueue.place (q : OutQueue) (f : TrunkFrame) : OutQueue := { q with frames := q.frames ++ [f] }

/-- R152: a frame found no room. -/
def OutQueue.drop (q : OutQueue) : OutQueue := { q with drops := satAdd q.drops 1 }

/-- R152: a frame passed on, or a BUSY reply, offered to A-out. -/
def State.offerA (s : State) (f : TrunkFrame) : State :=
  if s.trunk.aOut.hasRoom then s.setTrunk { s.trunk with aOut := s.trunk.aOut.place f }
  else (s.setTrunk { s.trunk with aOut := s.trunk.aOut.drop }).raise .trunkDrop

/-- R152: a frame passed on, offered to B-out. -/
def State.offerB (s : State) (f : TrunkFrame) : State :=
  if s.trunk.bOut.hasRoom then s.setTrunk { s.trunk with bOut := s.trunk.bOut.place f }
  else (s.setTrunk { s.trunk with bOut := s.trunk.bOut.drop }).raise .trunkDrop

/-! ### Carrying a request out -/

/-- R158: SET DAY, SET CALENDAR and RESTART WARM may be carried out from station 0. -/
def broadcastEligible (r : Request) : Bool :=
  r.code == 0x02#8 || r.code == 0x40#8 || (r.code == 0x71#8 && r.params == [0#8])

/-- R158: a broadcast request that is not carried out. -/
def discarded (r : Request) : Bool := r.src.broadcast && !broadcastEligible r

/-- R158: an IDLE engine takes the request at the head of the queue, discarding the broadcast requests that are
not carried out. While a RESTART waits for its effect the engine takes none (R162). -/
def Management.takeNext (m : Management) : Management :=
  match m.engine, m.restart with
  | .idle, none =>
    match m.queue.dropWhile discarded with
    | [] => { m with queue := [] }
    | r :: rest => { m with engine := .carrying r, queue := rest }
  | _, _ => m

/-- The request in progress has ended: the engine becomes IDLE and takes the next (R158). -/
def State.engineDone (s : State) : State :=
  s.setMgmt ({ s.mgmt with engine := .idle } : Management).takeNext

/-- R159: the body of a reply. -/
def replyBody (r : Request) (o : RequestOutcome) (summary : BitVec 15) (fields : List Byte) : List Byte :=
  halfBytes r.src.tag ++ [r.code] ++ num1 (outcomeCode o) ++ noticeBytes summary ++ fields

/-- R159: a reply as it is built in a state: station number, hops 63, the notice summary as it stands. -/
def State.buildReply (s : State) (r : Request) (o : RequestOutcome) (fields : List Byte) : TrunkFrame :=
  .make 0x11#8 (s.trunk.station.getD 0#8) 0x3F#8 (replyBody r o s.records.notices fields)

/-- R158: the reply is offered to A-out: placed, or held in REPLY WAIT. A broadcast request has none. -/
def State.placeReply (s : State) (r : Request) (reply : TrunkFrame) : State :=
  if r.src.broadcast then s.engineDone
  else if s.trunk.aOut.hasRoom then
    (s.setTrunk { s.trunk with aOut := s.trunk.aOut.place reply }).engineDone
  else s.setMgmt { s.mgmt with engine := .replyWait r reply }

/-- What carrying a request out at its owner gives: the state, the outcome and the reply fields. -/
structure Answer where
  state : State
  outcome : RequestOutcome
  fields : List Byte := []

/-- The engine carries this request out now: it is the request in progress (R158), or the engine is IDLE with an
empty queue and takes it at once (R157; log entry 12). No request is taken while RESET is asserted (R163) or
by a pass-through station (R153). -/
def State.carries (s : State) (r : Request) : Bool :=
  !s.resetAsserted && s.trunk.station.isSome &&
    match s.mgmt.engine with
    | .carrying q => q == r
    | .idle => s.mgmt.restart.isNone && s.mgmt.queue.isEmpty
    | .replyWait _ _ => false

/-- R158: the request that command `i` stands for is carried out by its owner's rule, and its reply is built
and offered. When the engine carries out no such request, nothing happens (log entry 1). -/
def carryOut (i : Instr) (owner : State → Answer) (s : State) : State :=
  match encodeRequest i with
  | none => s
  | some r =>
    if !s.carries r then s
    else if discarded r then s.engineDone
    else
      let a := owner s
      a.state.placeReply r (a.state.buildReply r a.outcome a.fields)

/-- A request that its owner refuses: nothing changes (R160). -/
def refuse (o : RequestOutcome) (s : State) : Answer := { state := s, outcome := o }

/-- A value as an index below n, when it is one: the range check of a slot, group, port or line number. -/
def index? (n : Nat) (v : Nat) : Option (Fin n) := if h : v < n then some ⟨v, h⟩ else none

/-- The outcome of a command that always takes a next state. -/
def next (s : State) : Host.Outcome State Fault Refusal := .next s

end Sys2Proof.Machine
end

