-- ==== Sys2Proof/Machine/Store.lean ====
section
/-! DEFINITION. The plan store: locations, the key map, writes and reads with check bits, promotion, the scrubber
(sections 4.2 to 4.9, R61 to R80, and the image of section 12.5). -/

namespace Sys2Proof.Machine

/-! ### Locations and the key map (R61) -/

/-- The occupied location of a number, if it is occupied. -/
def PlanStore.at? (st : PlanStore) (n : Nat) : Option Location := st.held.find? fun l => l.num == n

/-- The key map: the location of a key's record (R61). -/
def PlanStore.recordOf (st : PlanStore) (i : Fin 64) (plan : Nat) : Option Location :=
  st.held.find? fun l => l.occupancy == .record && l.slot == i && l.plan == plan

/-- The shadow of a key: the location its record's shadow link names (section 4.2). -/
def PlanStore.shadowOf (st : PlanStore) (i : Fin 64) (plan : Nat) : Option Location :=
  ((st.recordOf i plan).bind Location.link).bind fun n => (st.at? n).filter fun l => l.occupancy == .shadow

/-- The lowest number at or above `n` that an ascending list of locations leaves out. -/
def lowestFreeFrom (n : Nat) : List Location → Nat
  | [] => n
  | l :: ls => if l.num = n then lowestFreeFrom (n + 1) ls else n

/-- R61: the lowest-numbered free location, if any is free. -/
def PlanStore.lowestFree (st : PlanStore) : Option Nat :=
  let n := lowestFreeFrom 0 st.held
  if n < Config.locations then some n else none

/-- A location placed in ascending order, replacing one of the same number. -/
def insertLocation (l : Location) : List Location → List Location
  | [] => [l]
  | m :: ms => if l.num < m.num then l :: m :: ms else if l.num = m.num then l :: ms else m :: insertLocation l ms

/-- The store with a location occupied as given. -/
def PlanStore.put (st : PlanStore) (l : Location) : PlanStore := { st with held := insertLocation l st.held }

/-- R61: a location is freed. Its image becomes all zero with matching check bits, which an unlisted location
stands for, and its mark is cleared. -/
def PlanStore.free (st : PlanStore) (n : Nat) : PlanStore :=
  { st with held := st.held.filter fun l => l.num != n }

/-- R71: every location of a slot is freed. -/
def PlanStore.freeSlot (st : PlanStore) (i : Fin 64) : PlanStore :=
  { st with held := st.held.filter fun l => l.slot != i }

/-- R61: the count of free locations. -/
def PlanStore.freeCount (st : PlanStore) : Nat := Config.locations - st.held.length

/-- R61: the count of FAULTED locations. -/
def PlanStore.faultedCount (st : PlanStore) : Nat := st.held.countP Location.faulted

/-- The form of the store's list: locations strictly ascending and below 1,024, each with 32 words. -/
def PlanStore.wf (st : PlanStore) : Bool :=
  decide (st.held.Pairwise fun a b => a.num < b.num) &&
    st.held.all fun l => decide (l.num < Config.locations) && l.words.length == Config.imageWords

/-! ### The image (Table 12-7) -/

/-- The three words of one phase entry. -/
def phaseWords (p : Phase) : List Half := [BitVec.ofNat 16 p.id, BitVec.ofNat 16 p.split, BitVec.ofNat 16 p.minimum]

/-- Table 12-7: the 32 words of a plan stored at a location. -/
def planImage (i : Fin 64) (number : Nat) (p : Plan) (num : Nat) : List Half :=
  let phases := ((p.phases.take 8).map phaseWords).flatten
  [BitVec.ofNat 16 (i.val * 256 + number), BitVec.ofNat 16 p.cycle, BitVec.ofNat 16 p.offset,
    BitVec.ofNat 16 (p.shortPct * 256 + p.longPct), BitVec.ofNat 16 (p.coord * 256 + p.phases.length)] ++
    phases ++ List.replicate (24 - phases.length) 0#16 ++ [0#16, 0#16, BitVec.ofNat 16 num]

/-- Word k of an image as a number. -/
def wordAt (ws : List Half) (k : Nat) : Nat := (ws.getD k 0#16).toNat

/-- Table 12-7 read back: the plan fields of an image, taken as they stand. A word that holds three inverted cells can be
miscorrected by R188, and a field then lie outside Table 4-1: DESIGN CHOICE (log entry 21), no check is made of it. -/
def imagePlan (ws : List Half) : Plan :=
  { cycle := wordAt ws 1
    offset := wordAt ws 2
    shortPct := wordAt ws 3 / 256
    longPct := wordAt ws 3 % 256
    coord := wordAt ws 4 / 256
    phases := (List.range (min 8 (wordAt ws 4 % 256))).map fun j =>
      ⟨wordAt ws (5 + 3 * j), wordAt ws (6 + 3 * j), wordAt ws (7 + 3 * j)⟩ }

/-! ### Cells -/

/-- A word with one of its 22 bits at a level. -/
def CodeWord.withBit (w : CodeWord) (bit : Nat) (level : Bool) : CodeWord :=
  if bit < 16 then
    { w with data := if level then w.data ||| (1#16 <<< bit) else w.data &&& ~~~(1#16 <<< bit) }
  else
    { w with check := if level then w.check ||| (1#6 <<< (bit - 16)) else w.check &&& ~~~(1#6 <<< (bit - 16)) }

/-- What word `word` of location `num` holds once `w` has been written to it: a stuck cell keeps its level
(log entry 8). -/
def PlanStore.cellsOf (st : PlanStore) (num word : Nat) (w : CodeWord) : CodeWord :=
  st.stuck.foldl (fun w b => if b.num = num ∧ b.word = word then w.withBit b.bit b.level else w) w

/-- Words written to a location in order, word 0 first. -/
def PlanStore.writeWords (st : PlanStore) (num : Nat) (ws : List CodeWord) : List CodeWord :=
  ws.mapIdx fun k w => st.cellsOf num k w

/-- An image written with fresh check bits (R61). -/
def PlanStore.writeImage (st : PlanStore) (num : Nat) (image : List Half) : List CodeWord :=
  st.writeWords num (image.map .fresh)

/-! ### Reads with check bits (R74) -/

/-- R74: what a read of a location gives: the store, the corrected image when the read is sound, and the number
of words corrected. -/
structure StoreRead where
  store : PlanStore
  image : Option (List Half)
  fixed : Nat

/-- The data that a reader receives for a word of a sound read (R74). -/
def CodeWord.readData (w : CodeWord) : Half :=
  match w.finding with
  | .corrected d _ => d
  | _ => w.data

/-- The check corrects the word (R74). -/
def CodeWord.isCorrected (w : CodeWord) : Bool :=
  match w.finding with
  | .corrected _ _ => true
  | _ => false

/-- R74: the check of a location that is not marked FAULTED. A sound read writes each corrected word back with
fresh check bits and counts it; a read with an uncorrectable word marks the location FAULTED and leaves the
image as read. -/
def PlanStore.read (st : PlanStore) (l : Location) : StoreRead :=
  if l.words.any fun w => w.finding == .uncorrectable then
    { store := st.put { l with faulted := true }, image := none, fixed := 0 }
  else
    let fixed := l.words.countP CodeWord.isCorrected
    let words := l.words.mapIdx fun k w => if w.isCorrected then st.cellsOf l.num k (.fresh w.readData) else w
    { store := { st.put { l with words := words } with corrected := satAdd st.corrected fixed }
      image := some (l.words.map CodeWord.readData)
      fixed := fixed }

/-- R74: a read in the part: a location that it marks FAULTED raises PLAN_FAULT. -/
def State.readLocation (s : State) (l : Location) : State × Option (List Half) :=
  let r := s.store.read l
  let s1 := s.setStore r.store
  (if r.image.isNone then s1.raise .planFault else s1, r.image)

/-- R76: the results of the slot engine's reads. -/
inductive PlanRead where
  | sound (p : Plan)
  | missing
  | faulted
  deriving DecidableEq, Repr

/-- R76: the slot engine reads the record of a key. -/
def State.readRecord (s : State) (i : Fin 64) (plan : Nat) : State × PlanRead :=
  match s.store.recordOf i plan with
  | none => (s, .missing)
  | some l =>
    if l.faulted then (s, .faulted)
    else
      match s.readLocation l with
      | (s1, some image) => (s1, .sound (imagePlan image))
      | (s1, none) => (s1, .faulted)

/-! ### Promotion (R69) -/

/-- R69: the record is freed, and its shadow's location becomes the key's record and keeps its FAULTED mark. A
record without a shadow stays as it is. -/
def PlanStore.promote (st : PlanStore) (i : Fin 64) (plan : Nat) : PlanStore :=
  match st.recordOf i plan, st.shadowOf i plan with
  | some r, some sh => (st.free r.num).put { sh with occupancy := .record, link := none }
  | _, _ => st

/-- R80: every shadow is promoted without adoption. -/
def PlanStore.promoteAll (st : PlanStore) : PlanStore :=
  st.held.foldl (fun st l => if l.occupancy == .record then st.promote l.slot l.plan else st) st

/-- R80: the plan store on RESTART WARM. -/
def PlanStore.warm (st : PlanStore) : PlanStore :=
  { st.promoteAll with passes := 0, scrubPos := 0, scrubOn := true }

/-! ### Pins (R63) -/

/-- R63: CURRENT holds for a key whose plan is the current plan of its slot. -/
def State.pinCurrent (s : State) (i : Fin 64) (plan : Nat) : Bool := (s.slot i).current == plan

/-- R63: TARGET holds for a key whose plan is the target plan of its slot. -/
def State.pinTarget (s : State) (i : Fin 64) (plan : Nat) : Bool := (s.slot i).target == plan

/-- R63: a record is pinned while any of its three pin reasons holds. -/
def State.pinned (s : State) (l : Location) : Bool :=
  s.pinCurrent l.slot l.plan || s.pinTarget l.slot l.plan || l.link.isSome

/-- R63: the pin reasons of a record as a flag set, CURRENT at bit 0. -/
def State.pinByte (s : State) (l : Location) : List Byte :=
  num1 (bitsNum [s.pinCurrent l.slot l.plan, s.pinTarget l.slot l.plan, l.link.isSome])

/-! ### The scrubber (R77) -/

/-- R77: the position after a visit; a return to 0 counts a pass. -/
def PlanStore.scrubOnward (st : PlanStore) : PlanStore :=
  if st.scrubPos + 1 < Config.locations then { st with scrubPos := st.scrubPos + 1 }
  else { st with scrubPos := 0, passes := satAdd st.passes 1 }

/-- R77: an advance event at the scrubber is one visit while it is ON. -/
def State.scrubVisit (s : State) : State :=
  if s.store.scrubOn then
    let s1 :=
      match s.store.at? s.store.scrubPos with
      | some l => if l.faulted then s else (s.readLocation l).1
      | none => s
    s1.setStore s1.store.scrubOnward
  else s

/-- The scrubber state's code: ON is 0, OFF is 1 (R78, Table 12-4). -/
def PlanStore.scrubByte (st : PlanStore) : List Byte := num1 (if st.scrubOn then 0 else 1)

/-- R73: the store summary of every READ PLAN reply. -/
def PlanStore.summary (st : PlanStore) : List Byte :=
  num2 st.freeCount ++ num2 st.faultedCount ++ num2 st.corrected ++ st.scrubByte ++ num2 st.scrubPos ++ num2 st.passes

end Sys2Proof.Machine
end

