-- ==== Sys2Proof/Machine/Arith.lean ====
section
/-! DEFINITION. Offset transition arithmetic (chapter 3): error, limits, direction, amount and splits. -/

namespace Sys2Proof.Machine

/-- R40: the error of a slot at reference count `ref` with position `p`: (R - p - O) mod C, from 0 to C - 1. -/
def planError (ref p : Nat) (pl : Plan) : Nat := (((ref : Int) - p - pl.offset) % (pl.cycle : Int)).toNat

/-- R41: in step when e or C - e is within the tolerance. -/
def inStep (pl : Plan) (tol e : Nat) : Bool := decide (e ≤ tol ∨ pl.cycle - e ≤ tol)

/-- The plan splits in list order (R52). -/
def Plan.splits (pl : Plan) : List Nat := pl.phases.map Phase.split

/-- R42: the shortening limit S. -/
def Plan.shortLimit (pl : Plan) : Nat := pl.cycle * pl.shortPct / 100

/-- R42: the lengthening limit Lm. -/
def Plan.longLimit (pl : Plan) : Nat := pl.cycle * pl.longPct / 100

/-- The margin of a phase above its minimum. -/
def Phase.margin (p : Phase) : Nat := p.split - p.minimum

/-- The non-coordinated phases in the order in which they lose time: from the one after the coordinated phase
on, wrapping from the end of the list to its start (R54). -/
def Plan.others (pl : Plan) : List Phase := pl.phases.drop pl.coord ++ pl.phases.take (pl.coord - 1)

/-- R42: avail, what the non-coordinated phases hold above their minimums. -/
def Plan.avail (pl : Plan) : Nat := (pl.others.map Phase.margin).sum

/-- R42: the usable shortening limit S'. -/
def Plan.usable (pl : Plan) : Nat := min pl.shortLimit pl.avail

/-- The ceiling of a quotient (R44). -/
def ceilDiv (a b : Nat) : Nat := (a + b - 1) / b

/-- R44: the choice of mode BEST. -/
def bestDirection (pl : Plan) (e : Nat) : Direction :=
  if pl.usable = 0 ∧ pl.longLimit = 0 then .immediate
  else if pl.usable = 0 then .lengthen
  else if pl.longLimit = 0 then .shorten
  else if ceilDiv (pl.cycle - e) pl.longLimit ≤ ceilDiv e pl.usable then .lengthen
  else .shorten

/-- R43 to R48: the direction chosen for an out-of-step slot. An absent mode is BEST (R48). -/
def chooseDirection (pl : Plan) (e : Nat) (forced : Bool) (mode : Option Mode) : Direction :=
  if forced then .immediate
  else
    match mode.getD .best with
    | .best => bestDirection pl e
    | .lengthen => if pl.longLimit = 0 then .immediate else .lengthen
    | .shorten => if pl.usable = 0 then .immediate else .shorten
    | .immediate => .immediate

/-- R49: one transition cycle: whether it shortens, and the amount it corrects. -/
def cycleAmount (pl : Plan) (e : Nat) : Direction → Bool × Nat
  | .shorten => (true, min e pl.usable)
  | .lengthen => (false, min (pl.cycle - e) pl.longLimit)
  | .immediate => if e ≤ pl.avail then (true, e) else (false, pl.cycle - e)

/-- R54: splits of the phases in turn once each has given up what it can of the amount still unmet. -/
def takeFrom (a : Nat) : List Phase → List Nat
  | [] => []
  | p :: ps => (p.split - min p.margin a) :: takeFrom (a - min p.margin a) ps

/-- R54: the splits of a cycle shortened by a. The coordinated phase keeps its plan split. On a plan copy outside Table 3-1,
such as one with coordinated index 0, the arithmetic of this file goes on with the numbers as they stand, `coord - 1`
being 0 there: DESIGN CHOICE (log entry 21), since chapter 3 gives its results for the ranges of Table 3-1 alone. -/
def shortenedSplits (pl : Plan) (a : Nat) : List Nat :=
  let given := takeFrom a pl.others
  let after := pl.phases.length - pl.coord
  given.drop after ++ ((pl.splits.drop (pl.coord - 1)).take 1) ++ given.take after

/-- R53: the splits of a cycle lengthened by a. All of it goes to the coordinated phase. -/
def lengthenedSplits (pl : Plan) (a : Nat) : List Nat :=
  pl.splits.modify (pl.coord - 1) (· + a)

/-- R49, R53, R54: the length and splits of the cycle that corrects in a direction, from position p. -/
def correctedRun (pl : Plan) (p e : Nat) (d : Direction) : CycleRun :=
  let (shortens, a) := cycleAmount pl e d
  if shortens then { p := p, len := pl.cycle - a, splits := shortenedSplits pl a }
  else { p := p, len := pl.cycle + a, splits := lengthenedSplits pl a }

/-- R52: a plan cycle. -/
def planRun (pl : Plan) (p : Nat) : CycleRun := { p := p, len := pl.cycle, splits := pl.splits }

/-- Running sums from an initial value. -/
def runningSums (acc : Nat) : List Nat → List Nat
  | [] => []
  | x :: xs => (acc + x) :: runningSums (acc + x) xs

/-- R55: the force-off points, the running sums of the splits. -/
def forceOffPoints (splits : List Nat) : List Nat := runningSums 0 splits

/-- R50: one more transition cycle with amount a, in direction d. -/
def Transition.withCycle (t : Transition) (d : Direction) (a : Nat) : Transition :=
  { t with dir := d, used := min 255 (t.used + 1), total := satAdd t.total a }

end Sys2Proof.Machine
end

