-- ==== Sys2Proof/Machine/FieldPort.lean ====
section
/-! DEFINITION. The field port controller: queues, exchanges and the line (chapter 7, section 12.4). -/

namespace Sys2Proof.Machine

/-! ### Frames (Table 12-6) -/

/-- The bytes of a field frame before its CRC, after its delimiter (Table 12-6). -/
def FieldFrame.bytes : FieldFrame → List Byte
  | .sync drop intersection plan count len first transition resync coord points =>
    [0x21#8] ++ num1 drop ++ num2 intersection ++ num1 plan ++ num1 count ++ num2 len ++
      num1 (bitsNum [first, transition, resync]) ++ num1 coord ++ num1 points.length ++ (points.map num2).flatten
  | .poll drop intersection count => [0x22#8] ++ num1 drop ++ num2 intersection ++ num1 count

/-- A field frame on the line, delimiter first, with its CRC and escapes (R185, R187). -/
def FieldFrame.lineBytes (f : FieldFrame) : List Byte :=
  delimiter :: escape (f.bytes ++ halfBytes (crc16 f.bytes))

/-- The drop that a frame addresses. -/
def FieldFrame.drop : FieldFrame → Nat
  | .sync d _ _ _ _ _ _ _ _ _ => d
  | .poll d _ _ => d

/-- The intersection number that a frame carries. -/
def FieldFrame.intersection : FieldFrame → Nat
  | .sync _ x _ _ _ _ _ _ _ _ => x
  | .poll _ x _ => x

/-- The plan that a SYNC carries; 0 for a POLL. -/
def FieldFrame.plan : FieldFrame → Nat
  | .sync _ _ p _ _ _ _ _ _ _ => p
  | .poll _ _ _ => 0

/-- The cycle count that a frame carries. -/
def FieldFrame.count : FieldFrame → Nat
  | .sync _ _ _ c _ _ _ _ _ _ => c
  | .poll _ _ c => c

/-- The frame is a SYNC. -/
def FieldFrame.isSync : FieldFrame → Bool
  | .sync _ _ _ _ _ _ _ _ _ _ => true
  | .poll _ _ _ => false

/-- The fields of a STATUS that a field port takes (Table 7-2). -/
structure StatusFields where
  drop : Nat
  intersection : Nat
  plan : Nat
  count : Nat
  override : FieldOverride
  deriving DecidableEq, Repr

/-- A STATUS frame's fields, when each lies in its range (R187). -/
def statusFields (drop : Byte) (intersection : Half) (plan count override : Byte) : Option StatusFields :=
  if statusInRange drop intersection plan override then
    (fieldOverrideOfCode override).map fun o =>
      { drop := drop.toNat, intersection := intersection.toNat, plan := plan.toNat, count := count.toNat, override := o }
  else none

/-- R123, R187: what the receiver makes of one reception, the line bytes after a frame start up to a break: the fields of a
good STATUS, or a bad frame. The frame is complete at 10 unescaped bytes, its delimiter among them, and what follows is passed
over. A delimiter within the frame is taken as the byte that it is, since R123 does not have it end the frame: DESIGN CHOICE
(log entry 24). -/
def receiveField (bytes : List Byte) : Option StatusFields :=
  match unescape bytes with
  | k :: d :: x :: y :: p :: c :: o :: h :: l :: _ =>
    if k = 0x23#8 ∧ beHalf h l = crc16 [k, d, x, y, p, c, o] then statusFields d (beHalf x y) p c o else none
  | _ => none

/-! ### Ports -/

/-- R122: the direction line is asserted exactly while a frame is being sent. -/
def Port.directionAsserted (q : Port) : Bool :=
  match q.exchange with
  | some x => x.phase == .sending
  | none => false

/-- R122: while the port sends, its receiver takes no frames. -/
def Port.sending (q : Port) : Bool := q.directionAsserted

/-- R121: the exchange that starts with an entry. -/
def QueueEntry.exchange (e : QueueEntry) (window : Nat) : Exchange :=
  { slot := e.slot, detached := false, isSync := e.frame.isSync, drop := e.frame.drop,
    intersection := e.frame.intersection, plan := e.frame.plan, count := e.frame.count, window := window,
    phase := .sending, elapsed := 0, badSeen := false }

/-- R121: an IDLE port with a queued frame and an idle line starts an exchange with the head frame, and puts that frame's
bytes on its line (R187). -/
def Port.startIfReady (q : Port) : Port :=
  match q.state, q.line, q.queue with
  | .idle, .idle, e :: rest =>
    { q with state := .awaiting, queue := rest, exchange := some (e.exchange q.window), sent := satAdd q.sent 1,
             wire := e.frame.lineBytes }
  | _, _, _ => q

/-- R119: what the controller finds of a slot's previous frame. -/
inductive PreviousFrame where
  | gone
  | queued
  | inFlight
  deriving DecidableEq, Repr

/-- R119: the finding. -/
def Port.finding (q : Port) (i : Fin 64) : PreviousFrame :=
  if q.queue.any fun e => e.slot == i then .queued
  else if (q.exchange.any fun x => x.slot == i && !x.detached) then .inFlight
  else .gone

/-- R120: a slot's entry is removed, and the queue closes up. -/
def Port.removeEntry (q : Port) (i : Fin 64) : Port := { q with queue := q.queue.filter fun e => e.slot != i }

/-- R119: a decided frame, or the report that none is decided, handed over; the finding comes back. -/
def Port.handOver (q : Port) (i : Fin 64) (frame : Option FieldFrame) : Port × PreviousFrame :=
  match q.finding i, frame with
  | .gone, some f => (({ q with queue := q.queue ++ [⟨i, f⟩] } : Port).startIfReady, .gone)
  | .gone, none => (q, .gone)
  | .queued, some f => ({ q with queue := q.queue.map fun e => if e.slot == i then ⟨i, f⟩ else e }, .queued)
  | .queued, none => (q.removeEntry i, .queued)
  | .inFlight, _ => (q, .inFlight)

/-- R120: on release, the slot's entry is removed and its exchange in flight is detached. -/
def Port.release (q : Port) (i : Fin 64) : Port :=
  { q.removeEntry i with
    exchange := q.exchange.map fun x => if x.slot == i then { x with detached := true } else x }

/-- R128: an exchange has ended: the record is cleared, the port becomes IDLE and sends its head frame. -/
def Port.endExchange (q : Port) : Port := ({ q with exchange := none, state := .idle } : Port).startIfReady

/-- R123, R129, R130: the receiver sees its line at a condition; while the port sends it sees nothing. A line that becomes
idle restarts the blocked timer, and an IDLE port then sends its head frame (R121); one that becomes active restarts
the idle timer. -/
def Port.lineSeen (q : Port) (line : LineCondition) : Port :=
  if q.sending then q
  else
    match line with
    | .idle => ({ q with line := .idle, blockedTimer := 0 } : Port).startIfReady
    | .active => { q with line := .active, idleTimer := 0 }

/-- R122: the last byte has gone out. -/
def Port.transmitEnd (q : Port) (line : LineCondition) : Port :=
  match q.exchange with
  | some x =>
    if x.phase = .sending then
      { q with exchange := some { x with phase := .window, elapsed := 0 }, blockedTimer := 0, line := line, wire := [] }
    else q
  | none => q

/-- R129: the blocked timer has reached 20 ms. The exchange it ends is dealt with by the caller. -/
def Port.block (q : Port) : Port :=
  { q with state := .blocked, exchange := none, line := .active, blockedTimer := Config.blockedMs, idleTimer := 0,
           blockedEntries := satAdd q.blockedEntries 1 }

/-- R130: the idle timer has reached 5 ms in BLOCKED. -/
def Port.unblock (q : Port) : Port :=
  ({ q with state := .idle, line := .idle, blockedTimer := 0, idleTimer := 0 } : Port).startIfReady

/-- A valid frame start has been seen: the blocked timer starts again (R129), and in BLOCKED the line has been
active, so the idle timer starts again (R130). The line is then as the receiver reports it (log entry 4). -/
def Port.frameSeen (q : Port) (line : LineCondition) : Port :=
  { q with blockedTimer := 0, idleTimer := 0, line := line }

/-- The time elapsed in an open window, as a report gives it, at most the window (log entry 4). -/
def Exchange.atElapsed (x : Exchange) (ms : Nat) : Exchange := { x with elapsed := min x.window (max x.elapsed ms) }

/-- R123, R124: a bad frame is counted, and in a window sets bad-check-seen; while the port sends it is not
received. An IDLE port whose line is idle after it sends its head frame (R121). -/
def Port.badFrame (q : Port) (ms : Nat) (line : LineCondition) : Port :=
  if q.sending then q
  else
    ({ q.frameSeen line with
      bad := satAdd q.bad 1
      exchange := q.exchange.map fun x => { x.atElapsed ms with badSeen := true } } : Port).startIfReady

/-- R124: a good STATUS taken with no window open is counted and discarded. An IDLE port whose line is idle after it
sends its head frame (R121). -/
def Port.outsideReply (q : Port) (line : LineCondition) : Port :=
  ({ q.frameSeen line with outside := satAdd q.outside 1 } : Port).startIfReady

/-- R133: a port on RESET line assertion keeps nothing; after RESTART COLD its line is judged afresh. -/
def Port.coldAt (line : LineCondition) : Port := { Port.cold with line := line }

/-- R134: a port on RESTART WARM keeps its window and its five counts. -/
def Port.warm (q : Port) (line : LineCondition) : Port :=
  { q with state := .idle, queue := [], exchange := none, line := line, blockedTimer := 0, idleTimer := 0,
           wire := [] }

/-- R131: the five counts set to 0. -/
def Port.clearCounts (q : Port) : Port :=
  { q with sent := 0, outside := 0, otherDrops := 0, bad := 0, blockedEntries := 0 }

end Sys2Proof.Machine
end

