-- ==== Sys2Proof/Machine/GroupOps.lean ====
section
/-! DEFINITION. The group coordinator: settlement, member events, the hold test and the transition limit
(sections 5.2, 5.4 and 5.5, R81 to R84, R88, R90, R91). -/

namespace Sys2Proof.Machine

/-- The slots of a group by the member view, in ascending slot order. -/
def State.membersOf (s : State) (g : Fin 16) : List (Fin 64) :=
  (List.finRange 64).filter fun i => (s.member i).any fun m => m.group == g

/-- R82: a member is settled. -/
def Group.settles (g : Group) (m : Member) : Bool :=
  g.target == 0 ||
    match m.state with
    | .coordinated => m.current == g.target
    | .overridden | .lost => g.policy == .leave
    | .transition | .joining | .unused => false

/-- R82: every member of a group is settled. -/
def State.allSettled (s : State) (i : Fin 16) : Bool :=
  (s.membersOf i).all fun k => (s.member k).any (s.group i).settles

/-- At least one member other than `besides` is OVERRIDDEN in the member view. -/
def State.someOverridden (s : State) (i : Fin 16) (besides : Option (Fin 64)) : Bool :=
  (s.membersOf i).any fun k => besides != some k && (s.member k).any fun m => m.state == .overridden

/-- R83: the settlement decision. -/
def State.decision (s : State) (i : Fin 16) : GroupState :=
  if s.allSettled i then .steady
  else if (s.group i).policy = .wait ∧ s.someOverridden i none then .held
  else if (s.group i).adopted then .transition
  else .pending

/-- R83: the decision is made and its state taken; entry to STEADY raises GROUP_STEADY. `change` says that the
decision follows a member event or SET GROUP, so that leaving STEADY begins a change of its own. -/
def State.settle (s : State) (i : Fin 16) (change : Bool) : State :=
  let s1 :=
    if change ∧ (s.group i).state = .steady ∧ s.decision i ≠ .steady then
      s.setGroup i { s.group i with elapsed := 0, reported := false, adopted := true }
    else s
  let d := s1.decision i
  let s2 := s1.setGroup i { s1.group i with state := d }
  if (s.group i).state ≠ .steady ∧ d = .steady then s2.raise .groupSteady else s2

/-- R47: a forced-immediate event sets the flag of an open transition, and else has no effect. -/
def State.forceImmediate (s : State) (i : Fin 64) : State :=
  s.setSlot i { s.slot i with trans := (s.slot i).trans.map fun t => { t with forced := true } }

/-- R91: forced-immediate events reach their slots, in order. -/
def State.forceAll (s : State) (is : List (Fin 64)) : State := is.foldl State.forceImmediate s

/-- R81: a member event. `group` is given by DEFINE SLOT's event; UNUSED is RELEASE SLOT's. -/
structure MemberEvent where
  slot : Fin 64
  state : SlotState
  current : Nat
  group : Option (Fin 16)
  deriving DecidableEq, Repr

/-- R84: the event reports the target newly current, so the change has begun at the members. -/
def State.adoptedBy (s : State) (g : Fin 16) (old : Member) (current : Nat) : State :=
  if current = (s.group g).target ∧ current ≠ old.current then
    s.setGroup g { s.group g with adopted := true }
  else s

/-- R81, R83, R84, R91: the group coordinator takes a member event. The event that DEFINE SLOT or RELEASE SLOT sends does not
set the adopted flag by itself, even where it reports current plan 0 in a group whose target plan is 0: DESIGN CHOICE (log
entry 25). A forced-immediate event that the member event brings on is judged after the settlement decision (log entry 15). -/
def State.takeMember (s : State) (e : MemberEvent) : State :=
  match e.group, s.member e.slot with
  | some g, _ => (s.setMember e.slot (some ⟨g, e.state, e.current⟩)).settle g true
  | none, none => s
  | none, some old =>
    if e.state = .unused then (s.setMember e.slot none).settle old.group true
    else
      let s1 := (s.adoptedBy old.group old e.current).setMember e.slot (some ⟨old.group, e.state, e.current⟩)
      let s2 := s1.settle old.group true
      if (s2.group old.group).reported ∧ e.state = .transition then s2.forceImmediate e.slot else s2

/-- Member events taken in order. -/
def State.takeMembers (s : State) (es : List MemberEvent) : State := es.foldl State.takeMember s

/-- R88: the hold test: the group is HELD and a member other than the asking slot is OVERRIDDEN. -/
def State.holds? (s : State) (i : Fin 64) : Bool :=
  (s.group (s.slot i).group).state == .held && s.someOverridden (s.slot i).group (some i)

/-- R91: the members that the member view shows in TRANSITION, in ascending slot order. -/
def State.inTransition (s : State) (g : Fin 16) : List (Fin 64) :=
  (s.membersOf g).filter fun i => (s.member i).any fun m => m.state == .transition

/-- A state, and the slots to which the group coordinator sends a forced-immediate event from it (R91). -/
abbrev Forcing := State × List (Fin 64)

/-- The forced-immediate events arrive at their slots (R47). -/
def Forcing.arrive (a : Forcing) : State := a.1.forceAll a.2

/-- R90: the group has reached its limit. -/
def Group.atLimit (g : Group) : Bool := decide (g.limit ≤ g.elapsed) && !g.reported

/-- R91, where R90 finds the limit reached: the group is reported, and its members in TRANSITION are sent a forced-immediate
event. -/
def State.checkLimit (s : State) (g : Fin 16) : Forcing :=
  if (s.group g).atLimit then ((s.setGroup g { s.group g with reported := true }).raise .groupLimit, s.inTransition g)
  else (s, [])

/-- R90: a minute event at one group. -/
def State.groupMinute (s : State) (g : Fin 16) : Forcing :=
  let r := s.group g
  let s1 := if r.state = .steady then s else s.setGroup g { r with elapsed := min 255 (r.elapsed + 1) }
  s1.checkLimit g

end Sys2Proof.Machine
end

