-- ==== Sys2Proof/Machine/SlotOps.lean ====
section
/-! DEFINITION. The slot engine between boundaries: records, override causes, positioning, targets, exchange outcomes
(sections 2.7 to 2.9 and chapter 8). Each operation gives the state and the member events it sends (R81). -/

namespace Sys2Proof.Machine

/-- A state with the member events sent on the way to it, in order. -/
abbrev Sent := State × List MemberEvent

/-- One operation after another, their member events in order. -/
def Sent.andThen (a : Sent) (f : State → Sent) : Sent :=
  let b := f a.1
  (b.1, a.2 ++ b.2)

/-- The group coordinator takes the member events that were sent (R81). -/
def Sent.deliver (a : Sent) : State := a.1.takeMembers a.2

/-- A member event of a slot that stays in its group. -/
def memberEvent (i : Fin 64) (state : SlotState) (current : Nat) : MemberEvent := ⟨i, state, current, none⟩

/-- An operation at each of some slots in turn. -/
def overSlots (is : List (Fin 64)) (f : State → Fin 64 → Sent) (s : State) : Sent :=
  is.foldl (fun a i => a.andThen fun s => f s i) (s, [])

/-! ### Records (R165, Table 10-2) -/

/-- R165: the record of an open transition, from the slot context and the transition as they stand. The record
unit fills the end stamp. -/
def Slot.endRecord (x : Slot) (i : Fin 64) (t : Transition) (o : RecordOutcome) : TransitionRecord :=
  { slot := i, intersection := x.intersection, fromPlan := t.fromPlan, toPlan := x.current, cause := t.cause,
    start := t.start, stop := t.start, used := t.used, dir := some t.dir, total := t.total, outcome := o,
    forced := t.forced, lateSeen := t.lateSeen, missSeen := t.missSeen }

/-- R24, R31: a record of no cycles: outcome COMPLETED, direction NONE, no flags. -/
def Slot.zeroRecord (x : Slot) (i : Fin 64) (cause : Cause) (fromPlan : Nat) (now : Stamp) : TransitionRecord :=
  { slot := i, intersection := x.intersection, fromPlan := fromPlan, toPlan := x.current, cause := cause, start := now,
    stop := now, used := 0, dir := none, total := 0, outcome := .completed, forced := false, lateSeen := false,
    missSeen := false }

/-- An open transition, if there is one, ends with a record of the given outcome. -/
def State.endTransition (s : State) (i : Fin 64) (o : RecordOutcome) : State :=
  match (s.slot i).trans with
  | none => s
  | some t =>
    let s1 := s.takeRecord ((s.slot i).endRecord i t o)
    s1.setSlot i { s1.slot i with trans := none }

/-! ### Override causes (sections 8.2 to 8.4) -/

/-- R141: entry to OVERRIDDEN. -/
def State.enterOverridden (s : State) (i : Fin 64) : Sent :=
  let s1 := s.endTransition i .overridden
  let x := s1.slot i
  let s2 := s1.setPort x.port ((s1.port x.port).removeEntry i)
  let s3 := s2.setSlot i
    { x with pendingEval := none, state := .overridden, latch := x.latch || x.mode == .latched }
  (s3.raise .overrideEnter, [memberEvent i .overridden x.current])

/-- R136, R141, R143: a cause joins a slot's set. -/
def State.joinCause (s : State) (i : Fin 64) (c : OverrideCause) : Sent :=
  let x := s.slot i
  if x.state = .unused ∨ causeIn x.causes c then (s, [])
  else
    let s1 := s.setSlot i
      { x with causes := causeJoin x.causes c, latch := x.latch || (x.state == .overridden && x.mode == .latched) }
    if x.state = .overridden ∨ (x.state = .joining ∧ !x.running) then (s1, []) else s1.enterOverridden i

/-- R136, R139: a cause leaves a slot's set. -/
def State.leaveCause (s : State) (i : Fin 64) (c : OverrideCause) : State :=
  s.setSlot i { s.slot i with causes := causeLeave (s.slot i).causes c }

/-- R138: an activation edge: the cause joins each mapped slot that is not UNUSED, in ascending order. -/
def State.activationEdge (s : State) (l : Fin 4) : Sent :=
  overSlots ((List.finRange 64).filter (slotIn (s.hold l).map)) (fun s i => s.joinCause i (.hold l))
    (s.setHold l { s.hold l with level := .active })

/-- R139: a release edge: the cause leaves every slot that holds it. -/
def State.releaseEdge (s : State) (l : Fin 4) : State :=
  (List.finRange 64).foldl (fun s i => s.leaveCause i (.hold l)) (s.setHold l { s.hold l with level := .inactive })

/-- R148, R149: a hold line is sampled: its level is taken at once, and ACTIVE counts as an activation edge. -/
def State.sampleHold (s : State) (pins : PinSample) (l : Fin 4) : Sent :=
  match pins.holds.get l with
  | .active => s.activationEdge l
  | .inactive => (s.setHold l { s.hold l with level := .inactive }, [])

/-- R148, R149: the four hold lines are sampled. -/
def State.sampleHolds (s : State) (pins : PinSample) : State :=
  (List.finRange 4).foldl (fun s l => (s.sampleHold pins l).deliver) s

/-! ### Positioning and targets (R29, R30) -/

/-- R30: a positioning attempt. A slot that holds a cause then enters OVERRIDDEN (R141). -/
def State.positionAttempt (s : State) (i : Fin 64) : Sent :=
  let x := s.slot i
  if x.state = .joining ∧ !x.running ∧ s.time.isSet ∧ x.target ≠ 0 then
    match s.readRecord i x.target with
    | (s1, .sound pl) =>
      let s2 := s1.setSlot i
        { x with copy := some pl, current := x.target, run := some (planRun pl (planError s.time.ref 0 pl)),
                 count := 0, firstCycle := true }
      let a : Sent := (s2, [memberEvent i .joining x.target])
      if x.causes = 0#5 then a else a.andThen fun s => s.enterOverridden i
    | (s1, _) => (s1, [])
  else (s, [])

/-- R29: a target event. -/
def State.targetEvent (s : State) (i : Fin 64) (plan : Nat) (cause : Option Layer) (mode : Option Mode) : Sent :=
  let x := s.slot i
  if x.state = .unused then (s, [])
  else
    (s.setSlot i
      { x with target := plan, targetCause := cause, targetMode := mode,
               failReported := x.failReported && plan == x.target }).positionAttempt i

/-! ### Exchange outcomes (R31 to R33, R140) -/

/-- Kinds of miss (R32). -/
inductive MissKind where
  | timeout
  | address
  | content
  | lateSync
  deriving DecidableEq, Repr

/-- R32: a miss counts in the count of its kind. -/
def Slot.countMiss (x : Slot) : MissKind → Slot
  | .timeout => { x with timeouts := satAdd x.timeouts 1 }
  | .address => { x with addressMisses := satAdd x.addressMisses 1 }
  | .content => { x with contentMisses := satAdd x.contentMisses 1 }
  | .lateSync => { x with lateSyncs := satAdd x.lateSyncs 1 }

/-- R33: entry to LOST. -/
def State.enterLost (s : State) (i : Fin 64) : Sent :=
  let s1 := s.endTransition i .lost
  let x := s1.slot i
  ((s1.setSlot i { x with state := .lost }).raise .slotLost, [memberEvent i .lost x.current])

/-- R28, R32: a miss at a slot. In COORDINATED and TRANSITION it adds to the miss run, and the third makes the slot
LOST; in TRANSITION it sets miss-seen, and a late sync sets late-sync-seen too. -/
def State.miss (s : State) (i : Fin 64) (k : MissKind) : Sent :=
  let x := (s.slot i).countMiss k
  if x.state = .coordinated ∨ x.state = .transition then
    let run := min Config.runOfThree (x.missRun + 1)
    let x1 :=
      { x with missRun := run,
               trans := x.trans.map fun t => { t with missSeen := true, lateSeen := t.lateSeen || k == .lateSync } }
    let s1 := s.setSlot i x1
    if run = Config.runOfThree then s1.enterLost i else (s1, [])
  else (s.setSlot i x, [])

/-- R31 to R33: a good outcome: a positioned JOINING slot joins, a LOST slot rejoins. -/
def State.goodOutcome (s : State) (i : Fin 64) : Sent :=
  let x := { s.slot i with missRun := 0 }
  match x.state with
  | .joining =>
    let s1 := s.setSlot i { x with state := .coordinated, joined := true }
    (s1.takeRecord (x.zeroRecord i .join 0 s.time.stamp), [memberEvent i .coordinated x.current])
  | .lost =>
    let s1 := s.setSlot i { x with state := .coordinated, pendingEval := some .resync }
    (s1.raise .slotRejoined, [memberEvent i .coordinated x.current])
  | _ => (s.setSlot i x, [])

/-- R140: the override state that a controller reports. -/
def State.takeOverride (s : State) (i : Fin 64) (o : FieldOverride) : Sent :=
  let s1 := s.setSlot i { s.slot i with lastOverride := o }
  match o with
  | .none => (s1.leaveCause i .field, [])
  | _ => s1.joinCause i .field

/-- R32, R128: a slot takes an exchange's outcome, then the reported override state. An UNUSED slot, and a JOINING
slot without a position, discard both. -/
def State.takeOutcome (s : State) (i : Fin 64) (o : ExchangeOutcome) (reported : FieldOverride) : Sent :=
  let x := s.slot i
  if x.state = .unused ∨ (x.state = .joining ∧ !x.running) then (s, [])
  else
    match o with
    | .good => (s.goodOutcome i).andThen fun s => s.takeOverride i reported
    | .timeout => s.miss i .timeout
    | .addressMismatch => s.miss i .address
    | .contentMismatch => (s.miss i .content).andThen fun s => s.takeOverride i reported

/-- R125, R126: the check of a STATUS that ends an exchange, against the frame as sent, or for a POLL against the
slot as it stands. -/
def State.checkStatus (s : State) (x : Exchange) (f : StatusFields) : ExchangeOutcome :=
  let sl := s.slot x.slot
  if f.intersection ≠ x.intersection then .addressMismatch
  else if x.isSync then if f.plan = x.plan ∧ f.count = x.count then .good else .contentMismatch
  else if sl.state = .overridden then .good
  else if f.plan = sl.current ∧ f.count = sl.count then .good
  else .contentMismatch

/-- R128: an exchange's outcome reported to its slot, unless it is detached. -/
def State.reportOutcome (s : State) (x : Exchange) (o : ExchangeOutcome) (reported : FieldOverride) : State :=
  if x.detached then s else (s.takeOutcome x.slot o reported).deliver

end Sys2Proof.Machine
end

