-- ==== Sys2Proof/Machine/Boundary.lean ====
section
/-! DEFINITION. The boundary of a slot's cycle: its seven steps (R19 to R28, R34, R144). -/

namespace Sys2Proof.Machine

/-- An adoption at step 3: its cause and from-plan (R21, R22); also the cause and from-plan of any evaluation. -/
structure EvalCause where
  cause : Cause
  fromPlan : Nat
  deriving DecidableEq, Repr

/-- R144: the exit conditions of an OVERRIDDEN slot. -/
def Slot.mayExit (x : Slot) : Bool := x.causes == 0#5 && (x.mode == .perCycle || !x.latch)

/-- Step 2 (R34, R144): override exit. -/
def State.exitStep (s : State) (i : Fin 64) : State :=
  let x := s.slot i
  if x.state = .overridden ∧ x.mayExit then
    let x1 := if x.joined then { x with state := .coordinated, pendingEval := some .recovery } else { x with state := .joining }
    (s.setSlot i x1).raise .overrideExit
  else s

/-- R21: the slot adopts at a boundary in these states. -/
def Slot.adopts (x : Slot) : Bool :=
  x.state == .coordinated || x.state == .transition || x.state == .lost || x.state == .joining

/-- R21: a failed adoption is reported once for the present target. -/
def State.adoptionFailed (s : State) (i : Fin 64) (k : Notice) : State :=
  if (s.slot i).failReported then s else (s.setSlot i { s.slot i with failReported := true }).raise k

/-- R21: the slot adopts its target plan. -/
def State.adoptTarget (s : State) (i : Fin 64) : State × Option EvalCause :=
  let x := s.slot i
  if x.adopts ∧ x.target ≠ 0 ∧ x.target ≠ x.current ∧ !s.holds? i then
    match s.readRecord i x.target with
    | (s1, .sound pl) =>
      (s1.setSlot i { x with copy := some pl, current := x.target, firstCycle := true, failReported := false },
        some ⟨(x.targetCause.getD .default).cause, x.current⟩)
    | (s1, .missing) => (s1.adoptionFailed i .planMissing, none)
    | (s1, .faulted) => (s1.adoptionFailed i .planFault, none)
  else (s, none)

/-- R22, R69, R76: the shadow of the plan that was current before step 3: promoted without adoption when a target was
adopted, and else adopted itself. In OVERRIDDEN it waits. A failed adoption of it is reported at this boundary; that the
report neither reads nor sets the failure reported flag, which stands for the present target (Table 2-1), is a DESIGN
CHOICE (log entry 16). -/
def State.shadowStep (s : State) (i : Fin 64) (before : Nat) (adopted : Option EvalCause) : State × Option EvalCause :=
  if (s.slot i).state ≠ .overridden ∧ (s.store.shadowOf i before).isSome then
    let s1 := s.setStore (s.store.promote i before)
    match adopted with
    | some a => (s1, some a)
    | none =>
      match s1.readRecord i before with
      | (s2, .sound pl) =>
        (s2.setSlot i { s2.slot i with copy := some pl, firstCycle := true }, some ⟨.shadow, before⟩)
      | (s2, .missing) => (s2.raise .planMissing, none)
      | (s2, .faulted) => (s2.raise .planFault, none)
  else (s, adopted)

/-- Step 3 (R21, R22). -/
def State.adoptionStep (s : State) (i : Fin 64) : State × Option EvalCause :=
  let a := s.adoptTarget i
  a.1.shadowStep i (s.slot i).current a.2

/-- R52: the next cycle is a plan cycle. -/
def State.planCycle (s : State) (i : Fin 64) : State :=
  let x := s.slot i
  match x.copy, x.run with
  | some pl, some r => s.setSlot i { x with run := some (planRun pl r.p) }
  | _, _ => s

/-- R49, R50: the open transition `t` runs a cycle in direction `d`, and the slot is in TRANSITION. -/
def State.transitionCycle (s : State) (i : Fin 64) (pl : Plan) (p e : Nat) (t : Transition) (d : Direction) : State :=
  s.setSlot i
    { s.slot i with state := .transition, trans := some (t.withCycle d (cycleAmount pl e d).2),
                    run := some (correctedRun pl p e d) }

/-- The group's tolerance as a slot's evaluation reads it (R41). -/
def State.tolOf (s : State) (i : Fin 64) : Nat := (s.group (s.slot i).group).tol

/-- R24: an evaluation in COORDINATED with a cause. In step, a record is written for every cause but STEP; out of
step, a transition opens. -/
def State.evaluateCause (s : State) (i : Fin 64) (c : EvalCause) : State :=
  let x := s.slot i
  match x.copy, x.run with
  | some pl, some r =>
    let e := planError s.time.ref r.p pl
    if inStep pl (s.tolOf i) e then
      (if c.cause = .step then s else s.takeRecord (x.zeroRecord i c.cause c.fromPlan s.time.stamp)).planCycle i
    else
      let t : Transition :=
        { dir := .immediate, cause := c.cause, fromPlan := c.fromPlan, start := s.time.stamp, used := 0, total := 0,
          forced := false, lateSeen := false, missSeen := false }
      s.transitionCycle i pl r.p e t (chooseDirection pl e false x.targetMode)
  | _, _ => s

/-- R24: the evaluation cause in COORDINATED: the adoption's, else the pending evaluation's, else STEP. -/
def Slot.evalCause (x : Slot) (adopted : Option EvalCause) (stepped : Bool) : Option EvalCause :=
  match adopted, x.pendingEval with
  | some a, _ => some a
  | none, some q => some ⟨q.cause, x.current⟩
  | none, none => if stepped then some ⟨.step, x.current⟩ else none

/-- Step 5 in COORDINATED (R24). -/
def State.evaluateCoordinated (s : State) (i : Fin 64) (adopted : Option EvalCause) (stepped : Bool) : State :=
  let x := s.slot i
  let s1 := s.setSlot i { x with pendingEval := none }
  match x.evalCause adopted stepped with
  | none => s1.planCycle i
  | some c => s1.evaluateCause i c

/-- R43: the direction in force at a boundary of an open transition. -/
def Transition.nextDirection (t : Transition) (pl : Plan) (e : Nat) (mode : Option Mode) (stepped : Bool) : Direction :=
  if stepped ∨ (t.forced ∧ t.dir ≠ .immediate) then chooseDirection pl e t.forced mode else t.dir

/-- Step 5 in TRANSITION (R25). -/
def State.evaluateTransition (s : State) (i : Fin 64) (adopted : Option EvalCause) (stepped : Bool) : State :=
  match adopted with
  | some a =>
    let s1 := s.endTransition i .superseded
    (s1.setSlot i { s1.slot i with state := .coordinated }).evaluateCoordinated i (some a) stepped
  | none =>
    let x := s.slot i
    match x.copy, x.run, x.trans with
    | some pl, some r, some t =>
      let e := planError s.time.ref r.p pl
      if inStep pl (s.tolOf i) e then
        let s1 := s.endTransition i .completed
        (s1.setSlot i { s1.slot i with state := .coordinated }).planCycle i
      else s.transitionCycle i pl r.p e t (t.nextDirection pl e x.targetMode stepped)
    | _, _, _ => s

/-- Step 5 in JOINING (R26, R58): an out-of-step slot runs one correction cycle. -/
def State.evaluateJoining (s : State) (i : Fin 64) (adopted : Option EvalCause) (stepped : Bool) : State :=
  let x := s.slot i
  match x.copy, x.run with
  | some pl, some r =>
    let e := planError s.time.ref r.p pl
    if (adopted.isSome || stepped) && !inStep pl (s.tolOf i) e then
      s.setSlot i { x with run := some (correctedRun pl r.p e .immediate) }
    else s.planCycle i
  | _, _ => s

/-- Step 5 (R24 to R26). -/
def State.evaluationStep (s : State) (i : Fin 64) (adopted : Option EvalCause) (stepped : Bool) : State :=
  match (s.slot i).state with
  | .coordinated => s.evaluateCoordinated i adopted stepped
  | .transition => s.evaluateTransition i adopted stepped
  | .joining => s.evaluateJoining i adopted stepped
  | .lost => (s.setSlot i { s.slot i with pendingEval := none }).planCycle i
  | .overridden => s.planCycle i
  | .unused => s

/-- The SYNC that a slot sends (R27). -/
def Slot.sync (x : Slot) (first transition resync : Bool) : FieldFrame :=
  .sync x.drop x.intersection x.current x.count ((x.run.map CycleRun.len).getD 0) first transition resync
    ((x.copy.map Plan.coord).getD 0) (forceOffPoints ((x.run.map CycleRun.splits).getD []))

/-- Step 6 (R27): the frame for the new cycle. -/
def Slot.decideFrame (x : Slot) : Option FieldFrame :=
  match x.state with
  | .joining => some (x.sync true false false)
  | .transition => some (x.sync false true false)
  | .lost => some (x.sync false false true)
  | .overridden => some (.poll x.drop x.intersection x.count)
  | .coordinated => if x.count % x.divider = 0 ∨ x.firstCycle then some (x.sync false false false) else none
  | .unused => none

/-- Step 7 (R28, R119): the frame is handed over; a previous frame still queued or in flight is a late sync. -/
def State.handOverStep (s : State) (i : Fin 64) : Sent :=
  let x := s.slot i
  let r := (s.port x.port).handOver i x.decideFrame
  let s1 := s.setPort x.port r.1
  if r.2 = .gone then (s1, []) else s1.miss i .lateSync

/-- Step 1 (R20): the cycle count moves on, the first-cycle flag is cleared, and `p` is the position. -/
def Slot.beginCycle (x : Slot) (p : Nat) : Slot :=
  { x with count := (x.count + 1) % 256, firstCycle := false, run := x.run.map fun r => { r with p := p } }

/-- Step 4 (R20, R23): the step flag is read and cleared, and the evaluation of step 5 is made. -/
def State.stepAndEvaluate (s : State) (i : Fin 64) (adopted : Option EvalCause) : State :=
  (s.setSlot i { s.slot i with stepFlag := false }).evaluationStep i adopted (s.slot i).stepFlag

/-- Steps 1 to 5 of a boundary (R20). -/
def State.boundarySteps (s : State) (i : Fin 64) (p : Nat) : State :=
  let a := ((s.setSlot i ((s.slot i).beginCycle p)).exitStep i).adoptionStep i
  a.1.stepAndEvaluate i a.2

/-- R18, R81: the member event of a slot whose state or current plan has changed. -/
def changeEvents (i : Fin 64) (before after : Slot) : List MemberEvent :=
  if after.state ≠ before.state ∨ after.current ≠ before.current then [memberEvent i after.state after.current] else []

/-- R20: a boundary, with `p` the position after it. -/
def State.boundary (s : State) (i : Fin 64) (p : Nat) : Sent :=
  let s5 := s.boundarySteps i p
  Sent.andThen (s5, changeEvents i (s.slot i) (s5.slot i)) fun s => s.handOverStep i

/-- R19: an advance event at one running slot. -/
def State.advanceSlot (s : State) (i : Fin 64) (k : Nat) : Sent :=
  match (s.slot i).run with
  | none => (s, [])
  | some r =>
    if r.p + k < r.len then (s.setSlot i { s.slot i with run := some { r with p := r.p + k } }, [])
    else s.boundary i (r.p + k - r.len)

end Sys2Proof.Machine
end

