-- ==== Sys2Proof/Machine/TimetableOps.lean ====
section
/-! DEFINITION. Selections and target events (section 5.3), and the timetable engine's layers, removals and evaluations
(chapter 6). -/

namespace Sys2Proof.Machine

/-! ### Selections (R85) -/

/-- A selection result: plan, layer, and the mode of the selecting entry (section 5.3). -/
structure Selection where
  plan : Nat
  layer : Layer
  mode : Option Mode
  deriving DecidableEq, Repr

/-- R85: the group record that takes a selection result. -/
def Group.select (g : Group) (r : Selection) : Group :=
  let g1 := { g with layer := some r.layer, targetMode := some (r.mode.getD g.defaultMode) }
  if r.plan = g.target then g1
  else { g1 with target := r.plan, elapsed := 0, adopted := false, reported := false }

/-- R85: the group coordinator takes a selection result, sends a target event to every member in ascending order,
and makes the settlement decision. The members' own events are taken after it (R81). -/
def State.takeSelection (s : State) (g : Fin 16) (r : Selection) : State :=
  let q := (s.group g).select r
  let s1 := s.setGroup g q
  let a := overSlots (s1.membersOf g) (fun s i => s.targetEvent i q.target q.layer q.targetMode) s1
  (a.1.settle g false).takeMembers a.2

/-! ### Days (R96) -/

/-- R96: the day type of a day number. -/
def Timetable.dayType (t : Timetable) (day : Nat) : Nat :=
  match t.calendar.find? fun e => e.day == day with
  | some e => e.dayType
  | none => day % 7

/-- R96: the day before, day 65,535 before day 0. -/
def yesterday (day : Nat) : Nat := (day + (Config.dayCount - 1)) % Config.dayCount

/-! ### Layers (R99, R101, R110, R111) -/

/-- R110: the evaluation instant. -/
def instantOf (day minute : Nat) : Nat := day * Config.dayDs + minute * Config.minuteDs

/-- The base entry of a list with the latest start; the first of them on equal starts. -/
def latestStart (es : List BaseEntry) : Option BaseEntry :=
  es.foldl (fun best e =>
    match best with
    | none => some e
    | some b => if b.start < e.start then some e else some b) none

/-- The group's base entries whose mask includes a day type. -/
def Timetable.baseOn (t : Timetable) (g : Fin 16) (dayType : Nat) : List BaseEntry :=
  t.base.filter fun e => e.group == g && e.mask.getLsbD dayType

/-- R99: the base layer. -/
def Timetable.baseLayer (t : Timetable) (g : Fin 16) (day minute : Nat) : Option BaseEntry :=
  match latestStart ((t.baseOn g (t.dayType day)).filter fun e => decide (e.start ≤ minute)) with
  | some e => some e
  | none => latestStart (t.baseOn g (t.dayType (yesterday day)))

/-- A (day, minute) pair is at or before another: the day first, then the minute. -/
def pairLe (d m d' m' : Nat) : Bool := decide (d < d') || (d == d' && decide (m ≤ m'))

/-- R101: an event entry is active. -/
def EventEntry.activeAt (e : EventEntry) (day minute : Nat) : Bool :=
  pairLe e.startDay e.startMinute day minute && !pairLe e.endDay e.endMinute day minute

/-- R101: entry `e` is preferred to `b`: higher priority, then later start, then lower id. -/
def EventEntry.beats (e b : EventEntry) : Bool :=
  decide (b.priority < e.priority) ||
    (b.priority == e.priority &&
      (!pairLe e.startDay e.startMinute b.startDay b.startMinute ||
        (e.startDay == b.startDay && e.startMinute == b.startMinute && decide (e.id < b.id))))

/-- R101: the event layer. -/
def Timetable.eventLayer (t : Timetable) (g : Fin 16) (day minute : Nat) : Option EventEntry :=
  (t.events.filter fun e => e.group == g && e.activeAt day minute).foldl (fun best e =>
    match best with
    | none => some e
    | some b => if e.beats b then some e else some b) none

/-- R110: a direct selection is until ended or in force. -/
def DirectSelection.inForce (d : DirectSelection) (instant : Nat) : Bool :=
  match d.endR with
  | none => true
  | some r => decide (instant < r)

/-- R110: an active cue is in force. -/
def ActiveCue.inForce (c : ActiveCue) (instant : Nat) : Bool := decide (instant < c.endR)

/-- R111: the first layer that selects a plan: DIRECT, CUE, EVENT, BASE, DEFAULT. -/
def Timetable.select (t : Timetable) (g : Fin 16) (defaultPlan day minute : Nat) : Selection :=
  let instant := instantOf day minute
  match (t.direct.get g).filter (·.inForce instant) with
  | some d => ⟨d.plan, .direct, none⟩
  | none =>
    match (t.active.get g).filter (·.inForce instant) with
    | some c => ⟨c.plan, .cue, none⟩
    | none =>
      match t.eventLayer g day minute with
      | some e => ⟨e.plan, .event, e.mode⟩
      | none =>
        match t.baseLayer g day minute with
        | some e => ⟨e.plan, .base, e.mode⟩
        | none => ⟨defaultPlan, .default, none⟩

/-! ### Evaluations (R112, R113) -/

/-- R111: one group is evaluated at a minute of a day, and its result is handed on. -/
def State.evaluateGroup (s : State) (g : Fin 16) (day minute : Nat) : State :=
  s.takeSelection g (s.tables.select g (s.group g).defaultPlan day minute)

/-- Groups evaluated in order at a minute of a day (R112). -/
def State.evaluateGroups (s : State) (gs : List (Fin 16)) (day minute : Nat) : State :=
  gs.foldl (fun s g => s.evaluateGroup g day minute) s

/-- R110, R112, R113: groups evaluated for a cause other than a minute or day event: at the present minute, and only
while time is set. -/
def State.evaluateNow (s : State) (gs : List (Fin 16)) : State :=
  if s.time.isSet then s.evaluateGroups gs s.time.day s.time.minute else s

/-- A group's active cue replaced. -/
def Timetable.setActive (t : Timetable) (g : Fin 16) (c : Option ActiveCue) : Timetable :=
  { t with active := t.active.set g.val c g.isLt }

/-- A group's direct selection replaced. -/
def Timetable.setDirect (t : Timetable) (g : Fin 16) (d : Option DirectSelection) : Timetable :=
  { t with direct := t.direct.set g.val d g.isLt }

/-- R102: event entries whose end is at or before a pair are removed. -/
def Timetable.dropEnded (t : Timetable) (day minute : Nat) : Timetable :=
  { t with events := t.events.filter fun e => !pairLe e.endDay e.endMinute day minute }

/-- An active cue of a group is removed unless it is kept. -/
def Timetable.keepCue (t : Timetable) (keep : ActiveCue → Bool) (g : Fin 16) : Timetable :=
  t.setActive g ((t.active.get g).filter keep)

/-- A direct selection of a group is removed unless it is kept. -/
def Timetable.keepDirect (t : Timetable) (keep : DirectSelection → Bool) (g : Fin 16) : Timetable :=
  t.setDirect g ((t.direct.get g).filter keep)

/-- R102, R107, R109: what a minute event or day event removes before it evaluates. -/
def Timetable.expire (t : Timetable) (day minute : Nat) : Timetable :=
  let instant := instantOf day minute
  (List.finRange 16).foldl (fun t g => (t.keepCue (·.inForce instant) g).keepDirect (·.inForce instant) g)
    (t.dropEnded day minute)

/-- R112: the minute event or day event at the timetable engine. -/
def State.timetableMinute (s : State) (day minute : Nat) : State :=
  if s.time.isSet then
    (s.setTables (s.tables.expire day minute)).evaluateGroups (List.finRange 16) day minute
  else s

/-- R112: an active cue is kept at a step when its end is not too far ahead. -/
def ActiveCue.keptAtStep (ref : Nat) (c : ActiveCue) : Bool := decide (c.endR ≤ ref + Config.cueHorizon)

/-- R112: a direct selection is kept at a step when it is until ended or its end is not too far ahead. -/
def DirectSelection.keptAtStep (ref : Nat) (d : DirectSelection) : Bool :=
  match d.endR with
  | none => true
  | some r => decide (r ≤ ref + Config.directHorizon)

/-- R112: what a step event removes. -/
def Timetable.stepExpire (t : Timetable) (ref : Nat) : Timetable :=
  (List.finRange 16).foldl
    (fun t g => (t.keepCue (ActiveCue.keptAtStep ref) g).keepDirect (DirectSelection.keptAtStep ref) g) t

/-- R112: the step event at the timetable engine. -/
def State.timetableStep (s : State) : State :=
  if s.time.isSet then (s.setTables (s.tables.stepExpire s.time.ref)).evaluateNow (List.finRange 16) else s

/-- The slots that are running. -/
def State.runningSlots (s : State) : List (Fin 64) := (List.finRange 64).filter fun i => (s.slot i).running

/-- R23: the step event sets the step flag of the given slots. -/
def State.setStepFlags (s : State) (is : List (Fin 64)) : State :=
  is.foldl (fun s i => s.setSlot i { s.slot i with stepFlag := true }) s

/-- R6: a step event while time is set, at the slot engine and then at the timetable engine. A slot that the
evaluation positions has not taken the flag (R23). -/
def State.stepEvent (s : State) : State := (s.setStepFlags s.runningSlots).timetableStep

end Sys2Proof.Machine
end

