-- ==== Sys2Proof/Machine/TimeOps.lean ====
section
/-! DEFINITION. The time base: ticks, advances, marks and steps (chapter 1). -/

namespace Sys2Proof.Machine

/-! ### Ticks (R2, R3, R11) -/

/-- R2: this tick is a second tick: the tick phase passes from 9 to 0. -/
def TimeBase.secondTick (t : TimeBase) : Bool := decide (Config.ticksPerSecond ≤ t.phase + 1)

/-- R2: the amount of the advance. -/
def TimeBase.amount (t : TimeBase) : Nat :=
  if t.secondTick then (if 0 < t.slew then 2 else if t.slew < 0 then 0 else 1) else 1

/-- R2: the pending slew after a second tick, one toward 0. -/
def slewToward (x : Int) : Int := if 0 < x then x - 1 else if x < 0 then x + 1 else 0

/-- R3: NT moved on by k; a sum of a whole day or more rolls over. -/
def TimeBase.advance (t : TimeBase) (k : Nat) : TimeBase :=
  if t.nt + k < Config.dayDs then { t with nt := t.nt + k }
  else { t with nt := t.nt + k - Config.dayDs, day := (t.day + 1) % Config.dayCount }

/-- R3: an advance by k is a day rollover. -/
def TimeBase.rollsOver (t : TimeBase) (k : Nat) : Bool := decide (Config.dayDs ≤ t.nt + k)

/-- R5: a rollover from day 65,535. -/
def TimeBase.wraps (t : TimeBase) (k : Nat) : Bool := t.rollsOver k && decide (Config.dayCount ≤ t.day + 1)

/-- R2, R3, R11: the time base after one tick: the tick phase, the slew and mark age of a second tick, the advance. -/
def TimeBase.tick (t : TimeBase) : TimeBase :=
  let t1 :=
    if t.secondTick then { t with phase := 0, slew := slewToward t.slew, age := min Config.ageLimit (t.age + 1) }
    else { t with phase := t.phase + 1 }
  t1.advance t.amount

/-- R11: LOCKED at mark age 60. -/
def TimeBase.holdoverDue (t : TimeBase) : Bool := t.disc == .locked && decide (Config.ageLimit ≤ t.age)

/-- R11: entry to HOLDOVER, where it is due. -/
def State.enterHoldover (s : State) : State :=
  if s.time.holdoverDue then
    (s.setTime { s.time with disc := .holdover, slew := 0, outliers := 0 }).raise .timeHoldover
  else s

/-! ### The events of a tick (Table 1-2) -/

/-- R4: an advance raises a minute event. -/
def minuteRaised (before after : TimeBase) : Bool := before.minute != after.minute

/-- The events that a tick raises at the other blocks, in the order in which they are taken when the command names
no other (log entry 3): each running slot, the scrubber, the step event of a day wrap at the slot engine, each
group's minute event, the timetable engine. At midnight the timetable engine takes the day event or the
step event in place of the minute event (R5); in UNSET the wrap raises neither. -/
def State.tickEvents (s : State) (before : TimeBase) : List TickEvent :=
  let minute := minuteRaised before s.time
  let wrap := before.wraps before.amount
  s.runningSlots.map .slot ++ [.scrub] ++ (if wrap && s.time.isSet then [.stepFlags] else []) ++
    (if minute then (List.finRange 16).map .groupMinute else []) ++ (if minute then [.timetable] else [])

/-- Pending events taken in a given order, with what the order names beside the raised events; those that the order does not
name are taken after the named ones. -/
def schedule : List TickEvent → List TickEvent → List TickEvent
  | [], pending => pending
  | e :: order, pending =>
    if !e.raised then e :: schedule order pending
    else if e ∈ pending then e :: schedule order (pending.erase e) else schedule order pending

/-- What the events of an advance have sent to the other blocks: member events (R81), and the slots with a forced-immediate
event (R91). -/
structure OnWay where
  members : List MemberEvent
  forced : List (Fin 64)
  deriving DecidableEq, Repr

/-- Nothing is on its way. -/
def OnWay.none : OnWay := ⟨[], []⟩

/-- What was on its way, and what an event sends now. -/
def OnWay.and (w v : OnWay) : OnWay := ⟨w.members ++ v.members, w.forced ++ v.forced⟩

/-- What arrives only where the events to come name its arrival. -/
def OnWay.later (w : OnWay) (es : List TickEvent) : OnWay :=
  ⟨w.members.filter fun e => decide (.memberArrives e.slot ∈ es), w.forced.filter fun i => decide (.forcedArrives i ∈ es)⟩

/-- What arrives now, since no event to come names its arrival. -/
def OnWay.now (w : OnWay) (es : List TickEvent) : OnWay :=
  ⟨w.members.filter fun e => decide (.memberArrives e.slot ∉ es), w.forced.filter fun i => decide (.forcedArrives i ∉ es)⟩

/-- R81, R47: member events and forced-immediate events arrive. -/
def State.arrive (s : State) (w : OnWay) : State := (s.takeMembers w.members).forceAll w.forced

/-- One event of an advance by k that was a day wrap or not, with what it sends; `running` are the slots that ran when it was
raised. An arrival has its effect in State.takeEvents. -/
def State.tickEvent (k : Nat) (wrap : Bool) (running : List (Fin 64)) (s : State) : TickEvent → State × OnWay
  | .slot i => let a := s.advanceSlot i k; (a.1, ⟨a.2, []⟩)
  | .scrub => (s.scrubVisit, .none)
  | .stepFlags => (s.setStepFlags running, .none)
  | .groupMinute g => let a := s.groupMinute g; (a.1, ⟨[], a.2⟩)
  | .timetable => (if wrap then s.timetableStep else s.timetableMinute s.time.day s.time.minute, .none)
  | .lineSeen p line => (s.setPort p ((s.port p).lineSeen line), .none)
  | .memberArrives _ | .forcedArrives _ => (s, .none)

/-- The events of an advance taken in order, with `w` on its way. What an event sends arrives with that event, unless its arrival
is named later: then it arrives where it is last named (R47, R84, R88; log entry 3). -/
def State.takeEvents (k : Nat) (wrap : Bool) (running : List (Fin 64)) (s : State) : List TickEvent → OnWay → State
  | [], _ => s
  | e :: es, w =>
    let r := s.tickEvent k wrap running e
    let sent := w.and r.2
    (r.1.arrive (sent.now es)).takeEvents k wrap running es (sent.later es)

/-- R2 to R5: one tick, with the order in which the events of its advance are taken. -/
def State.tick (s : State) (order : List TickEvent) : State :=
  let wrap := s.time.wraps s.time.amount
  let s1 := (s.setTime s.time.tick).enterHoldover
  let s2 := if wrap && s1.time.isSet then s1.raise .timeStep else s1
  s2.takeEvents s.time.amount wrap s2.runningSlots (schedule order (s2.tickEvents s.time)) .none

/-! ### Time marks (R6 to R13) -/

/-- The body of a TIME MARK (section 1.3). -/
structure Mark where
  nt : Nat
  day : Option Nat
  deriving DecidableEq, Repr

/-- R7: the candidate of smallest magnitude, the first on a tie. -/
def smallest (a b : Int) : Int := if b.natAbs < a.natAbs then b else a

/-- R7: the difference d of a mark. -/
def TimeBase.difference (t : TimeBase) (m : Mark) : Int :=
  match m.day with
  | some d => ((d * Config.dayDs + m.nt : Nat) : Int) - (t.ref : Int)
  | none =>
    let d0 : Int := (m.nt : Int) - t.nt
    if t.isSet then smallest (smallest d0 (d0 + Config.dayDs)) (d0 - Config.dayDs) else d0

/-- R7: the mark day. -/
def TimeBase.markDay (t : TimeBase) (m : Mark) : Nat :=
  match m.day with
  | some d => d
  | none =>
    let d0 : Int := (m.nt : Int) - t.nt
    let d := t.difference m
    if d = d0 then t.day
    else if d = d0 + Config.dayDs then (t.day + 1) % Config.dayCount
    else yesterday t.day

/-- R7: the last difference as it is recorded. -/
def clipDifference (d : Int) : Int := max (-32768) (min 32767 d)

/-- R6: a step that sets NT. -/
def TimeBase.stepTo (t : TimeBase) (nt day : Nat) : TimeBase :=
  { t with nt := nt, day := day, slew := 0, phase := nt % Config.ticksPerSecond }

/-- What taking a mark gives: the time base, whether it stepped, and a notice (Table 1-3). -/
structure MarkResult where
  time : TimeBase
  stepped : Bool
  notice : Option Notice
  deriving DecidableEq, Repr

/-- R8 to R12 (Table 1-3): a valid mark, its difference recorded. -/
def TimeBase.takeValid (t : TimeBase) (m : Mark) : MarkResult :=
  let d := t.difference m
  let t1 := { t with lastDiff := some (clipDifference d) }
  let stepped := t1.stepTo m.nt (t.markDay m)
  match t.disc with
  | .unset => ⟨{ stepped with disc := .acquire, agree := 0, outliers := 0, age := 0 }, true, none⟩
  | .acquire =>
    if d.natAbs ≤ Config.agreeWindow then
      if Config.runOfThree ≤ t.agree + 1 then
        ⟨{ t1 with disc := .locked, agree := 0, outliers := 0, slew := d, age := 0 }, false, some .timeLocked⟩
      else ⟨{ t1 with agree := t.agree + 1, slew := d, age := 0 }, false, none⟩
    else ⟨{ stepped with agree := 0, age := 0 }, true, none⟩
  | .locked =>
    if d.natAbs ≤ Config.acceptWindow then ⟨{ t1 with slew := d, outliers := 0, age := 0 }, false, none⟩
    else if Config.runOfThree ≤ t.outliers + 1 then
      ⟨{ stepped with disc := .acquire, agree := 0, outliers := 0, age := 0 }, true, some .timeStep⟩
    else ⟨{ t1 with outliers := t.outliers + 1 }, false, none⟩
  | .holdover =>
    if d.natAbs ≤ Config.acceptWindow then
      ⟨{ t1 with disc := .locked, slew := d, outliers := 0, age := 0 }, false, some .timeLocked⟩
    else ⟨{ stepped with disc := .acquire, agree := 0, outliers := 0, age := 0 }, true, some .timeStep⟩

/-- R7: a mark; a mark NT above 863,999 makes it invalid, and it is ignored. -/
def TimeBase.takeMark (t : TimeBase) (m : Mark) : MarkResult :=
  if m.nt < Config.dayDs then t.takeValid m else ⟨t, false, none⟩

/-- A notice that may be absent. -/
def State.raiseOpt (s : State) : Option Notice → State
  | some k => s.raise k
  | none => s

/-- R7 to R12: the time base takes a mark, and a step raises a step event (R6). -/
def State.takeMark (s : State) (m : Mark) : State :=
  let r := s.time.takeMark m
  let s1 := (s.setTime r.time).raiseOpt r.notice
  if r.stepped then s1.stepEvent else s1

/-- R17: the time base on RESTART WARM. -/
def TimeBase.warm (t : TimeBase) : TimeBase :=
  { t with agree := 0, outliers := 0, slew := 0, age := 0, lastDiff := none,
           disc := if t.disc = .unset then .unset else .acquire }

end Sys2Proof.Machine
end

