-- ==== Sys2Proof/Machine/TrunkOps.lean ====
section
/-! DEFINITION. The trunk interface and the offer of requests (sections 9.1 to 9.4), cues (section 6.5), and what each
reset does to every block. -/

namespace Sys2Proof.Machine

/-! ### Receiving (R150, R185) -/

/-- R150: one reception, the line bytes after a delimiter: the frame when its length is 240 or less, it is
complete, and its CRC agrees. Bytes after its last CRC byte are outside it. -/
def acceptFrame (bytes : List Byte) : Option TrunkFrame :=
  match unescape bytes with
  | kind :: station :: hops :: len :: rest =>
    let n := len.toNat
    let body := rest.take n
    let crc := beHalf (rest.getD n 0#8) (rest.getD (n + 1) 0#8)
    if n ≤ Config.bodyCap ∧ n + 2 ≤ rest.length ∧ crc = crc16 (frameBytes kind station hops body) then
      some { kind := kind, station := station, hops := hops, body := body, crc := crc }
    else none
  | _ => none

/-- The counts of a trunk port. -/
def Trunk.counts (t : Trunk) : TrunkPort → PortCounts
  | .a => t.countsA
  | .b => t.countsB

/-- The trunk interface with other counts of a port. -/
def Trunk.setCounts (t : Trunk) (p : TrunkPort) (c : PortCounts) : Trunk :=
  match p with
  | .a => { t with countsA := c }
  | .b => { t with countsB := c }

/-- A change of one port's counts. -/
def State.count (s : State) (p : TrunkPort) (f : PortCounts → PortCounts) : State :=
  s.setTrunk (s.trunk.setCounts p (f (s.trunk.counts p)))

/-- A frame kind that no row of Table 12-2 names. -/
def foreignKind (k : Byte) : Bool := !(k == 0x01#8 || k == 0x02#8 || k == 0x03#8 || k == 0x10#8 || k == 0x11#8)

/-! ### Passing on (R151, R152) -/

/-- The hop count of a frame: bits 0 to 5 of its hops byte (R185). -/
def hopCount (hops : Byte) : Nat := hops.toNat % 64

/-- R151: an accepted frame is passed on toward the far port with its hops lowered and a fresh CRC, or its hops
have run out. -/
def State.passOn (s : State) (p : TrunkPort) (f : TrunkFrame) : State :=
  if hopCount f.hops = 0 then s.count p fun c => { c with hopExpiries := satAdd c.hopExpiries 1 }
  else
    let g := TrunkFrame.make f.kind f.station (BitVec.ofNat 8 (hopCount f.hops - 1)) f.body
    match p with
    | .a => s.offerB g
    | .b => s.offerA g

/-- A frame whose body does not fit its kind (R156). -/
def State.countMalformed (s : State) : State := s.setTrunk { s.trunk with malformed := satAdd s.trunk.malformed 1 }

/-! ### Cues (R105, R106) -/

/-- R105: the cue table's entries of a number, in ascending group order. -/
def Timetable.cuesOf (t : Timetable) (n : Nat) : List CueEntry := t.cues.filter fun e => e.number == n

/-- R105: an entry takes the group's active cue: none is active, or its priority is at or below the entry's. -/
def Timetable.cueTakes (t : Timetable) (e : CueEntry) : Bool :=
  match t.active.get e.group with
  | none => true
  | some c => decide (c.priority ≤ e.priority)

/-- R105: one entry of a CUE frame: it sets the group's active cue and marks the group, or raises CUE_IGNORED. -/
def State.applyCue (a : State × List (Fin 16)) (e : CueEntry) : State × List (Fin 16) :=
  let s := a.1
  if s.tables.cueTakes e then
    let c : ActiveCue :=
      { number := e.number, plan := e.plan, priority := e.priority, endR := s.time.ref + Config.minuteDs * e.duration }
    (s.setTables (s.tables.setActive e.group (some c)), a.2 ++ [e.group])
  else (s.raise .cueIgnored, a.2)

/-- R105: the timetable engine takes a CUE frame. -/
def State.takeCue (s : State) (n : Nat) : State :=
  if s.time.isSet ∧ n ≠ 0 then
    let a := (s.tables.cuesOf n).foldl State.applyCue (s, [])
    a.1.evaluateNow a.2
  else s

/-- The groups whose active cue has number n. -/
def Timetable.groupsWithCue (t : Timetable) (n : Nat) : List (Fin 16) :=
  (List.finRange 16).filter fun g => (t.active.get g).any fun c => c.number == n

/-- R106: the timetable engine takes a CUE CANCEL frame. -/
def State.takeCancel (s : State) (n : Nat) : State :=
  let gs := s.tables.groupsWithCue n
  (s.setTables (gs.foldl (fun t g => t.setActive g none) s.tables)).evaluateNow gs

/-! ### Offering a request (R157) -/

/-- R157: a request offered to the management engine: queued and, when the engine is IDLE, taken at once; or
answered BUSY, or, a broadcast request, left. -/
def State.offerRequest (s : State) (r : Request) : State :=
  if s.mgmt.queue.length < Config.requestCap then
    s.setMgmt ({ s.mgmt with queue := s.mgmt.queue ++ [r] } : Management).takeNext
  else if r.src.broadcast then s
  else s.offerA (s.buildReply r .busy [])

/-! ### Frames from each port (R153 to R156) -/

/-- The mark that a TIME MARK body holds, when the body fits the kind (R156, Table 12-2). -/
def markOfBody : List Byte → Option Mark
  | [a, b, c, d] => some ⟨(beHalf a b).toNat * 65536 + (beHalf c d).toNat, none⟩
  | [a, b, c, d, e, f] => some ⟨(beHalf a b).toNat * 65536 + (beHalf c d).toNat, some (beHalf e f).toNat⟩
  | _ => none

/-- The request that a REQUEST body holds, when it holds a tag and a code (R156, Table 12-2). -/
def requestOfBody (broadcast : Bool) : List Byte → Option Request
  | t :: u :: code :: params => some ⟨⟨beHalf t u, broadcast⟩, code, params⟩
  | _ => none

/-- Table 9-3: what a part with station number `own` does with an accepted frame from port A, besides passing it
on. -/
def State.actOn (s : State) (own : Byte) (f : TrunkFrame) : State :=
  if f.kind = 0x01#8 then
    match markOfBody f.body with
    | some m => s.takeMark m
    | none => s.countMalformed
  else if f.kind = 0x02#8 then
    match f.body with
    | [n] => s.takeCue n.toNat
    | _ => s.countMalformed
  else if f.kind = 0x03#8 then
    match f.body with
    | [n] => s.takeCancel n.toNat
    | _ => s.countMalformed
  else if f.kind = 0x10#8 ∧ (f.station = own ∨ f.station = 0#8) then
    match requestOfBody (f.station == 0#8) f.body with
    | some r => s.offerRequest r
    | none => s.countMalformed
  else s

/-- R154: a REQUEST addressed to the part is consumed. -/
def consumed (own : Byte) (f : TrunkFrame) : Bool := f.kind == 0x10#8 && f.station == own

/-- R150: an accepted frame is counted, and a foreign one counted as such (Table 9-2). -/
def State.countAccepted (s : State) (p : TrunkPort) (f : TrunkFrame) : State :=
  s.count p fun c =>
    { c with received := satAdd c.received 1, foreign := if foreignKind f.kind then satAdd c.foreign 1 else c.foreign }

/-- R153 to R155: an accepted frame. A pass-through station passes every frame on; a frame from port B is passed on
and not acted on. -/
def State.acceptedFrame (s : State) (p : TrunkPort) (f : TrunkFrame) : State :=
  let s1 := s.countAccepted p f
  match p, s.trunk.station with
  | .a, some own => if consumed own f then s1.actOn own f else (s1.actOn own f).passOn .a f
  | _, _ => s1.passOn p f

/-- R150: one reception: the frame is accepted, or dropped and counted. -/
def State.reception (p : TrunkPort) (s : State) (bytes : List Byte) : State :=
  match acceptFrame bytes with
  | some f => s.acceptedFrame p f
  | none => s.count p fun c => { c with crcDrops := satAdd c.crcDrops 1 }

/-- A whole frame of good CRC that arrives on port A. One longer than the line allows is dropped (R150). While RESET
is asserted no frame is taken (R163). -/
def State.frameFromA (s : State) (kind station hops : Byte) (body : List Byte) : State :=
  if s.resetAsserted then s
  else if body.length ≤ Config.bodyCap then s.acceptedFrame .a (.make kind station hops body)
  else s.count .a fun c => { c with crcDrops := satAdd c.crcDrops 1 }

/-- R152: the head frame of an out-queue has been sent. -/
def OutQueue.sentHead (q : OutQueue) : OutQueue :=
  match q.frames with
  | [] => q
  | _ :: rest => { q with frames := rest, sent := satAdd q.sent 1 }

/-! ### Resets -/

/-- R162: A-out at a restart: the frame being sent and the RESTART reply stay, in their order. -/
def keptFrames (reply : Option TrunkFrame) : List TrunkFrame → List TrunkFrame
  | [] => []
  | f :: rest => f :: (match reply with | some r => (rest.filter (· == r)).take 1 | none => [])

/-- R39: a slot on RESTART WARM keeps its identity, its override mode and its recording flag (R175), and enters
JOINING without a position. An UNUSED slot stays UNUSED. -/
def Slot.warm (x : Slot) : Slot :=
  if x.state = .unused then x
  else
    { Slot.unused with
      intersection := x.intersection, port := x.port, drop := x.drop, group := x.group, divider := x.divider,
      mode := x.mode, recording := x.recording, state := .joining }

/-- R95: a group record on RESTART WARM keeps its five settings. -/
def Group.warm (g : Group) : Group :=
  { Group.cold with
    defaultPlan := g.defaultPlan, policy := g.policy, defaultMode := g.defaultMode, tol := g.tol, limit := g.limit }

/-- R95: the member view holds each defined slot in JOINING with current plan 0. -/
def Member.warm (m : Member) : Member := ⟨m.group, .joining, 0⟩

/-- R116: the timetable engine on RESTART WARM. -/
def Timetable.warm (t : Timetable) : Timetable :=
  { t with active := Vector.replicate 16 none, direct := Vector.replicate 16 none }

/-- R175: the record unit on RESTART WARM. -/
def RecordUnit.warm (u : RecordUnit) : RecordUnit :=
  { u with ring := [], overwrites := 0, notices := 0#15, countDown := u.reload }

/-- The trunk interface at a restart (R162 to R164): the out-queues are emptied but for what stays; COLD sets the
counts to 0, and WARM keeps them. -/
def Trunk.restart (t : Trunk) (k : RestartKind) (reply : Option TrunkFrame) : Trunk :=
  let base := match k with | .cold => Trunk.cold t.strap | .warm => t
  { base with
    aOut := { base.aOut with frames := keptFrames reply t.aOut.frames }
    bOut := { base.bOut with frames := t.bOut.frames.take 1 } }

/-- The values that every block takes at RESET line assertion (R16, R38, R79, R94, R115, R133, R148, R163, R174,
R183). The strap value and the line levels stand until they are sampled. -/
def State.coldBlocks (s : State) : State :=
  { s with
    time := .cold, slots := Vector.replicate 64 .unused, holds := Vector.ofFn fun l => { s.hold l with map := 0#64 },
    groups := Vector.replicate 16 .cold, members := Vector.replicate 64 none, tables := .cold,
    store := .cold s.store.stuck, ports := Vector.replicate 4 .cold, trunk := .cold s.trunk.strap, mgmt := .cold,
    records := .cold, logOut := none }

/-- The values that every block takes on RESTART WARM (R17, R39, R80, R95, R116, R134, R149, R164, R175, R183), but
for the trunk interface and the line conditions. -/
def State.warmBlocks (s : State) : State :=
  { s with
    time := s.time.warm, slots := Vector.ofFn fun i => (s.slot i).warm, groups := Vector.ofFn fun g => (s.group g).warm,
    members := Vector.ofFn fun i => (s.member i).map Member.warm, tables := s.tables.warm, store := s.store.warm,
    mgmt := .cold, records := s.records.warm, logOut := none }

/-- R162: a restart takes effect; the pins are sampled when it has (R133, R134, R148, R149). -/
def State.restartNow (s : State) (k : RestartKind) (reply : Option TrunkFrame) (pins : PinSample) : State :=
  let trunk := s.trunk.restart k reply
  let s1 :=
    match k with
    | .cold => { s.coldBlocks with trunk := trunk, ports := Vector.ofFn fun p => Port.coldAt (pins.lines.get p) }
    | .warm => { s.warmBlocks with trunk := trunk, ports := Vector.ofFn fun p => (s.port p).warm (pins.lines.get p) }
  s1.sampleHolds pins

end Sys2Proof.Machine
end

