-- ==== Sys2Proof/Machine/Clock.lean ====
section
/-! DEFINITION. The meanings of the clock's and the time base's commands, and of the conditions that a tick brings
about (chapter 1; R91, R102, R107, R109, R168). -/

namespace Sys2Proof.Machine

/-- An event of the part's own or of its lines: while RESET is asserted the part takes none (R16, R94, R115, R133,
R137, R163, R174), and nothing happens (log entry 1). -/
def unlessReset (f : State → State) (s : State) : Host.Outcome State Fault Refusal :=
  next (if s.resetAsserted then s else f s)

/-- TICK (R2). -/
def execTick (order : List TickEvent) (s : State) : Host.Outcome State Fault Refusal :=
  unlessReset (fun s => s.tick order) s

/-- HOLDOVER_ENTRY (R11): LOCKED at mark age 60 becomes HOLDOVER. A TICK that brings the age to 60 does the same. -/
def execHoldoverEntry (s : State) : Host.Outcome State Fault Refusal :=
  unlessReset State.enterHoldover s

/-- TRANSITION_LIMIT_REACHED (R91): a group whose elapsed count stands at its limit, not yet reported (R90). -/
def execTransitionLimitReached (g : Fin 16) (s : State) : Host.Outcome State Fault Refusal :=
  unlessReset (fun s => (s.checkLimit g).arrive) s

/-- R102: an event entry whose end is at or before the present minute is removed. -/
def Timetable.endEntry (t : Timetable) (id day minute : Nat) : Timetable :=
  { t with events := t.events.filter fun e => !(e.id == id && pairLe e.endDay e.endMinute day minute) }

/-- EVENT_ENTRY_END (R102), while time is set. -/
def execEventEntryEnd (id : Fin 64) (s : State) : Host.Outcome State Fault Refusal :=
  unlessReset (fun s =>
    if s.time.isSet then s.setTables (s.tables.endEntry id.val s.time.day s.time.minute) else s) s

/-- The evaluation instant of the present minute (R110). -/
def TimeBase.instant (t : TimeBase) : Nat := instantOf t.day t.minute

/-- CUE_EXPIRY (R107), while time is set. -/
def execCueExpiry (g : Fin 16) (s : State) : Host.Outcome State Fault Refusal :=
  unlessReset (fun s =>
    if s.time.isSet then s.setTables (s.tables.keepCue (·.inForce s.time.instant) g) else s) s

/-- DIRECT_EXPIRY (R109), while time is set. -/
def execDirectExpiry (g : Fin 16) (s : State) : Host.Outcome State Fault Refusal :=
  unlessReset (fun s =>
    if s.time.isSet then s.setTables (s.tables.keepDirect (·.inForce s.time.instant) g) else s) s

/-- COUNT_DOWN_ZERO (R168). -/
def execCountDownZero (s : State) : Host.Outcome State Fault Refusal :=
  unlessReset (fun s => s.setRecords s.records.countDownZero) s

/-- R14: the reply fields of READ TIME. -/
def TimeBase.readFields (t : TimeBase) : List Byte :=
  num1 (disciplineCode t.disc) ++ num2 t.day ++ num4 t.nt ++ num1 t.agree ++ num1 t.outliers ++ signed2 t.slew ++
    num1 t.age ++ optField 2 signed2 t.lastDiff

/-- READ_TIME (R14). -/
def execReadTime (src : Source) (s : State) : Host.Outcome State Fault Refusal :=
  next (carryOut (.readTime src) (fun s => { state := s, outcome := .done, fields := s.time.readFields }) s)

/-- R15: the day number is set; while time is set, a different one is a step. -/
def State.setDayNumber (s : State) (day : Nat) : State :=
  let s1 := s.setTime { s.time with day := day }
  if s.time.isSet ∧ s.time.day ≠ day then (s1.raise .timeStep).stepEvent else s1

/-- SET_DAY (R15). -/
def execSetDay (src : Source) (day : Half) (s : State) : Host.Outcome State Fault Refusal :=
  next (carryOut (.setDay src day) (fun s => { state := s.setDayNumber day.toNat, outcome := .done }) s)

end Sys2Proof.Machine
end

