-- ==== Sys2Proof/Machine/Frames.lean ====
section
/-! DEFINITION. The meanings of trunk frames, of the management engine's own steps, of the station's requests and of
resets (chapter 9). -/

namespace Sys2Proof.Machine

/-- TIME_MARK (R7, R154, R156): an accepted TIME MARK frame on port A. -/
def execTimeMark (station hops : Byte) (body : List Byte) (s : State) : Host.Outcome State Fault Refusal :=
  next (s.frameFromA 0x01#8 station hops body)

/-- CUE (R105, R154, R156): an accepted CUE frame on port A. -/
def execCue (station hops : Byte) (body : List Byte) (s : State) : Host.Outcome State Fault Refusal :=
  next (s.frameFromA 0x02#8 station hops body)

/-- CUE_CANCEL (R106, R154, R156): an accepted CUE CANCEL frame on port A. -/
def execCueCancel (station hops : Byte) (body : List Byte) (s : State) : Host.Outcome State Fault Refusal :=
  next (s.frameFromA 0x03#8 station hops body)

/-- REQUEST (R154, R156, R157): an accepted REQUEST frame on port A. -/
def execRequest (station hops : Byte) (body : List Byte) (s : State) : Host.Outcome State Fault Refusal :=
  next (s.frameFromA 0x10#8 station hops body)

/-- TRUNK_FRAME (R150): the bytes that a port receives; each delimiter begins a frame, which is accepted or
dropped. -/
def execTrunkFrame (port : TrunkPort) (line : List Byte) (s : State) : Host.Outcome State Fault Refusal :=
  unlessReset (fun s => (receptions line).foldl (State.reception port) s) s

/-- TRUNK_TRANSMIT_END (R152). -/
def execTrunkTransmitEnd (port : TrunkPort) (s : State) : Host.Outcome State Fault Refusal :=
  unlessReset (fun s =>
    match port with
    | .a => s.setTrunk { s.trunk with aOut := s.trunk.aOut.sentHead }
    | .b => s.setTrunk { s.trunk with bOut := s.trunk.bOut.sentHead }) s

/-- R158: a held reply is taken into A-out once it has room, and the engine becomes IDLE and takes the next request. -/
def State.placeHeld (s : State) : State :=
  match s.mgmt.engine with
  | .replyWait _ reply =>
    if s.trunk.aOut.hasRoom then (s.setTrunk { s.trunk with aOut := s.trunk.aOut.place reply }).engineDone else s
  | _ => s

/-- HELD_REPLY_PLACED (R158). -/
def execHeldReplyPlaced (s : State) : Host.Outcome State Fault Refusal := unlessReset State.placeHeld s

/-- R162: a RESTART whose reply is in A-out takes effect. -/
def State.restartEffect (s : State) (pins : PinSample) : State :=
  match s.mgmt.restart, s.mgmt.engine with
  | some (k, reply), .idle => s.restartNow k (some reply) pins
  | _, _ => s

/-- RESTART_EFFECT (R162). -/
def execRestartEffect (pins : PinSample) (s : State) : Host.Outcome State Fault Refusal :=
  unlessReset (fun s => s.restartEffect pins) s

/-- UNKNOWN_REQUEST_CODE (R160): a request of bad form is answered BAD_VALUE and not carried out. A request of good
form is another row's. -/
def execUnknownRequestCode (src : Source) (code : Byte) (params : List Byte) (s : State) :
    Host.Outcome State Fault Refusal :=
  next (if namesNoRow code params then carryOut (.unknownRequestCode src code params) (refuse .badValue) s else s)

/-- The counts of a port as READ STATION lists them (R161). -/
def PortCounts.fields (c : PortCounts) : List Byte := num2 c.received ++ num2 c.crcDrops ++ num2 c.hopExpiries ++ num2 c.foreign

/-- R161: the reply fields of READ STATION. Table 12-4 has no row for the strap value and the station number: one byte each, and
no presence byte for the number, DESIGN CHOICE (log entry 10). -/
def State.stationFields (s : State) : List Byte :=
  [s.trunk.strap, s.trunk.station.getD 0#8, Config.familyCode] ++ halfBytes Config.partCode ++
    num1 s.trunk.aOut.frames.length ++ num1 s.trunk.bOut.frames.length ++ num1 s.mgmt.queue.length ++
    s.trunk.countsA.fields ++ s.trunk.countsB.fields ++ num2 s.trunk.malformed ++
    num2 s.trunk.aOut.sent ++ num2 s.trunk.aOut.drops ++ num2 s.trunk.bOut.sent ++ num2 s.trunk.bOut.drops

/-- R161: the counts of Table 9-2 set to 0. -/
def Trunk.clearCounts (t : Trunk) : Trunk :=
  { t with countsA := .zero, countsB := .zero, malformed := 0, aOut := ⟨t.aOut.frames, 0, 0⟩, bOut := ⟨t.bOut.frames, 0, 0⟩ }

/-- READ STATION at its owner (R161): YES is 0, NO is 1. -/
def readStation (clear : Byte) (s : State) : Answer :=
  if 1 < clear.toNat then refuse .badValue s
  else
    { state := if clear = 0#8 then s.setTrunk s.trunk.clearCounts else s, outcome := .done, fields := s.stationFields }

/-- READ_STATION (R161). -/
def execReadStation (src : Source) (clear : Byte) (s : State) : Host.Outcome State Fault Refusal :=
  next (carryOut (.readStation src clear) (readStation clear) s)

/-- R162: an addressed RESTART: its reply is built and waits for its place in A-out as any reply does; the restart
takes effect at RESTART_EFFECT. -/
def State.acceptRestart (s : State) (k : RestartKind) (r : Request) : State :=
  let reply := s.buildReply r .done []
  (s.setMgmt { s.mgmt with restart := some (k, reply) }).placeReply r reply

/-- RESTART_WARM (R162): addressed, it waits for its reply; broadcast, it takes effect at once. -/
def execRestartWarm (src : Source) (pins : PinSample) (s : State) : Host.Outcome State Fault Refusal :=
  next (
    match encodeRequest (.restartWarm src pins) with
    | none => s
    | some r =>
      if !s.carries r then s
      else if r.src.broadcast then s.restartNow .warm none pins
      else s.acceptRestart .warm r)

/-- RESTART_COLD (R162): a broadcast one is not carried out. -/
def execRestartCold (src : Source) (s : State) : Host.Outcome State Fault Refusal :=
  next (
    match encodeRequest (.restartCold src) with
    | none => s
    | some r =>
      if !s.carries r then s
      else if discarded r then s.engineDone
      else s.acceptRestart .cold r)

/-- RESET_ASSERT (R163): every block takes its reset values at once. -/
def execResetAssert (s : State) : Host.Outcome State Fault Refusal :=
  next (s.coldBlocks.setResetAsserted true)

/-- R153, R133, R148: the RESET line is released: the straps and the pins are sampled. -/
def State.release (s : State) (straps : Byte) (pins : PinSample) : State :=
  let s1 := (s.setResetAsserted false).setTrunk { s.trunk with strap := straps }
  { s1 with ports := Vector.ofFn fun p => { s1.port p with line := pins.lines.get p } }.sampleHolds pins

/-- RESET_RELEASE (R153): only an asserted line can be released (log entry 1). -/
def execResetRelease (straps : Byte) (pins : PinSample) (s : State) : Host.Outcome State Fault Refusal :=
  next (if s.resetAsserted then s.release straps pins else s)

end Sys2Proof.Machine
end

