-- ==== Sys2Proof/Machine/PortEvents.lean ====
section
/-! DEFINITION. The meanings of the field ports' requests and events (chapter 7). -/

namespace Sys2Proof.Machine

/-- SET PORT at its owner (R131): the window clamped to 20 to 200 ms; YES is 0, NO is 1. -/
def setPortRequest (port : Byte) (window : Half) (clear : Byte) (s : State) : Answer :=
  match index? 4 port.toNat with
  | none => refuse .badValue s
  | some p =>
    if 1 < clear.toNat then refuse .badValue s
    else
      let w := max 20 (min 200 window.toNat)
      let q := { s.port p with window := w }
      { state := s.setPort p (if clear = 0#8 then q.clearCounts else q), outcome := .done, fields := num2 w }

/-- SET_PORT (R131). -/
def execSetPort (src : Source) (port : Byte) (window : Half) (clear : Byte) (s : State) :
    Host.Outcome State Fault Refusal :=
  next (carryOut (.setPort src port window clear) (setPortRequest port window clear) s)

/-- The code of a frame kind: SYNC is 0, POLL is 1 (section 7.1). -/
def kindCode (isSync : Bool) : Nat := if isSync then 0 else 1

/-- A queue entry as READ PORT gives it (R132). -/
def QueueEntry.fields (e : QueueEntry) : List Byte :=
  num1 e.slot.val ++ num1 (kindCode e.frame.isSync) ++ num1 e.frame.count

/-- The elapsed milliseconds that READ PORT reads. In an open window they lie between the last report and the
window's end, and are otherwise a FREE VALUE (log entry 7). While the frame is SENDING no window is open and R132 states
no value: 0 is read, a DESIGN CHOICE (log entry 7). -/
def Exchange.elapsedReading (x : Exchange) (free : Nat) : Nat :=
  match x.phase with
  | .sending => 0
  | .window => x.elapsed + Config.windowReading free % (x.window - x.elapsed + 1)

/-- An exchange in flight as READ PORT gives it (R132): slot 0xFF stands for the detached mark (log entry 10). -/
def Exchange.fields (x : Exchange) (free : Nat) : List Byte :=
  (if x.detached then [0xFF#8] else num1 x.slot.val) ++ num1 (kindCode x.isSync) ++ num1 x.drop ++
    num1 (phaseCode x.phase) ++ num2 x.window ++ num2 (x.elapsedReading free) ++ flag1 x.badSeen

/-- R132: the reply fields of READ PORT. -/
def Port.readFields (q : Port) (free : Nat) : List Byte :=
  num1 (portStateCode q.state) ++ num1 (lineCode q.line) ++ num2 q.window ++ num1 q.queue.length ++
    (q.queue.map QueueEntry.fields).flatten ++ optField 9 (fun x => x.fields free) q.exchange ++
    num2 q.sent ++ num2 q.outside ++ num2 q.otherDrops ++ num2 q.bad ++ num2 q.blockedEntries

/-- READ PORT at its owner (R132). Each reading draws one free value (log entry 7). -/
def readPort (port : Byte) (s : State) : Answer :=
  match index? 4 port.toNat with
  | none => refuse .badValue s
  | some p =>
    { state := s.setFreeReads (s.freeReads + 1), outcome := .done, fields := (s.port p).readFields s.freeReads }

/-- READ_PORT (R132). -/
def execReadPort (src : Source) (port : Byte) (s : State) : Host.Outcome State Fault Refusal :=
  next (carryOut (.readPort src port) (readPort port) s)

/-- EXCHANGE_START (R121): the line of an IDLE port is seen idle, so its head frame is sent. -/
def execExchangeStart (p : Fin 4) (s : State) : Host.Outcome State Fault Refusal :=
  unlessReset (fun s =>
    let q := s.port p
    if q.state = .idle ∧ q.queue ≠ [] then
      s.setPort p ({ q with line := .idle, blockedTimer := 0 } : Port).startIfReady
    else s) s

/-- FIELD_TRANSMIT_END (R122). -/
def execFieldTransmitEnd (p : Fin 4) (line : LineCondition) (s : State) : Host.Outcome State Fault Refusal :=
  unlessReset (fun s => s.setPort p ((s.port p).transmitEnd line)) s

/-- R124: a good STATUS at a port, by its state and the phase of its exchange. -/
def State.takeStatus (s : State) (p : Fin 4) (f : StatusFields) (ms : Nat) (line : LineCondition) : State :=
  let q := s.port p
  if q.sending then s
  else
    let q1 := q.frameSeen line
    match q.exchange with
    | none => s.setPort p (q.outsideReply line)
    | some x =>
      if f.drop = x.drop then (s.setPort p q1.endExchange).reportOutcome x (s.checkStatus x f) f.override
      else s.setPort p { q1 with otherDrops := satAdd q1.otherDrops 1, exchange := some (x.atElapsed ms) }

/-- R123, R124: a bad frame at a port. -/
def State.takeBadFrame (s : State) (p : Fin 4) (ms : Nat) (line : LineCondition) : State :=
  s.setPort p ((s.port p).badFrame ms line)

/-- STATUS (R124); one with a field out of range is a bad frame (R123). -/
def execStatus (p : Fin 4) (drop : Byte) (intersection : Half) (plan count override : Byte) (elapsed : Nat)
    (line : LineCondition) (s : State) : Host.Outcome State Fault Refusal :=
  unlessReset (fun s =>
    match statusFields drop intersection plan count override with
    | some f => s.takeStatus p f elapsed line
    | none => s.takeBadFrame p elapsed line) s

/-- R123, R187: one reception at a port: a good STATUS (R124), or a bad frame. -/
def State.fieldReception (s : State) (p : Fin 4) (ms : Nat) (bytes : List Byte) (line : LineCondition) : State :=
  match receiveField bytes with
  | some f => s.takeStatus p f ms line
  | none => s.takeBadFrame p ms line

/-- R185, R187: the receptions of a run of line bytes, in order. After each but the last the line is active, as the break
follows at once. A frame that a break cuts off before it is complete is a bad frame, and sets bad-check-seen in an open
window, though R123's list does not name it: DESIGN CHOICE (log entry 24). -/
def State.fieldReceptions (s : State) (p : Fin 4) (ms : Nat) (line : LineCondition) : List (List Byte) → State
  | [] => s
  | [bytes] => s.fieldReception p ms bytes line
  | bytes :: next :: rest => (s.fieldReception p ms bytes .active).fieldReceptions p ms line (next :: rest)

/-- BAD_FRAME (R123): the bytes after a valid frame start, which the receiver judges. A break among them ends the frame
before it and begins the next one (R185). A delimiter that stands alone begins none, since the line was not idle before it
(R123); that is so too where the receiver looks for the next delimiter after a wrong kind (R187; log entry 24). -/
def execBadFrame (p : Fin 4) (bytes : List Byte) (elapsed : Nat) (line : LineCondition) (s : State) :
    Host.Outcome State Fault Refusal :=
  unlessReset (fun s => s.fieldReceptions p elapsed line (fieldRuns bytes)) s

/-- R127: the window of a port expires. -/
def State.expireWindow (s : State) (p : Fin 4) (line : LineCondition) : State :=
  match (s.port p).exchange with
  | some x =>
    if x.phase = .window then
      (s.setPort p ({ s.port p with line := line } : Port).endExchange).reportOutcome x .timeout .none
    else s
  | none => s

/-- RESPONSE_WINDOW_EXPIRY (R127). -/
def execResponseWindowExpiry (p : Fin 4) (line : LineCondition) (s : State) : Host.Outcome State Fault Refusal :=
  unlessReset (fun s => s.expireWindow p line) s

/-- R129: a port that does not send and is not BLOCKED enters BLOCKED; an exchange in its window ends with a timeout. -/
def State.blockLine (s : State) (p : Fin 4) : State :=
  let q := s.port p
  if q.sending ∨ q.state = .blocked then s
  else
    let s1 := s.setPort p q.block
    match q.exchange with
    | some x => s1.reportOutcome x .timeout .none
    | none => s1

/-- LINE_BLOCKED (R129). -/
def execLineBlocked (p : Fin 4) (s : State) : Host.Outcome State Fault Refusal :=
  unlessReset (fun s => s.blockLine p) s

/-- LINE_FREED (R130). -/
def execLineFreed (p : Fin 4) (s : State) : Host.Outcome State Fault Refusal :=
  unlessReset (fun s => if (s.port p).state = .blocked then s.setPort p (s.port p).unblock else s) s

end Sys2Proof.Machine
end

