-- ==== Sys2Proof/Machine/SlotRequests.lean ====
section
/-! DEFINITION. The meanings of the slot requests and of the hold lines' commands (section 2.11 and chapter 8). -/

namespace Sys2Proof.Machine

/-- The numbers of a DEFINE SLOT, each in its range (R35, check 1). -/
structure SlotIdentity where
  slot : Fin 64
  intersection : Nat
  port : Fin 4
  drop : Nat
  group : Fin 16
  divider : Nat
  mode : OverrideMode
  deriving DecidableEq, Repr

/-- R35: the sync divider clamped to 1 to 16. -/
def clampDivider (d : Nat) : Nat := max 1 (min 16 d)

/-- R35, check 1: absent when a value is out of its range. -/
def slotIdentity (slot : Byte) (intersection : Half) (port drop group divider mode : Byte) : Option SlotIdentity :=
  match index? 64 slot.toNat, index? 4 port.toNat, index? 16 group.toNat, overrideModeOfCode mode with
  | some i, some p, some g, some m =>
    if 1 ≤ intersection.toNat ∧ intersection.toNat ≤ 4095 ∧ 1 ≤ drop.toNat ∧ drop.toNat ≤ 16 then
      some ⟨i, intersection.toNat, p, drop.toNat, g, clampDivider divider.toNat, m⟩
    else none
  | _, _, _, _ => none

/-- R35, check 3: another defined slot holds the intersection number, or the port and drop pair. -/
def State.duplicates (s : State) (d : SlotIdentity) : Bool :=
  (List.finRange 64).any fun k =>
    k != d.slot && (s.slot k).state != .unused &&
      ((s.slot k).intersection == d.intersection || ((s.slot k).port == d.port && (s.slot k).drop == d.drop))

/-- R138: the causes of the ACTIVE lines whose maps include a slot. -/
def State.activeCauses (s : State) (i : Fin 64) : BitVec 5 :=
  (List.finRange 4).foldl (fun set l =>
    if (s.hold l).level = .active ∧ slotIn (s.hold l).map i then causeJoin set (.hold l) else set) 0#5

/-- R35, R86, R138: the new slot: its identity, its filter bit, the causes of the active hold lines, its group's target. -/
def State.newSlot (s : State) (d : SlotIdentity) : Slot :=
  let g := s.group d.group
  { Slot.unused with
    intersection := d.intersection, port := d.port, drop := d.drop, group := d.group, divider := d.divider,
    mode := d.mode, recording := slotIn s.records.filter d.slot, state := .joining, causes := s.activeCauses d.slot,
    target := g.target, targetCause := if g.target = 0 then none else g.layer,
    targetMode := if g.target = 0 then none else g.targetMode }

/-- R35: a checked slot is defined, reported to the group coordinator, and makes a positioning attempt. -/
def State.define (s : State) (d : SlotIdentity) : State :=
  let s1 := (s.setSlot d.slot (s.newSlot d)).takeMember ⟨d.slot, .joining, 0, some d.group⟩
  (s1.positionAttempt d.slot).deliver

/-- DEFINE SLOT at its owner (R35). -/
def defineSlot (slot : Byte) (intersection : Half) (port drop group divider mode : Byte) (s : State) : Answer :=
  match slotIdentity slot intersection port drop group divider mode with
  | none => refuse .badValue s
  | some d =>
    if (s.slot d.slot).state ≠ .unused then refuse .inUse s
    else if s.duplicates d then refuse .duplicate s
    else { state := s.define d, outcome := .done }

/-- DEFINE_SLOT (R35). -/
def execDefineSlot (src : Source) (slot : Byte) (intersection : Half) (port drop group divider mode : Byte) (s : State) :
    Host.Outcome State Fault Refusal :=
  next (carryOut (.defineSlot src slot intersection port drop group divider mode)
    (defineSlot slot intersection port drop group divider mode) s)

/-- R36: a slot is released. -/
def State.releaseSlot (s : State) (i : Fin 64) : State :=
  let s1 := s.endTransition i .released
  let p := (s1.slot i).port
  let s2 := s1.setPort p ((s1.port p).release i)
  let s3 := (s2.setStore (s2.store.freeSlot i)).setSlot i .unused
  s3.takeMember (memberEvent i .unused 0)

/-- A request that names a slot which must be defined (R36, R146): BAD_VALUE above 63, NO_SUCH when UNUSED. -/
def onDefinedSlot (slot : Byte) (f : Fin 64 → Answer) (s : State) : Answer :=
  match index? 64 slot.toNat with
  | none => refuse .badValue s
  | some i => if (s.slot i).state = .unused then refuse .noSuch s else f i

/-- RELEASE SLOT at its owner (R36). -/
def releaseSlot (slot : Byte) (s : State) : Answer :=
  onDefinedSlot slot (fun i => { state := s.releaseSlot i, outcome := .done }) s

/-- RELEASE_SLOT (R36). -/
def execReleaseSlot (src : Source) (slot : Byte) (s : State) : Host.Outcome State Fault Refusal :=
  next (carryOut (.releaseSlot src slot) (releaseSlot slot) s)

/-- The fields of a time stamp. -/
def Stamp.fields (t : Stamp) : List Byte := num2 t.day ++ num4 t.nt

/-- The flags of a transition: forced-immediate, late-sync-seen, miss-seen (Table 12-8). -/
def transitionFlags (forced lateSeen missSeen : Bool) : List Byte := num1 (bitsNum [forced, lateSeen, missSeen])

/-- The fields of an open transition, in the order of Table 2-1. -/
def Transition.fields (t : Transition) : List Byte :=
  num1 (directionCode (some t.dir)) ++ num1 (causeCode t.cause) ++ num1 t.fromPlan ++ t.start.fields ++
    num1 t.used ++ num2 t.total ++ transitionFlags t.forced t.lateSeen t.missSeen

/-- A list of numbers of two bytes, preceded by its count (R186). -/
def list2 (xs : List Nat) : List Byte := num1 xs.length ++ (xs.map num2).flatten

/-- R37: the reply fields of READ SLOT: the state alone for an UNUSED slot, else Table 2-1 without the active plan
copy, the current splits as force-off points. -/
def Slot.readFields (x : Slot) : List Byte :=
  if x.state = .unused then num1 (slotStateCode x.state)
  else
    num2 x.intersection ++ num1 x.port.val ++ num1 x.drop ++ num1 x.group.val ++ num1 x.divider ++
      num1 (overrideModeCode x.mode) ++ flag1 x.recording ++ num1 (slotStateCode x.state) ++ flag1 x.joined ++
      num1 x.current ++ num1 x.target ++ optField 1 (fun l => num1 (layerCode l)) x.targetCause ++ optMode1 x.targetMode ++
      flag1 x.failReported ++ optField 2 num2 (x.run.map CycleRun.p) ++ optField 2 num2 (x.run.map CycleRun.len) ++
      list2 (forceOffPoints ((x.run.map CycleRun.splits).getD [])) ++ num1 x.count ++ flag1 x.firstCycle ++
      flag1 x.stepFlag ++ optField 1 (fun e => num1 (pendingEvalCode e)) x.pendingEval ++
      optField 13 Transition.fields x.trans ++ num1 x.missRun ++ num2 x.timeouts ++ num2 x.addressMisses ++
      num2 x.contentMisses ++ num2 x.lateSyncs ++ num1 x.causes.toNat ++ flag1 x.latch ++
      num1 (fieldOverrideCode x.lastOverride)

/-- READ SLOT at its owner (R37). -/
def readSlot (slot : Byte) (s : State) : Answer :=
  match index? 64 slot.toNat with
  | none => refuse .badValue s
  | some i => { state := s, outcome := .done, fields := (s.slot i).readFields }

/-- READ_SLOT (R37). -/
def execReadSlot (src : Source) (slot : Byte) (s : State) : Host.Outcome State Fault Refusal :=
  next (carryOut (.readSlot src slot) (readSlot slot) s)

/-! ### Hold lines and overrides -/

/-- R147: HOLDn joins or leaves one slot where the new map differs from the old. -/
def State.holdDifference (l : Fin 4) (old new : SlotSet) (s : State) (i : Fin 64) : Sent :=
  if slotIn new i && !slotIn old i then s.joinCause i (.hold l)
  else if slotIn old i && !slotIn new i then (s.leaveCause i (.hold l), [])
  else (s, [])

/-- R147: a line's slot map is replaced; on an ACTIVE line the difference applies at once, in ascending order. -/
def State.setHoldMap (s : State) (l : Fin 4) (map : SlotSet) : State :=
  let s1 := s.setHold l { s.hold l with map := map }
  match (s.hold l).level with
  | .inactive => s1
  | .active => (overSlots (List.finRange 64) (State.holdDifference l (s.hold l).map map) s1).deliver

/-- R147: the four slot maps, then the four line levels. -/
def State.holdFields (s : State) : List Byte :=
  ((List.finRange 4).map fun l => setBytes (s.hold l).map).flatten ++
    ((List.finRange 4).map fun l => num1 (levelCode (s.hold l).level)).flatten

/-- SET HOLD MAP at its owner (R147). -/
def setHoldMap (line : Byte) (map : SlotSet) (s : State) : Answer :=
  match index? 4 line.toNat with
  | none => refuse .badValue s
  | some l =>
    let s1 := s.setHoldMap l map
    { state := s1, outcome := .done, fields := s1.holdFields }

/-- SET_HOLD_MAP (R147). -/
def execSetHoldMap (src : Source) (line : Byte) (map : SlotSet) (s : State) : Host.Outcome State Fault Refusal :=
  next (carryOut (.setHoldMap src line map) (setHoldMap line map) s)

/-- R146: the cause set, the latch and the last reported field override state. -/
def Slot.overrideFields (x : Slot) : List Byte :=
  num1 x.causes.toNat ++ flag1 x.latch ++ num1 (fieldOverrideCode x.lastOverride)

/-- CLEAR OVERRIDE at its owner (R146). -/
def clearOverride (slot : Byte) (s : State) : Answer :=
  onDefinedSlot slot (fun i =>
    if (s.slot i).state ≠ .overridden ∨ (s.slot i).mode = .perCycle then refuse .state s
    else
      let x := { s.slot i with latch := false }
      { state := s.setSlot i x, outcome := .done, fields := x.overrideFields }) s

/-- CLEAR_OVERRIDE (R146). -/
def execClearOverride (src : Source) (slot : Byte) (s : State) : Host.Outcome State Fault Refusal :=
  next (carryOut (.clearOverride src slot) (clearOverride slot) s)

/-- HOLD_ACTIVATION_EDGE (R137, R138): an INACTIVE line becomes ACTIVE. -/
def execHoldActivationEdge (l : Fin 4) (s : State) : Host.Outcome State Fault Refusal :=
  unlessReset (fun s => if (s.hold l).level = .inactive then (s.activationEdge l).deliver else s) s

/-- HOLD_RELEASE_EDGE (R137, R139): an ACTIVE line becomes INACTIVE. -/
def execHoldReleaseEdge (l : Fin 4) (s : State) : Host.Outcome State Fault Refusal :=
  unlessReset (fun s => if (s.hold l).level = .active then s.releaseEdge l else s) s

end Sys2Proof.Machine
end

