-- ==== Sys2Proof/Machine/GroupRequests.lean ====
section
/-! DEFINITION. The meanings of SET_GROUP and READ_GROUP (section 5.6). -/

namespace Sys2Proof.Machine

/-! ### SET GROUP -/

/-- The five settings of a SET GROUP, clamped (R92, Table 5-1). -/
structure GroupSettings where
  defaultPlan : Nat
  policy : Policy
  defaultMode : Mode
  tol : Nat
  limit : Nat
  deriving DecidableEq, Repr

/-- R92: the settings that a SET GROUP carries, clamped; absent when a value is out of its range. -/
def groupSettings (defaultPlan policy mode tol limit : Byte) : Option GroupSettings :=
  match policyOfCode policy, modeOfCode mode with
  | some p, some m =>
    if defaultPlan.toNat ≤ 250 then some ⟨defaultPlan.toNat, p, m, min 20 tol.toNat, max 1 (min 60 limit.toNat)⟩
    else none
  | _, _ => none

/-- R92: a group record with new settings. -/
def Group.withSettings (g : Group) (x : GroupSettings) : Group :=
  { g with defaultPlan := x.defaultPlan, policy := x.policy, defaultMode := x.defaultMode, tol := x.tol, limit := x.limit }

/-- The five settings in a reply (R92, R93). -/
def Group.settingFields (g : Group) : List Byte :=
  num1 g.defaultPlan ++ num1 (policyCode g.policy) ++ num1 (modeCode g.defaultMode) ++ num1 g.tol ++ num1 g.limit

/-- R92: the settings are written; a changed policy has the settlement decision made again at once; then the
timetable engine evaluates the group. -/
def State.regroup (s : State) (g : Fin 16) (x : GroupSettings) : State :=
  let s1 := s.setGroup g ((s.group g).withSettings x)
  let s2 := if (s.group g).policy = x.policy then s1 else s1.settle g true
  s2.evaluateNow [g]

/-- SET GROUP at its owner (R92). -/
def setGroup (group defaultPlan policy mode tol limit : Byte) (s : State) : Answer :=
  match index? 16 group.toNat, groupSettings defaultPlan policy mode tol limit with
  | some g, some x =>
    { state := s.regroup g x, outcome := .done, fields := ((s.group g).withSettings x).settingFields }
  | _, _ => refuse .badValue s

/-- SET_GROUP (R92). -/
def execSetGroup (src : Source) (group defaultPlan policy mode tol limit : Byte) (s : State) :
    Host.Outcome State Fault Refusal :=
  next (carryOut (.setGroup src group defaultPlan policy mode tol limit) (setGroup group defaultPlan policy mode tol limit) s)

/-! ### READ GROUP -/

/-- R82: a slot is a settled member of a group. -/
def State.memberSettled (s : State) (g : Fin 16) (i : Fin 64) : Bool := (s.member i).any (s.group g).settles

/-- R93: one member in the reply: slot, state, current plan, settled. -/
def State.memberFields (s : State) (g : Fin 16) (i : Fin 64) : List Byte :=
  match s.member i with
  | some m => num1 i.val ++ num1 (slotStateCode m.state) ++ num1 m.current ++ flag1 ((s.group g).settles m)
  | none => []

/-- R93: the group record and the member counts. -/
def State.groupFields (s : State) (g : Fin 16) : List Byte :=
  let r := s.group g
  r.settingFields ++ num1 (groupStateCode r.state) ++ num1 r.target ++
    optField 1 (fun l => num1 (layerCode l)) r.layer ++ optMode1 r.targetMode ++ num1 r.elapsed ++ flag1 r.adopted ++
    flag1 r.reported ++ num1 (s.membersOf g).length ++ num1 ((s.membersOf g).countP (s.memberSettled g))

/-- R93: the members at or above a cursor. -/
def State.membersFrom (s : State) (g : Fin 16) (cursor : Nat) : List (Fin 64) :=
  (s.membersOf g).filter fun i => decide (cursor ≤ i.val)

/-- READ GROUP at its owner (R93). -/
def readGroup (group cursor : Byte) (s : State) : Answer :=
  match index? 16 group.toNat with
  | none => refuse .badValue s
  | some g =>
    if 63 < cursor.toNat then refuse .badValue s
    else
      let found := s.membersFrom g cursor.toNat
      let listed := found.take 32
      let body := s.groupFields g ++ num1 listed.length ++ (listed.map (s.memberFields g)).flatten
      match found.drop 32, listed.getLast? with
      | _ :: _, some l => { state := s, outcome := .partly, fields := body ++ num1 (l.val + 1) }
      | _, _ => { state := s, outcome := .done, fields := body }

/-- READ_GROUP (R93). -/
def execReadGroup (src : Source) (group cursor : Byte) (s : State) : Host.Outcome State Fault Refusal :=
  next (carryOut (.readGroup src group cursor) (readGroup group cursor) s)

end Sys2Proof.Machine
end

