-- ==== Sys2Proof/Machine/TableRequests.lean ====
section
/-! DEFINITION. The meanings of the timetable requests (chapter 6). -/

namespace Sys2Proof.Machine

/-- A plan number, 1 to 250, of a timetable entry. -/
def tablePlan (b : Byte) : Option Nat := if 1 ≤ b.toNat ∧ b.toNat ≤ 250 then some b.toNat else none

/-- A priority, 0 to 7. -/
def priority? (b : Byte) : Option Nat := if b.toNat ≤ 7 then some b.toNat else none

/-- A minute of the day, 0 to 1439. -/
def minute? (m : Half) : Option Nat := if m.toNat < 1440 then some m.toNat else none

/-- A request that changes the tables with outcome DONE, after which groups are evaluated (R112, R113). -/
def changed (s : State) (t : Timetable) (gs : List (Fin 16)) (fields : List Byte) : Answer :=
  { state := (s.setTables t).evaluateNow gs, outcome := .done, fields := fields }

/-! ### SET CALENDAR -/

/-- A calendar exception in its place in day order, replacing one of its day (R97). -/
def insertDay (e : CalendarEntry) : List CalendarEntry → List CalendarEntry
  | [] => [e]
  | x :: xs => if e.day < x.day then e :: x :: xs else if e.day = x.day then e :: xs else x :: insertDay e xs

/-- R97: SET. -/
def calendarSet (day dayType : Nat) (s : State) : Answer :=
  let t := s.tables
  let t1 := { t with calendar := insertDay ⟨day, dayType⟩ t.calendar }
  match t.calendar.find? fun e => e.day == day with
  | some e => if e.dayType = dayType then { state := s, outcome := .done } else changed s t1 (List.finRange 16) []
  | none => if t.calendar.length < Config.calendarCap then changed s t1 (List.finRange 16) [] else refuse .noRoom s

/-- R97: REMOVE. -/
def calendarRemove (day : Nat) (s : State) : Answer :=
  let t := s.tables
  if t.calendar.any fun e => e.day == day then
    changed s { t with calendar := t.calendar.filter fun e => e.day != day } (List.finRange 16) []
  else refuse .noSuch s

/-- SET CALENDAR at its owner (R97): the actions are SET 0 and REMOVE 1; REMOVE's day type is not read. -/
def setCalendar (day : Half) (action dayType : Byte) (s : State) : Answer :=
  match action.toNat with
  | 0 => if dayType.toNat ≤ 7 then calendarSet day.toNat dayType.toNat s else refuse .badValue s
  | 1 => calendarRemove day.toNat s
  | _ => refuse .badValue s

/-- SET_CALENDAR (R97). -/
def execSetCalendar (src : Source) (day : Half) (action dayType : Byte) (s : State) : Host.Outcome State Fault Refusal :=
  next (carryOut (.setCalendar src day action dayType) (setCalendar day action dayType) s)

/-! ### ADD BASE, ADD EVENT, CUT ENTRY -/

/-- The lowest number at or above `n` that an ascending list of ids leaves out. -/
def lowestIdFrom (n : Nat) : List Nat → Nat
  | [] => n
  | i :: is => if i = n then lowestIdFrom (n + 1) is else n

/-- A base entry in its place in id order. -/
def insertBase (e : BaseEntry) : List BaseEntry → List BaseEntry
  | [] => [e]
  | x :: xs => if e.id < x.id then e :: x :: xs else x :: insertBase e xs

/-- An event entry in its place in id order. -/
def insertEvent (e : EventEntry) : List EventEntry → List EventEntry
  | [] => [e]
  | x :: xs => if e.id < x.id then e :: x :: xs else x :: insertEvent e xs

/-- R98: two base entries are duplicates. -/
def BaseEntry.clashes (e x : BaseEntry) : Bool := e.group == x.group && e.start == x.start && e.mask &&& x.mask != 0#8

/-- R98: a base entry whose values are in range, its id still to come. -/
def addBaseChecked (e : BaseEntry) (s : State) : Answer :=
  let t := s.tables
  if t.base.any e.clashes then refuse .duplicate s
  else if Config.baseCap ≤ t.base.length then refuse .noRoom s
  else
    let id := lowestIdFrom 0 (t.base.map BaseEntry.id)
    changed s { t with base := insertBase { e with id := id } t.base } [e.group] (num2 id)

/-- ADD BASE at its owner (R98). -/
def addBase (group mask : Byte) (start : Half) (plan mode : Byte) (s : State) : Answer :=
  match index? 16 group.toNat, minute? start, tablePlan plan, optModeOfCode mode with
  | some g, some m, some p, some md => if mask = 0#8 then refuse .badValue s else addBaseChecked ⟨0, g, mask, m, p, md⟩ s
  | _, _, _, _ => refuse .badValue s

/-- ADD_BASE (R98). -/
def execAddBase (src : Source) (group mask : Byte) (start : Half) (plan mode : Byte) (s : State) :
    Host.Outcome State Fault Refusal :=
  next (carryOut (.addBase src group mask start plan mode) (addBase group mask start plan mode) s)

/-- R100, check 2: the span in minutes, worked with whole day numbers. -/
def EventEntry.span (e : EventEntry) : Int :=
  ((e.endDay : Int) - e.startDay) * 1440 + ((e.endMinute : Int) - e.startMinute)

/-- R100, checks 3 and 4: an event entry whose values and span are in range, its id still to come. The group is evaluated at the
present minute (R100, R110), so an entry that ends at the next minute is active there and may be selected until that minute's
event removes it, where R102 says 'without being selected': DESIGN CHOICE (log entry 26). -/
def addEventChecked (e : EventEntry) (s : State) : Answer :=
  let t := s.tables
  if s.time.isSet ∧ pairLe e.endDay e.endMinute s.time.day s.time.minute then refuse .state s
  else if Config.eventCap ≤ t.events.length then refuse .noRoom s
  else
    let id := lowestIdFrom 0 (t.events.map EventEntry.id)
    changed s { t with events := insertEvent { e with id := id } t.events } [e.group] (num2 id)

/-- R100, check 1: the entry that an ADD EVENT carries; absent when a value is out of its range. -/
def eventGiven (group : Byte) (startDay startMinute endDay endMinute : Half) (plan priority mode : Byte) :
    Option EventEntry :=
  match index? 16 group.toNat, minute? startMinute, minute? endMinute with
  | some g, some sm, some em =>
    match tablePlan plan, priority? priority, optModeOfCode mode with
    | some p, some pr, some md => some ⟨0, g, startDay.toNat, sm, endDay.toNat, em, p, pr, md⟩
    | _, _, _ => none
  | _, _, _ => none

/-- ADD EVENT at its owner (R100). -/
def addEvent (group : Byte) (startDay startMinute endDay endMinute : Half) (plan priority mode : Byte) (s : State) :
    Answer :=
  match eventGiven group startDay startMinute endDay endMinute plan priority mode with
  | none => refuse .badValue s
  | some e => if e.span ≤ 0 ∨ (Config.eventSpan : Int) < e.span then refuse .badValue s else addEventChecked e s

/-- ADD_EVENT (R100). -/
def execAddEvent (src : Source) (group : Byte) (startDay startMinute endDay endMinute : Half)
    (plan priority mode : Byte) (s : State) : Host.Outcome State Fault Refusal :=
  next (carryOut (.addEvent src group startDay startMinute endDay endMinute plan priority mode)
    (addEvent group startDay startMinute endDay endMinute plan priority mode) s)

/-- R103: a base entry is cut. -/
def cutBase (id : Nat) (s : State) : Answer :=
  let t := s.tables
  match t.base.find? fun e => e.id == id with
  | some e => changed s { t with base := t.base.filter fun x => x.id != id } [e.group] []
  | none => refuse .noSuch s

/-- R103: an event entry is cut. -/
def cutEvent (id : Nat) (s : State) : Answer :=
  let t := s.tables
  match t.events.find? fun e => e.id == id with
  | some e => changed s { t with events := t.events.filter fun x => x.id != id } [e.group] []
  | none => refuse .noSuch s

/-- CUT ENTRY at its owner (R103): the kinds are BASE 0 and EVENT 1. -/
def cutEntry (kind : Byte) (id : Half) (s : State) : Answer :=
  match kind.toNat with
  | 0 => if id.toNat < Config.baseCap then cutBase id.toNat s else refuse .badValue s
  | 1 => if id.toNat < Config.eventCap then cutEvent id.toNat s else refuse .badValue s
  | _ => refuse .badValue s

/-- CUT_ENTRY (R103). -/
def execCutEntry (src : Source) (kind : Byte) (id : Half) (s : State) : Host.Outcome State Fault Refusal :=
  next (carryOut (.cutEntry src kind id) (cutEntry kind id) s)

/-! ### READ TIMETABLE -/

/-- An item of a collection, as READ TIMETABLE gives it: its key and its fields (R114). -/
structure TableItem where
  key : Nat
  fields : List Byte
  deriving DecidableEq, Repr

/-- An end R in a reply: 0xFFFFFFFFFF for "until ended" (section 12.3). -/
def endFields : Option Nat → List Byte
  | some r => num5 r
  | none => List.replicate 5 0xFF#8

/-- R114: the calendar as items. -/
def calendarItem (e : CalendarEntry) : TableItem := ⟨e.day, num2 e.day ++ num1 e.dayType⟩

/-- R114: a base entry as an item, its fields in the order of Table 6-1. -/
def baseItem (e : BaseEntry) : TableItem :=
  ⟨e.id, num2 e.id ++ num1 e.group.val ++ [e.mask] ++ num2 e.start ++ num1 e.plan ++ optMode1 e.mode⟩

/-- R114: an event entry as an item, its fields in the order of Table 6-1. -/
def eventItem (e : EventEntry) : TableItem :=
  ⟨e.id, num2 e.id ++ num1 e.group.val ++ num2 e.startDay ++ num2 e.startMinute ++ num2 e.endDay ++
    num2 e.endMinute ++ num1 e.plan ++ num1 e.priority ++ optMode1 e.mode⟩

/-- The key of a cue table entry: cue number × 16 + group (section 12.3). -/
def CueEntry.key (e : CueEntry) : Nat := e.number * 16 + e.group.val

/-- R114: a cue table entry as an item, its fields in the order of Table 6-1. -/
def cueItem (e : CueEntry) : TableItem :=
  ⟨e.key, num1 e.number ++ num1 e.group.val ++ num1 e.plan ++ num2 e.duration ++ num1 e.priority⟩

/-- The fields of an active cue (R114). -/
def ActiveCue.fields (c : ActiveCue) : List Byte := num1 c.number ++ num1 c.plan ++ num1 c.priority ++ num5 c.endR

/-- The fields of a direct selection (R114). -/
def DirectSelection.fields (d : DirectSelection) : List Byte := num1 d.plan ++ endFields d.endR

/-- R114: one group's active cue and direct selection as an item, with the group as its key. R114 lists no group number
among the item's fields, and the item carries none. -/
def Timetable.activeItem (t : Timetable) (g : Fin 16) : TableItem :=
  ⟨g.val, optField 8 ActiveCue.fields (t.active.get g) ++ optField 6 DirectSelection.fields (t.direct.get g)⟩

/-- R114: a collection's key range and its items in ascending key order. The codes are CALENDAR 0, BASE 1, EVENT 2,
CUE 3 and ACTIVE 4. -/
def Timetable.collection (t : Timetable) (code : Byte) : Option ((Nat × Nat) × List TableItem) :=
  match code.toNat with
  | 0 => some ((0, 65535), t.calendar.map calendarItem)
  | 1 => some ((0, 383), t.base.map baseItem)
  | 2 => some ((0, 63), t.events.map eventItem)
  | 3 => some ((16, 4095), t.cues.map cueItem)
  | 4 => some ((0, 15), (List.finRange 16).map t.activeItem)
  | _ => none

/-- R114: the counts of every reply, and today's and yesterday's day types and the present minute while time is set. -/
def State.tableCounts (s : State) : List Byte :=
  let t := s.tables
  let now {α : Type} (x : α) : Option α := if s.time.isSet then some x else none
  num1 t.calendar.length ++ num2 t.base.length ++ num1 t.events.length ++ num1 t.cues.length ++
    optField 1 num1 (now (t.dayType s.time.day)) ++ optField 1 num1 (now (t.dayType (yesterday s.time.day))) ++
    optField 2 num2 (now s.time.minute)

/-- R114: the items at or above a cursor, eight to a reply. -/
def readItems (items : List TableItem) (cursor : Nat) (s : State) : Answer :=
  let found := items.filter fun x => decide (cursor ≤ x.key)
  let listed := found.take 8
  let body := num1 listed.length ++ (listed.map TableItem.fields).flatten
  match found.drop 8, listed.getLast? with
  | _ :: _, some x => { state := s, outcome := .partly, fields := body ++ num2 (x.key + 1) ++ s.tableCounts }
  | _, _ => { state := s, outcome := .done, fields := body ++ s.tableCounts }

/-- R114: a READ TIMETABLE out of range gives BAD_VALUE. Its reply, like every other, gives the counts, the day types and the
present minute; it lists no items (log entry 10). -/
def refuseRead (s : State) : Answer := { state := s, outcome := .badValue, fields := s.tableCounts }

/-- READ TIMETABLE at its owner (R114). -/
def readTimetable (collection : Byte) (cursor : Half) (s : State) : Answer :=
  match s.tables.collection collection with
  | some (range, items) =>
    if range.1 ≤ cursor.toNat ∧ cursor.toNat ≤ range.2 then readItems items cursor.toNat s else refuseRead s
  | none => refuseRead s

/-- READ_TIMETABLE (R114). -/
def execReadTimetable (src : Source) (collection : Byte) (cursor : Half) (s : State) : Host.Outcome State Fault Refusal :=
  next (carryOut (.readTimetable src collection cursor) (readTimetable collection cursor) s)

/-! ### SET CUE, CUT CUE -/

/-- R104: the duration clamped to 1 to 720 minutes. -/
def clampDuration (d : Nat) : Nat := max 1 (min 720 d)

/-- A cue table entry in its place in (cue number, group) order, replacing one of its pair (R104). -/
def insertCue (e : CueEntry) : List CueEntry → List CueEntry
  | [] => [e]
  | x :: xs => if e.key < x.key then e :: x :: xs else if e.key = x.key then e :: xs else x :: insertCue e xs

/-- R104: a cue entry whose values are in range. -/
def setCueChecked (e : CueEntry) (s : State) : Answer :=
  let t := s.tables
  if (t.cues.any fun x => x.key == e.key) || decide (t.cues.length < Config.cueCap) then
    { state := s.setTables { t with cues := insertCue e t.cues }, outcome := .done, fields := num2 e.duration }
  else refuse .noRoom s

/-- SET CUE at its owner (R104). -/
def setCue (cue group plan : Byte) (duration : Half) (priority : Byte) (s : State) : Answer :=
  match index? 16 group.toNat, tablePlan plan, priority? priority with
  | some g, some p, some pr =>
    if cue = 0#8 then refuse .badValue s else setCueChecked ⟨cue.toNat, g, p, clampDuration duration.toNat, pr⟩ s
  | _, _, _ => refuse .badValue s

/-- SET_CUE (R104). -/
def execSetCue (src : Source) (cue group plan : Byte) (duration : Half) (priority : Byte) (s : State) :
    Host.Outcome State Fault Refusal :=
  next (carryOut (.setCue src cue group plan duration priority) (setCue cue group plan duration priority) s)

/-- CUT CUE at its owner (R104). -/
def cutCue (cue group : Byte) (s : State) : Answer :=
  match index? 16 group.toNat with
  | none => refuse .badValue s
  | some g =>
    let t := s.tables
    let here := fun (x : CueEntry) => x.number == cue.toNat && x.group == g
    if cue = 0#8 then refuse .badValue s
    else if t.cues.any here then
      { state := s.setTables { t with cues := t.cues.filter fun x => !here x }, outcome := .done }
    else refuse .noSuch s

/-- CUT_CUE (R104). -/
def execCutCue (src : Source) (cue group : Byte) (s : State) : Host.Outcome State Fault Refusal :=
  next (carryOut (.cutCue src cue group) (cutCue cue group) s)

/-! ### DIRECT PLAN, END DIRECT -/

/-- R108: the direct selection that a DIRECT PLAN makes: no end for a duration of 0, else an end at the present R
and the duration, clamped to 1440 minutes. -/
def directGiven (plan duration : Nat) (t : TimeBase) : DirectSelection :=
  { plan := plan, endR := if duration = 0 then none else some (t.ref + Config.minuteDs * min 1440 duration) }

/-- DIRECT PLAN at its owner (R108). -/
def directPlan (group plan : Byte) (duration : Half) (s : State) : Answer :=
  match index? 16 group.toNat, tablePlan plan with
  | some g, some p =>
    if duration.toNat ≠ 0 ∧ !s.time.isSet then refuse .state s
    else changed s (s.tables.setDirect g (some (directGiven p duration.toNat s.time))) [g] []
  | _, _ => refuse .badValue s

/-- DIRECT_PLAN (R108). -/
def execDirectPlan (src : Source) (group plan : Byte) (duration : Half) (s : State) : Host.Outcome State Fault Refusal :=
  next (carryOut (.directPlan src group plan duration) (directPlan group plan duration) s)

/-- END DIRECT at its owner (R109). -/
def endDirect (group : Byte) (s : State) : Answer :=
  match index? 16 group.toNat with
  | none => refuse .badValue s
  | some g =>
    match s.tables.direct.get g with
    | none => refuse .noSuch s
    | some _ => changed s (s.tables.setDirect g none) [g] []

/-- END_DIRECT (R109). -/
def execEndDirect (src : Source) (group : Byte) (s : State) : Host.Outcome State Fault Refusal :=
  next (carryOut (.endDirect src group) (endDirect group) s)

end Sys2Proof.Machine
end

