-- ==== Sys2Proof/Machine/RecordRequests.lean ====
section
/-! DEFINITION. The meanings of the record unit's requests (chapter 10). -/

namespace Sys2Proof.Machine

/-! ### SET RECORDING -/

/-- R170: a count choice, KEEP 0 or RESTART 1; true for RESTART. -/
def countChoice (b : Byte) : Option Bool :=
  match b.toNat with
  | 0 => some false
  | 1 => some true
  | _ => none

/-- R170's table: the count-down value after. -/
def countDownAfter (reload old : Nat) (restart : Bool) : Nat :=
  if reload = 0 then 0 else if restart then reload else if 0 < old then old else reload

/-- R170: the record unit with a new filter and reload value. -/
def RecordUnit.recording (u : RecordUnit) (filter : SlotSet) (reload : Nat) (restart : Bool) : RecordUnit :=
  { u with filter := filter, reload := reload, countDown := countDownAfter reload u.countDown restart }

/-- R170: the recording flag of each slot that is not UNUSED follows the filter. -/
def State.mirrorFilter (s : State) (filter : SlotSet) : State :=
  (List.finRange 64).foldl (fun s i =>
    if (s.slot i).state = .unused then s else s.setSlot i { s.slot i with recording := slotIn filter i }) s

/-- SET RECORDING at its owner (R170). -/
def setRecording (filter : SlotSet) (reload choice : Byte) (s : State) : Answer :=
  match countChoice choice with
  | none => refuse .badValue s
  | some restart =>
    let u := s.records.recording filter reload.toNat restart
    { state := (s.setRecords u).mirrorFilter filter, outcome := .done,
      fields := setBytes u.filter ++ num1 u.reload ++ num1 u.countDown }

/-- SET_RECORDING (R170). -/
def execSetRecording (src : Source) (filter : SlotSet) (reload choice : Byte) (s : State) :
    Host.Outcome State Fault Refusal :=
  next (carryOut (.setRecording src filter reload choice) (setRecording filter reload choice) s)

/-! ### READ RECORDS -/

/-- Table 12-8: the 24 bytes of a transition record. -/
def TransitionRecord.fields (r : TransitionRecord) : List Byte :=
  num1 r.slot.val ++ num2 r.intersection ++ num1 r.fromPlan ++ num1 r.toPlan ++ num1 (causeCode r.cause) ++
    r.start.fields ++ r.stop.fields ++ num1 r.used ++ num1 (directionCode r.dir) ++ num2 r.total ++
    num1 (recordOutcomeCode r.outcome) ++ transitionFlags r.forced r.lateSeen r.missSeen

/-- R169, section 12.6: the reply fields of records returned with the unit as it then stands. -/
def RecordUnit.readFields (u : RecordUnit) (taken : List TransitionRecord) : List Byte :=
  num1 taken.length ++ num1 u.ring.length ++ num2 u.overwrites ++ num1 u.countDown ++
    (taken.map TransitionRecord.fields).flatten

/-- READ RECORDS at its owner (R169). -/
def readRecords (maximum : Byte) (s : State) : Answer :=
  if maximum = 0#8 ∨ 6 < maximum.toNat then refuse .badValue s
  else
    let u := { s.records with ring := s.records.ring.drop maximum.toNat }
    { state := s.setRecords u, outcome := if u.ring.isEmpty then .done else .partly,
      fields := u.readFields (s.records.ring.take maximum.toNat) }

/-- READ_RECORDS (R169). -/
def execReadRecords (src : Source) (maximum : Byte) (s : State) : Host.Outcome State Fault Refusal :=
  next (carryOut (.readRecords src maximum) (readRecords maximum) s)

/-! ### READ NOTICES, SET NOTICE MASK -/

/-- READ NOTICES at its owner (R172). -/
def readNotices (s : State) : Answer :=
  { state := s.setRecords { s.records with notices := 0#15 }, outcome := .done, fields := noticeBytes s.records.notices }

/-- READ_NOTICES (R172). -/
def execReadNotices (src : Source) (s : State) : Host.Outcome State Fault Refusal :=
  next (carryOut (.readNotices src) readNotices s)

/-- SET NOTICE MASK at its owner (R173). -/
def setNoticeMask (mask : Half) (s : State) : Answer :=
  let u := s.records.setMask mask
  { state := s.setRecords u, outcome := .done, fields := noticeBytes u.mask ++ noticeBytes u.notices }

/-- SET_NOTICE_MASK (R173). -/
def execSetNoticeMask (src : Source) (mask : Half) (s : State) : Host.Outcome State Fault Refusal :=
  next (carryOut (.setNoticeMask src mask) (setNoticeMask mask) s)

end Sys2Proof.Machine
end

