-- ==== Sys2Proof/Machine/PlanRequests.lean ====
section
/-! DEFINITION. The meanings of the plan store's requests (chapter 4). -/

namespace Sys2Proof.Machine

/-! ### LOAD PLAN -/

/-- A phase entry's numbers. -/
def phaseOf (e : PhaseEntry) : Phase := ⟨e.id.toNat, e.split.toNat, e.minimum.toNat⟩

/-- R64: the plan that a LOAD PLAN gives, its percentages clamped to 25 and 50. -/
def planGiven (cycle offset : Half) (shortPct longPct coord : Byte) (phases : List PhaseEntry) : Plan :=
  { cycle := cycle.toNat, offset := offset.toNat, shortPct := min 25 shortPct.toNat, longPct := min 50 longPct.toNat,
    coord := coord.toNat, phases := phases.map phaseOf }

/-- R64, check 2: one phase entry. -/
def Phase.fits (p : Phase) : Bool :=
  decide (1 ≤ p.id ∧ p.id ≤ 8) && decide (40 ≤ p.minimum ∧ p.minimum ≤ p.split)

/-- R64, check 2: the values of a plan. -/
def Plan.valuesFit (p : Plan) : Bool :=
  decide (300 ≤ p.cycle ∧ p.cycle ≤ 2400) && decide (p.offset < p.cycle) &&
    decide (2 ≤ p.phases.length ∧ p.phases.length ≤ 8) && p.phases.all Phase.fits &&
    decide ((p.phases.map Phase.id).Nodup) && decide (1 ≤ p.coord ∧ p.coord ≤ p.phases.length)

/-- R64, check 3: the splits sum to C. -/
def Plan.sumsFit (p : Plan) : Bool := (p.phases.map Phase.split).sum == p.cycle

/-- A plan number that names a plan, 1 to 250 (Table 4-1). -/
def planNumber (b : Byte) : Bool := decide (1 ≤ b.toNat ∧ b.toNat ≤ 250)

/-- R61: a new record or shadow written in a location, NORMAL and with fresh check bits. -/
def PlanStore.occupy (st : PlanStore) (num : Nat) (occ : Occupancy) (i : Fin 64) (plan : Nat) (p : Plan) : PlanStore :=
  st.put { num := num, occupancy := occ, slot := i, plan := plan, faulted := false, link := none,
           words := st.writeImage num (planImage i plan p num) }

/-- R66, R67: a location overwritten in place: fresh check bits and no FAULTED mark; key, role and link stand. -/
def PlanStore.overwrite (st : PlanStore) (l : Location) (p : Plan) : PlanStore :=
  st.put { l with faulted := false, words := st.writeImage l.num (planImage l.slot l.plan p l.num) }

/-- What a placed plan gives: the store, the location written and its role. -/
structure Placed where
  store : PlanStore
  num : Nat
  role : Occupancy
  deriving DecidableEq, Repr

/-- R67: the plan becomes the shadow of record `r`. -/
def PlanStore.loadShadow (st : PlanStore) (r : Location) (p : Plan) : Option Placed :=
  match st.shadowOf r.slot r.plan with
  | some sh => some ⟨st.overwrite sh p, sh.num, .shadow⟩
  | none => st.lowestFree.map fun n => ⟨(st.occupy n .shadow r.slot r.plan p).put { r with link := some n }, n, .shadow⟩

/-- R65, R66, R67: where a plan that passes the checks goes; none when no location is free. `current` says that the
key's plan is its slot's current plan. -/
def PlanStore.load (st : PlanStore) (i : Fin 64) (plan : Nat) (current : Bool) (p : Plan) : Option Placed :=
  match st.recordOf i plan with
  | none => st.lowestFree.map fun n => ⟨st.occupy n .record i plan p, n, .record⟩
  | some r => if current then st.loadShadow r p else some ⟨st.overwrite r p, r.num, .record⟩

/-- The code of a part or role: RECORD 0, SHADOW 1 (R68, R70, Table 12-4). -/
def partCode : Occupancy → Nat
  | .record => 0
  | .shadow => 1

/-- The pin reasons of a key's record (R63); a key with no record holds none. -/
def State.keyPins (s : State) (i : Fin 64) (plan : Nat) : List Byte :=
  match s.store.recordOf i plan with
  | some r => s.pinByte r
  | none => num1 0

/-- R64 to R68: a LOAD PLAN whose numbers and values passed the first two checks. -/
def loadChecked (i : Fin 64) (plan : Nat) (p : Plan) (s : State) : Answer :=
  if !p.sumsFit then refuse .badPlan s
  else if (s.slot i).state = .unused then refuse .noSuch s
  else
    match s.store.load i plan (s.pinCurrent i plan) p with
    | none => refuse .noRoom s
    | some w =>
      let s1 := s.setStore w.store
      { state := s1, outcome := .done,
        fields := num2 w.num ++ num1 (partCode w.role) ++ num1 p.shortPct ++ num1 p.longPct ++ s1.keyPins i plan }

/-- LOAD PLAN at its owner (R64). -/
def loadPlan (slot plan : Byte) (p : Plan) (s : State) : Answer :=
  match index? 64 slot.toNat with
  | none => refuse .badValue s
  | some i => if planNumber plan && p.valuesFit then loadChecked i plan.toNat p s else refuse .badValue s

/-- LOAD_PLAN (R64). -/
def execLoadPlan (src : Source) (slot plan : Byte) (cycle offset : Half) (shortPct longPct coord : Byte)
    (phases : List PhaseEntry) (s : State) : Host.Outcome State Fault Refusal :=
  next (carryOut (.loadPlan src slot plan cycle offset shortPct longPct coord phases)
    (loadPlan slot plan (planGiven cycle offset shortPct longPct coord phases)) s)

/-! ### DROP PLAN -/

/-- The part that a code names (R70, R186). -/
def partOfCode (b : Byte) : Option Occupancy :=
  match b.toNat with
  | 0 => some .record
  | 1 => some .shadow
  | _ => none

/-- R70: the record is dropped. -/
def dropRecord (i : Fin 64) (plan : Nat) (s : State) : Answer :=
  match s.store.recordOf i plan with
  | none => refuse .noSuch s
  | some r =>
    if s.pinned r then refuse .inUse s else { state := s.setStore (s.store.free r.num), outcome := .done }

/-- R70: the shadow is dropped, and its record's link is cleared. -/
def dropShadow (i : Fin 64) (plan : Nat) (s : State) : Answer :=
  match s.store.recordOf i plan, s.store.shadowOf i plan with
  | some r, some sh => { state := s.setStore ((s.store.free sh.num).put { r with link := none }), outcome := .done }
  | _, _ => refuse .noSuch s

/-- DROP PLAN at its owner (R70). -/
def dropPlan (slot plan part : Byte) (s : State) : Answer :=
  match index? 64 slot.toNat, partOfCode part with
  | some i, some o =>
    if planNumber plan then
      match o with
      | .record => dropRecord i plan.toNat s
      | .shadow => dropShadow i plan.toNat s
    else refuse .badValue s
  | _, _ => refuse .badValue s

/-- DROP_PLAN (R70). -/
def execDropPlan (src : Source) (slot plan part : Byte) (s : State) : Host.Outcome State Fault Refusal :=
  next (carryOut (.dropPlan src slot plan part) (dropPlan slot plan part) s)

/-! ### READ PLAN -/

/-- A phase entry in a reply: id, split, minimum (R72). Of an id word above 255, which only a miscorrected image holds, the
low byte is given: DESIGN CHOICE (log entry 21). -/
def Phase.fields (p : Phase) : List Byte := num1 p.id ++ num2 p.split ++ num2 p.minimum

/-- The plan fields of a reply, in the order of Table 4-1 (R72). -/
def Plan.fields (p : Plan) : List Byte :=
  num2 p.cycle ++ num2 p.offset ++ num1 p.shortPct ++ num1 p.longPct ++ num1 p.coord ++
    num1 p.phases.length ++ (p.phases.map Phase.fields).flatten

/-- A READ PLAN answer: its fields, then the store summary as it then stands (R72, R73). -/
def withSummary (s : State) (o : RequestOutcome) (fields : List Byte) : Answer :=
  { state := s, outcome := o, fields := fields ++ s.store.summary }

/-- R72: the location of a key's record or shadow. -/
def PlanStore.partOf (st : PlanStore) (i : Fin 64) (plan : Nat) : Occupancy → Option Location
  | .record => st.recordOf i plan
  | .shadow => st.shadowOf i plan

/-- R63, R72: the pin reasons of what was read: a shadow itself carries none. -/
def State.readPins (s : State) (l : Location) : List Byte :=
  match l.occupancy with
  | .record => s.pinByte l
  | .shadow => num1 0

/-- R72: an occupied location is read. -/
def readHeld (l : Location) (s : State) : Answer :=
  if l.faulted then withSummary s .faulted (num2 l.num)
  else
    match s.readLocation l with
    | (s1, some image) =>
      withSummary s1 .done ((imagePlan image).fields ++ num2 l.num ++ s.readPins l ++
        flag1 (s.store.shadowOf l.slot l.plan).isSome)
    | (s1, none) => withSummary s1 .faulted (num2 l.num)

/-- R73: the number of records of a slot, and of those with a shadow. -/
def PlanStore.recordCounts (st : PlanStore) (i : Fin 64) : List Byte :=
  let rs := st.held.filter fun l => l.occupancy == .record && l.slot == i
  num1 rs.length ++ num1 (rs.countP fun l => l.link.isSome)

/-- R72, R73: a READ PLAN whose numbers are in range. -/
def readChecked (i : Fin 64) (plan : Nat) (o : Occupancy) (s : State) : Answer :=
  if plan = 0 then
    { state := s, outcome := .done, fields := s.store.summary ++ s.store.recordCounts i }
  else
    match s.store.partOf i plan o with
    | none => withSummary s .noSuch []
    | some l => readHeld l s

/-- READ PLAN at its owner (R72, R73). -/
def readPlan (slot plan part : Byte) (s : State) : Answer :=
  match index? 64 slot.toNat, partOfCode part with
  | some i, some o => if plan.toNat ≤ 250 then readChecked i plan.toNat o s else withSummary s .badValue []
  | _, _ => withSummary s .badValue []

/-- READ_PLAN (R72). -/
def execReadPlan (src : Source) (slot plan part : Byte) (s : State) : Host.Outcome State Fault Refusal :=
  next (carryOut (.readPlan src slot plan part) (readPlan slot plan part) s)

end Sys2Proof.Machine
end

