-- ==== Sys2Proof/Machine/TestRequests.lean ====
section
/-! DEFINITION. The meanings of the integrity test unit's requests (chapter 11). -/

namespace Sys2Proof.Machine

/-! ### CHECKSUM PLANS -/

/-- What a checksum has so far: the state, the running sum and the counts of R176. -/
structure Checksum where
  state : State
  sum : Nat
  read : Nat
  faulted : Nat
  fixed : Nat

/-- R177: the sum of an image's words. -/
def imageSum (image : List Half) : Nat := (image.map BitVec.toNat).sum

/-- R176, R177: one location is taken. -/
def Checksum.step (c : Checksum) (n : Nat) : Checksum :=
  match c.state.store.at? n with
  | none => c
  | some l =>
    if l.faulted then { c with faulted := c.faulted + 1 }
    else
      let fixed := (c.state.store.read l).fixed
      match c.state.readLocation l with
      | (s1, some image) =>
        { c with state := s1, sum := (c.sum + imageSum image) % 65536, read := c.read + 1, fixed := c.fixed + fixed }
      | (s1, none) => { c with state := s1, read := c.read + 1, faulted := c.faulted + 1 }

/-- R176: the count of locations that one request takes. -/
def checksumTaken (first last : Nat) : Nat := min 64 (last + 1 - first)

/-- R176: the locations taken, in ascending order. -/
def checksumRun (first last sum : Nat) (s : State) : Checksum :=
  ((List.range (checksumTaken first last)).map (first + ·)).foldl Checksum.step
    { state := s, sum := sum, read := 0, faulted := 0, fixed := 0 }

/-- CHECKSUM PLANS at its owner (R176). -/
def checksumPlans (first last sum : Nat) (s : State) : Answer :=
  if Config.locations ≤ first ∨ Config.locations ≤ last ∨ last < first then refuse .badValue s
  else
    let c := checksumRun first last sum s
    let taken := checksumTaken first last
    let counts := num1 taken ++ num1 c.read ++ num1 c.faulted ++ num2 c.fixed
    if first + taken = last + 1 then { state := c.state, outcome := .done, fields := num2 c.sum ++ counts }
    else { state := c.state, outcome := .partly, fields := num2 c.sum ++ num2 (first + 64) ++ counts }

/-- CHECKSUM_PLANS (R176). -/
def execChecksumPlans (src : Source) (first last sum : Half) (s : State) : Host.Outcome State Fault Refusal :=
  next (carryOut (.checksumPlans src first last sum) (checksumPlans first.toNat last.toNat sum.toNat) s)

/-! ### TEST LOCATION -/

/-- R179: the word that a pattern writes at a word index. -/
def patternWord (num pattern word : Nat) : CodeWord :=
  .fresh (match pattern with
    | 1 => 0x5555#16
    | 2 => 0xAAAA#16
    | _ => BitVec.ofNat 16 (num * 32 + word))

/-- R179: the error code of a word read back that is not what was written. -/
def classify (read : CodeWord) : TestError :=
  match read.finding with
  | .clean => .data
  | .corrected _ true => .check
  | .corrected _ false => .data
  | .uncorrectable => .detect

/-- A word that did not pass. -/
structure TestFailure where
  pattern : Nat
  word : Nat
  error : TestError
  dataDiff : Half
  checkDiff : BitVec 6
  deriving DecidableEq, Repr

/-- R179: one word of one pattern, written, read back and compared. -/
def PlanStore.testWord (st : PlanStore) (num pattern word : Nat) : Option TestFailure :=
  let w := patternWord num pattern word
  let r := st.cellsOf num word w
  if r = w then none else some ⟨pattern, word, classify r, w.data ^^^ r.data, w.check ^^^ r.check⟩

/-- R179: the first word that does not pass, pattern after pattern and word after word. -/
def PlanStore.firstFailure (st : PlanStore) (num : Nat) : Option TestFailure :=
  [1, 2, 3].findSome? fun pattern => (List.range Config.imageWords).findSome? fun word => st.testWord num pattern word

/-- R178: a location that a test may not touch: a shadow, or a record with a pin reason. -/
def State.testInUse (s : State) (l : Location) : Bool :=
  match l.occupancy with
  | .shadow => true
  | .record => s.pinned l

/-- R179: the copied words written back, without fresh check bits; a free location's are all zero. -/
def PlanStore.restore (st : PlanStore) (l : Location) : PlanStore :=
  st.put { l with words := st.writeWords l.num l.words }

/-- The occupancy of a location in a reply: free 0, record 1, shadow 2 (section 4.2's list, Table 12-4). -/
def occupancyCode : Option Location → Nat
  | none => 0
  | some l =>
    match l.occupancy with
    | .record => 1
    | .shadow => 2

/-- The fields of the log-out record, in the order of R180. Table 12-4 has no row for pattern, word index, data difference
and check difference: one byte, one byte, two bytes and one byte, a DESIGN CHOICE (log entry 10). -/
def LogOut.fields (l : LogOut) : List Byte :=
  num2 l.num ++ num1 (testErrorCode l.error) ++ num1 l.pattern ++ num1 l.word ++ halfBytes l.dataDiff ++
    num1 l.checkDiff.toNat ++ l.stamp.fields

/-- R180: the log-out record of a failure. -/
def TestFailure.logOut (f : TestFailure) (num : Nat) (stamp : Stamp) : LogOut :=
  { num := num, error := f.error, pattern := f.pattern, word := f.word, dataDiff := f.dataDiff, checkDiff := f.checkDiff,
    stamp := stamp }

/-- R179: the test of a location that may be tested. On FAIL the log-out record follows the result byte with no presence byte,
and on PASS nothing stands for it: DESIGN CHOICE (log entry 10). -/
def runTest (num : Nat) (s : State) : Answer :=
  let l := s.store.at? num
  let head := num2 num ++ num1 (occupancyCode l)
  let s1 :=
    match l with
    | some l => s.setStore (s.store.restore l)
    | none => s
  match s.store.firstFailure num with
  | none => { state := s1, outcome := .done, fields := head ++ num1 0 }
  | some f =>
    let r := f.logOut num s.time.stamp
    { state := s1.setLogOut (some r), outcome := .done, fields := head ++ num1 1 ++ r.fields }

/-- TEST LOCATION at its owner (R178, R179). -/
def testLocation (num : Nat) (s : State) : Answer :=
  if Config.locations ≤ num then refuse .badValue s
  else
    match s.store.at? num with
    | some l => if s.testInUse l then refuse .inUse s else runTest num s
    | none => runTest num s

/-- TEST_LOCATION (R178). -/
def execTestLocation (src : Source) (location : Half) (s : State) : Host.Outcome State Fault Refusal :=
  next (carryOut (.testLocation src location) (testLocation location.toNat) s)

/-! ### FORCE CHECK -/

/-- R181: a check bit inverted. -/
def CodeWord.flipCheck (w : CodeWord) (bit : Nat) : CodeWord := { w with check := w.check ^^^ (1#6 <<< bit) }

/-- The check bits that a FORCE CHECK names: the first, and the second unless it is 0xFF (R181, section 12.3). -/
def bitsNamed (bit1 bit2 : Byte) : List Nat := if bit2 = 0xFF#8 then [bit1.toNat] else [bit1.toNat, bit2.toNat]

/-- R181: the numbers of a FORCE CHECK are in range. -/
def forceFits (num word : Nat) (bit1 bit2 : Byte) : Bool :=
  decide (num < Config.locations) && decide (word < Config.imageWords) &&
    (bitsNamed bit1 bit2).all (fun b => decide (b ≤ 5)) && bit1 != bit2

/-- R181: the named check bits of the named word of a location are inverted in place. -/
def Location.flip (l : Location) (st : PlanStore) (word : Nat) (bits : List Nat) : Location :=
  { l with words := l.words.modify word fun w => st.cellsOf l.num word (bits.foldl CodeWord.flipCheck w) }

/-- The scrubber's state and position (R181). -/
def PlanStore.scrubFields (st : PlanStore) : List Byte := st.scrubByte ++ num2 st.scrubPos

/-- FORCE CHECK at its owner (R181). -/
def forceCheck (num word : Nat) (bit1 bit2 : Byte) (s : State) : Answer :=
  if !forceFits num word bit1 bit2 then refuse .badValue s
  else
    match s.store.at? num with
    | none => refuse .noSuch s
    | some l =>
      if l.faulted then refuse .faulted s
      else
        let st := { s.store.put (l.flip s.store word (bitsNamed bit1 bit2)) with scrubOn := false }
        { state := s.setStore st, outcome := .done, fields := st.scrubFields }

/-- FORCE_CHECK (R181). -/
def execForceCheck (src : Source) (location : Half) (word bit1 bit2 : Byte) (s : State) : Host.Outcome State Fault Refusal :=
  next (carryOut (.forceCheck src location word bit1 bit2) (forceCheck location.toNat word.toNat bit1 bit2) s)

/-! ### SCRUB CONTROL and READ LOGOUT -/

/-- R182: the scrubber state set. -/
def scrubSet (on : Bool) (s : State) : Answer :=
  let st := { s.store with scrubOn := on }
  { state := s.setStore st, outcome := .done, fields := st.scrubFields ++ num2 st.passes }

/-- SCRUB CONTROL at its owner (R182): ON is 0, OFF is 1. -/
def scrubControl (code : Byte) (s : State) : Answer :=
  match code.toNat with
  | 0 => scrubSet true s
  | 1 => scrubSet false s
  | _ => refuse .badValue s

/-- SCRUB_CONTROL (R182). -/
def execScrubControl (src : Source) (code : Byte) (s : State) : Host.Outcome State Fault Refusal :=
  next (carryOut (.scrubControl src code) (scrubControl code) s)

/-- READ LOGOUT at its owner (R180). -/
def readLogout (s : State) : Answer :=
  { state := s, outcome := .done, fields := optField 14 LogOut.fields s.logOut }

/-- READ_LOGOUT (R180). -/
def execReadLogout (src : Source) (s : State) : Host.Outcome State Fault Refusal :=
  next (carryOut (.readLogout src) readLogout s)

end Sys2Proof.Machine
end

