-- ==== Sys2Proof/Machine/Dispatch.lean ====
section
/-! DEFINITION. The meaning of every command: one direct call for each constructor of Instr. -/

namespace Sys2Proof.Machine

def exec (i : Instr) (s : State) : Host.Outcome State Fault Refusal :=
  match i with
  | .tick order => Sys2Proof.Machine.execTick order s
  | .holdoverEntry => Sys2Proof.Machine.execHoldoverEntry s
  | .transitionLimitReached group => Sys2Proof.Machine.execTransitionLimitReached group s
  | .eventEntryEnd id => Sys2Proof.Machine.execEventEntryEnd id s
  | .cueExpiry group => Sys2Proof.Machine.execCueExpiry group s
  | .directExpiry group => Sys2Proof.Machine.execDirectExpiry group s
  | .timeMark station hops body => Sys2Proof.Machine.execTimeMark station hops body s
  | .cue station hops body => Sys2Proof.Machine.execCue station hops body s
  | .cueCancel station hops body => Sys2Proof.Machine.execCueCancel station hops body s
  | .request station hops body => Sys2Proof.Machine.execRequest station hops body s
  | .trunkFrame port line => Sys2Proof.Machine.execTrunkFrame port line s
  | .trunkTransmitEnd port => Sys2Proof.Machine.execTrunkTransmitEnd port s
  | .heldReplyPlaced => Sys2Proof.Machine.execHeldReplyPlaced s
  | .restartEffect pins => Sys2Proof.Machine.execRestartEffect pins s
  | .unknownRequestCode src code params => Sys2Proof.Machine.execUnknownRequestCode src code params s
  | .readTime src => Sys2Proof.Machine.execReadTime src s
  | .setDay src day => Sys2Proof.Machine.execSetDay src day s
  | .defineSlot src slot intersection port drop group divider mode => Sys2Proof.Machine.execDefineSlot src slot intersection port drop group divider mode s
  | .releaseSlot src slot => Sys2Proof.Machine.execReleaseSlot src slot s
  | .readSlot src slot => Sys2Proof.Machine.execReadSlot src slot s
  | .loadPlan src slot plan cycle offset shortPct longPct coord phases => Sys2Proof.Machine.execLoadPlan src slot plan cycle offset shortPct longPct coord phases s
  | .dropPlan src slot plan part => Sys2Proof.Machine.execDropPlan src slot plan part s
  | .readPlan src slot plan part => Sys2Proof.Machine.execReadPlan src slot plan part s
  | .setGroup src group defaultPlan policy mode tol limit => Sys2Proof.Machine.execSetGroup src group defaultPlan policy mode tol limit s
  | .readGroup src group cursor => Sys2Proof.Machine.execReadGroup src group cursor s
  | .setCalendar src day action dayType => Sys2Proof.Machine.execSetCalendar src day action dayType s
  | .addBase src group mask start plan mode => Sys2Proof.Machine.execAddBase src group mask start plan mode s
  | .addEvent src group startDay startMinute endDay endMinute plan priority mode => Sys2Proof.Machine.execAddEvent src group startDay startMinute endDay endMinute plan priority mode s
  | .cutEntry src kind id => Sys2Proof.Machine.execCutEntry src kind id s
  | .readTimetable src collection cursor => Sys2Proof.Machine.execReadTimetable src collection cursor s
  | .setCue src cue group plan duration priority => Sys2Proof.Machine.execSetCue src cue group plan duration priority s
  | .cutCue src cue group => Sys2Proof.Machine.execCutCue src cue group s
  | .directPlan src group plan duration => Sys2Proof.Machine.execDirectPlan src group plan duration s
  | .endDirect src group => Sys2Proof.Machine.execEndDirect src group s
  | .setPort src port window clear => Sys2Proof.Machine.execSetPort src port window clear s
  | .readPort src port => Sys2Proof.Machine.execReadPort src port s
  | .setHoldMap src line map => Sys2Proof.Machine.execSetHoldMap src line map s
  | .clearOverride src slot => Sys2Proof.Machine.execClearOverride src slot s
  | .readStation src clear => Sys2Proof.Machine.execReadStation src clear s
  | .restartWarm src pins => Sys2Proof.Machine.execRestartWarm src pins s
  | .restartCold src => Sys2Proof.Machine.execRestartCold src s
  | .setRecording src filter reload choice => Sys2Proof.Machine.execSetRecording src filter reload choice s
  | .readRecords src maximum => Sys2Proof.Machine.execReadRecords src maximum s
  | .readNotices src => Sys2Proof.Machine.execReadNotices src s
  | .setNoticeMask src mask => Sys2Proof.Machine.execSetNoticeMask src mask s
  | .checksumPlans src first last sum => Sys2Proof.Machine.execChecksumPlans src first last sum s
  | .testLocation src location => Sys2Proof.Machine.execTestLocation src location s
  | .forceCheck src location word bit1 bit2 => Sys2Proof.Machine.execForceCheck src location word bit1 bit2 s
  | .scrubControl src state => Sys2Proof.Machine.execScrubControl src state s
  | .readLogout src => Sys2Proof.Machine.execReadLogout src s
  | .exchangeStart port => Sys2Proof.Machine.execExchangeStart port s
  | .fieldTransmitEnd port line => Sys2Proof.Machine.execFieldTransmitEnd port line s
  | .status port drop intersection plan count override elapsed line => Sys2Proof.Machine.execStatus port drop intersection plan count override elapsed line s
  | .badFrame port bytes elapsed line => Sys2Proof.Machine.execBadFrame port bytes elapsed line s
  | .responseWindowExpiry port line => Sys2Proof.Machine.execResponseWindowExpiry port line s
  | .lineBlocked port => Sys2Proof.Machine.execLineBlocked port s
  | .lineFreed port => Sys2Proof.Machine.execLineFreed port s
  | .holdActivationEdge line => Sys2Proof.Machine.execHoldActivationEdge line s
  | .holdReleaseEdge line => Sys2Proof.Machine.execHoldReleaseEdge line s
  | .countDownZero => Sys2Proof.Machine.execCountDownZero s
  | .resetAssert => Sys2Proof.Machine.execResetAssert s
  | .resetRelease straps pins => Sys2Proof.Machine.execResetRelease straps pins s

end Sys2Proof.Machine
end

