-- ==== Sys2Proof/Safety.lean ====
section
/-! DEFINITION. The terms of the claims: frames by block, the reply to a request, and what every step keeps. -/

namespace Sys2Proof.Machine

/-! ### Frames -/

/-- The blocks of the state. -/
inductive Block where
  | time
  | slots
  | holds
  | groups
  | members
  | tables
  | store
  | ports
  | trunk
  | mgmt
  | records
  | logOut
  | freeReads
  deriving DecidableEq, Repr

/-- One block reads the same in both states. -/
def State.agreesOn (s t : State) : Block → Prop
  | .time => t.time = s.time
  | .slots => t.slots = s.slots
  | .holds => t.holds = s.holds
  | .groups => t.groups = s.groups
  | .members => t.members = s.members
  | .tables => t.tables = s.tables
  | .store => t.store = s.store
  | .ports => t.ports = s.ports
  | .trunk => t.trunk = s.trunk
  | .mgmt => t.mgmt = s.mgmt
  | .records => t.records = s.records
  | .logOut => t.logOut = s.logOut
  | .freeReads => t.freeReads = s.freeReads

/-- From `s` to `t` nothing changes outside the named blocks; the queue of commands and RESET stand. -/
def State.changesOnly (s t : State) (bs : List Block) : Prop :=
  t.pending = s.pending ∧ t.resetAsserted = s.resetAsserted ∧ ∀ b, b ∉ bs → s.agreesOn t b

/-- What the slot engine's and the group coordinator's own events can change (R18, R81). -/
def Block.engine : List Block := [.slots, .groups, .members, .store, .ports, .records]

/-- From `s` to `t` every slot but one reads the same. -/
def State.otherSlotsStand (s t : State) (i : Fin 64) : Prop := ∀ j, j ≠ i → t.slot j = s.slot j

/-- From `s` to `t` every port but one reads the same. -/
def State.otherPortsStand (s t : State) (p : Fin 4) : Prop := ∀ q, q ≠ p → t.port q = s.port q

/-- From `s` to `t` the record unit changes in its pending set only. -/
def State.onlyNotices (s t : State) : Prop := t.records = { s.records with notices := t.records.notices }

/-- A notice kind that is not masked is pending in `t` (R171). -/
def State.notified (s t : State) (k : Notice) : Prop :=
  noticeIn s.records.mask k = false → noticeIn t.records.notices k = true

/-! ### Requests and frames -/

/-- The engine carries out the addressed request of command `i` now, and A-out has room for its reply (R158). The request is the one
in progress, or it meets an IDLE engine with an empty queue, which takes it with the command itself (State.carries; log
entry 12). -/
def State.readyFor (s : State) (i : Instr) (r : Request) : Prop :=
  encodeRequest i = some r ∧ s.carries r = true ∧ r.src.broadcast = false ∧ s.trunk.aOut.frames.length < 8

/-- The engine carries out the request of command `i` now: an addressed one as in State.readyFor, or a broadcast one, which has no
reply (R158; log entry 12). -/
def State.readyForAny (s : State) (i : Instr) (r : Request) : Prop :=
  encodeRequest i = some r ∧ s.carries r = true ∧ (r.src.broadcast = false → s.trunk.aOut.frames.length < 8)

/-- R159: the reply with an outcome and reply fields, with `notices` as its notice summary. -/
def State.replyTo (s : State) (r : Request) (o : RequestOutcome) (notices : BitVec 15) (fields : List Byte) : TrunkFrame :=
  .make 0x11#8 (s.trunk.station.getD 0#8) 0x3F#8
    (halfBytes r.src.tag ++ [r.code, BitVec.ofNat 8 (outcomeCode o)] ++ noticeBytes notices ++ fields)

/-- From `s` to `t` request `r` has been answered: its reply stands at the tail of A-out, with the pending set of `t` as
its summary (R159), and the engine is IDLE and has taken the next request. A broadcast request has no reply (R158). -/
def State.answered (s t : State) (r : Request) (o : RequestOutcome) (fields : List Byte) : Prop :=
  t.trunk = (if r.src.broadcast = true then s.trunk
    else { s.trunk with aOut :=
      { s.trunk.aOut with frames := s.trunk.aOut.frames ++ [s.replyTo r o t.records.notices fields] } }) ∧
  t.mgmt = ({ s.mgmt with engine := .idle } : Management).takeNext

/-- Request `r` is answered with a refusal, and nothing else changes (R160). -/
def State.refusedWith (s t : State) (r : Request) (o : RequestOutcome) : Prop :=
  s.answered t r o [] ∧ s.changesOnly t [.trunk, .mgmt]

/-- R151, R152: from `s` to `t` an accepted frame of port A has been passed on toward port B with its hops lowered and a fresh
CRC, or dropped with TRUNK_DROP where B-out is full; or its hops had run out, which is counted. -/
def State.passedOn (s t : State) (f : TrunkFrame) : Prop :=
  let hops := f.hops.toNat % 64
  (hops = 0 → t.trunk.bOut = s.trunk.bOut ∧ t.trunk.countsA.hopExpiries = min 65535 (s.trunk.countsA.hopExpiries + 1)) ∧
  (0 < hops → t.trunk.countsA.hopExpiries = s.trunk.countsA.hopExpiries ∧
    (s.trunk.bOut.frames.length < 8 → t.trunk.bOut = { s.trunk.bOut with
      frames := s.trunk.bOut.frames ++ [.make f.kind f.station (BitVec.ofNat 8 (hops - 1)) f.body] }) ∧
    (8 ≤ s.trunk.bOut.frames.length → t.trunk.bOut = { s.trunk.bOut with drops := min 65535 (s.trunk.bOut.drops + 1) } ∧
      s.notified t .trunkDrop))

/-! ### Timetables and groups -/

/-- R85, R111: group `g` shows the selection of its tables at the present minute: its target, its layer, and its mode, the group's
default mode where the selecting entry has none. -/
def State.showsSelection (s : State) (g : Fin 16) : Prop :=
  let x := s.tables.select g (s.group g).defaultPlan s.time.day (s.time.nt / 600)
  (s.group g).target = x.plan ∧ (s.group g).layer = some x.layer ∧
    (s.group g).targetMode = some (x.mode.getD (s.group g).defaultMode)

/-- R112, R113: the tables have changed from `s` to `t`; while time is set the given groups then show the selections of the new
tables, and while it is unset nothing else changes. -/
def State.retabled (s t : State) (gs : List (Fin 16)) : Prop :=
  (s.time.disc = .unset → s.changesOnly t [.tables, .trunk, .mgmt]) ∧
    (s.time.disc ≠ .unset → (∀ g ∈ gs, t.showsSelection g) ∧ s.changesOnly t (.tables :: .trunk :: .mgmt :: Block.engine))

/-- A (day, minute) pair is at or before another (R101). -/
def pairAtOrBefore (d m d' m' : Nat) : Prop := d < d' ∨ (d = d' ∧ m ≤ m')

/-- An entry mode byte of a request that is known: a mode's code, or 0xFF when absent (section 12.3). -/
def knownMode (b : Byte) : Prop := b.toNat ≤ 3 ∨ b = 0xFF#8

/-! ### Plans and check bits -/

/-- R64, check 2: the values of a LOAD PLAN are legal. -/
def legalPlan (cycle offset : Half) (coord : Byte) (phases : List PhaseEntry) : Prop :=
  300 ≤ cycle.toNat ∧ cycle.toNat ≤ 2400 ∧ offset.toNat < cycle.toNat ∧ 2 ≤ phases.length ∧ phases.length ≤ 8 ∧
    (∀ e ∈ phases, 1 ≤ e.id.toNat ∧ e.id.toNat ≤ 8 ∧ 40 ≤ e.minimum.toNat ∧ e.minimum.toNat ≤ e.split.toNat) ∧
    (phases.map PhaseEntry.id).Nodup ∧ 1 ≤ coord.toNat ∧ coord.toNat ≤ phases.length

/-- R64, check 3: the splits of a LOAD PLAN sum to C. -/
def splitsSum (cycle : Half) (phases : List PhaseEntry) : Prop :=
  (phases.map fun e => e.split.toNat).sum = cycle.toNat

/-- R61: `n` is the lowest-numbered free location. -/
def PlanStore.lowestFreeIs (st : PlanStore) (n : Nat) : Prop :=
  n < 1024 ∧ (∀ l ∈ st.held, l.num ≠ n) ∧ ∀ m, m < n → ∃ l ∈ st.held, l.num = m

/-- R61: no location is free. -/
def PlanStore.full (st : PlanStore) : Prop := ∀ m, m < 1024 → ∃ l ∈ st.held, l.num = m

/-- A store in which `l` stands, and which is else as `st` but for the numbers in `ns`; corrected count and scrubber stand. -/
def PlanStore.becomes (st st' : PlanStore) (l : Location) (ns : List Nat) : Prop :=
  l ∈ st'.held ∧ (∀ m, m.num ∉ ns → (m ∈ st'.held ↔ m ∈ st.held)) ∧ st' = { st with held := st'.held }

/-- A location no word of which is beyond repair (R74). -/
def Location.sound (l : Location) : Prop := ∀ w ∈ l.words, w.finding ≠ .uncorrectable

/-- R74: how many words of a location a read corrects. -/
def Location.fixed (l : Location) : Nat :=
  l.words.countP fun w => match w.finding with | .corrected _ _ => true | _ => false

/-- R74: the data words that a sound read of a location gives. -/
def Location.readData (l : Location) : List Half :=
  l.words.map fun w => match w.finding with | .corrected d _ => d | _ => w.data

/-- R74: a location after a sound read, without stuck cells: each corrected word is written back with fresh check bits. -/
def Location.rewritten (l : Location) : Location :=
  { l with words := l.words.map fun w => match w.finding with | .corrected d _ => CodeWord.fresh d | _ => w }

/-- A location every word of which is clean (R74). -/
def Location.clean (l : Location) : Prop := ∀ w ∈ l.words, w.finding = .clean

/-- The data words of a location. -/
def Location.data (l : Location) : List Half := l.words.map CodeWord.data

/-- A word with cell `k` inverted: 0 to 15 are the data bits and 16 to 21 the check bits. -/
def CodeWord.flipCell (w : CodeWord) (k : Nat) : CodeWord :=
  if k < 16 then { w with data := w.data ^^^ (1#16 <<< k) } else { w with check := w.check ^^^ (1#6 <<< (k - 16)) }

/-! ### Slots, records and ports -/

/-- From `s` to `t` the records `xs` of slot `i` join the end of the ring, where the recording filter holds the slot and the ring
has room for them (R166, R167). -/
def State.recorded (s t : State) (i : Fin 64) (xs : List TransitionRecord) : Prop :=
  slotIn s.records.filter i = true → s.records.ring.length + xs.length ≤ 128 → t.records.ring = s.records.ring ++ xs

/-- R165: the record of open transition `r` of a slot, ended now on a plan with an outcome. -/
def State.endsAs (s : State) (i : Fin 64) (toPlan : Nat) (r : Transition) (o : RecordOutcome) : TransitionRecord :=
  ⟨i, (s.slot i).intersection, r.fromPlan, toPlan, r.cause, r.start, ⟨s.time.day, s.time.nt⟩, r.used, some r.dir, r.total, o,
    r.forced, r.lateSeen, r.missSeen⟩

/-- R24, R31: the record of no cycles that a slot in step, or a slot that joins, writes now. -/
def State.noCycles (s : State) (i : Fin 64) (fromPlan toPlan : Nat) (cause : Cause) : TransitionRecord :=
  let now : Stamp := ⟨s.time.day, s.time.nt⟩
  ⟨i, (s.slot i).intersection, fromPlan, toPlan, cause, now, now, 0, none, 0, .completed, false, false, false⟩

/-- R32: from `x` to `z` a miss of kind `k` is counted: the count of its kind, and in COORDINATED and TRANSITION the miss run. -/
def Slot.missCounted (x z : Slot) (k : MissKind) : Prop :=
  z.timeouts = (if k = .timeout then min 65535 (x.timeouts + 1) else x.timeouts) ∧
  z.addressMisses = (if k = .address then min 65535 (x.addressMisses + 1) else x.addressMisses) ∧
  z.contentMisses = (if k = .content then min 65535 (x.contentMisses + 1) else x.contentMisses) ∧
  z.lateSyncs = (if k = .lateSync then min 65535 (x.lateSyncs + 1) else x.lateSyncs) ∧
  z.missRun = (if x.state = .coordinated ∨ x.state = .transition then min 3 (x.missRun + 1) else x.missRun)

/-- R28, R32: an open transition that has seen a miss. -/
def Transition.afterMiss (r : Transition) (k : MissKind) : Transition :=
  { r with missSeen := true, lateSeen := r.lateSeen || k == .lateSync }

/-- R28, R32, R33: from `s` to `t` slot `i` has taken a miss of kind `k`: it is counted, marks an open transition, and the third in a
row makes a COORDINATED or TRANSITION slot LOST. -/
def State.missed (s t : State) (i : Fin 64) (k : MissKind) : Prop :=
  let x := s.slot i
  let z := t.slot i
  let counts : Prop := x.state = .coordinated ∨ x.state = .transition
  x.missCounted z k ∧ z.run = x.run ∧ z.current = x.current ∧ z.causes = x.causes ∧ z.lastOverride = x.lastOverride ∧
  (¬counts → z.state = x.state ∧ z.trans = x.trans ∧ t.records = s.records) ∧
  (counts → x.missRun < 2 →
    z.state = x.state ∧ z.trans = x.trans.map (·.afterMiss k) ∧ t.records = s.records) ∧
  (counts → 2 ≤ x.missRun → z.state = .lost ∧ z.trans = none ∧ s.notified t .slotLost ∧
    ∀ r, x.trans = some r → s.recorded t i [s.endsAs i x.current (r.afterMiss k) .lost])

/-- R136, R141 to R143, R120: from `s` to `t` cause `c` has joined the set of every defined slot that `reached` names and that did
not hold it. One that is OVERRIDDEN already sets its latch in LATCHED mode, one without a position takes the cause alone, and any other
enters OVERRIDDEN: its open transition ends with a record, in ascending slot order, its queued frame and its pending evaluation go, its
latch is set in LATCHED mode, OVERRIDE_ENTER is raised, and the member view shows it. -/
def State.causeJoined (s t : State) (c : OverrideCause) (reached : Fin 64 → Bool) : Prop :=
  let joins := fun i => reached i && (s.slot i).state != .unused && !causeIn (s.slot i).causes c
  let enters := fun i => joins i && (s.slot i).state != .overridden && !((s.slot i).state == .joining && (s.slot i).run.isNone)
  (∀ i, reached i = true → joins i = false → t.slot i = s.slot i) ∧
  (∀ i, joins i = true → causeIn (t.slot i).causes c = true ∧
    (∀ d, d ≠ c → causeIn (t.slot i).causes d = causeIn (s.slot i).causes d) ∧
    (enters i = false → t.slot i = { s.slot i with
      causes := (t.slot i).causes, latch := (s.slot i).latch || ((s.slot i).state == .overridden && (s.slot i).mode == .latched) }) ∧
    (enters i = true → t.slot i = { s.slot i with
        causes := (t.slot i).causes, state := .overridden, trans := none, pendingEval := none
        latch := (s.slot i).latch || (s.slot i).mode == .latched } ∧
      s.notified t .overrideEnter ∧ t.member i = (s.member i).map fun m => ⟨m.group, .overridden, (s.slot i).current⟩)) ∧
  (∀ p, t.port p = { s.port p with
    queue := (s.port p).queue.filter fun e => !(enters e.slot && (s.slot e.slot).port == p) }) ∧
  let ended := (List.finRange 64).filterMap fun i =>
    if enters i && slotIn s.records.filter i then (s.slot i).trans.map fun r => s.endsAs i (s.slot i).current r .overridden else none
  s.records.ring.length + ended.length ≤ 128 → t.records.ring = s.records.ring ++ ended

/-- R16, R38, R79, R94, R115, R133, R148, R163, R174, R183: from `s` to `t` every block has taken its values after RESET line
assertion and RESTART COLD, but for the frames of the out-queues, the line conditions and the levels of the hold lines. The strap
value, the stuck cells, the free reads and the queue of commands stand. -/
def State.cleared (s t : State) : Prop :=
  t.time = { nt := 0, day := 0, disc := .unset, phase := 0, agree := 0, outliers := 0, slew := 0, age := 0, lastDiff := none } ∧
  (∀ i, (t.slot i).state = .unused ∧ (t.slot i).intersection = 0 ∧ (t.slot i).port = 0 ∧ (t.slot i).drop = 0 ∧ (t.slot i).group = 0 ∧
    (t.slot i).divider = 0 ∧ (t.slot i).mode = .latched ∧ (t.slot i).recording = false ∧ (t.slot i).current = 0 ∧ (t.slot i).target = 0 ∧
    (t.slot i).targetCause = none ∧ (t.slot i).targetMode = none ∧ (t.slot i).copy = none ∧ (t.slot i).run = none ∧
    (t.slot i).pendingEval = none ∧ (t.slot i).trans = none ∧ (t.slot i).count = 0 ∧ (t.slot i).joined = false ∧
    (t.slot i).failReported = false ∧ (t.slot i).firstCycle = false ∧ (t.slot i).stepFlag = false ∧
    (t.slot i).missRun = 0 ∧ (t.slot i).timeouts = 0 ∧ (t.slot i).addressMisses = 0 ∧ (t.slot i).contentMisses = 0 ∧
    (t.slot i).lateSyncs = 0 ∧ (t.slot i).causes = 0#5 ∧ (t.slot i).latch = false ∧ (t.slot i).lastOverride = .none) ∧
  t.store = { held := [], corrected := 0, scrubOn := true, scrubPos := 0, passes := 0, stuck := s.store.stuck } ∧
  t.store.freeCount = 1024 ∧ t.store.faultedCount = 0 ∧
  (∀ g, t.group g =
    { defaultPlan := 0, policy := .leave, defaultMode := .best, tol := 2, limit := 15, state := .steady, target := 0, layer := none
      targetMode := none, elapsed := 0, adopted := false, reported := false }) ∧
  (∀ i, t.member i = none) ∧
  t.tables.calendar = [] ∧ t.tables.base = [] ∧ t.tables.events = [] ∧ t.tables.cues = [] ∧
  (∀ g : Fin 16, t.tables.active.get g = none ∧ t.tables.direct.get g = none) ∧
  (∀ p, t.port p =
    { state := .idle, window := 60, queue := [], exchange := none, line := (t.port p).line, wire := [], blockedTimer := 0
      idleTimer := 0, sent := 0, outside := 0, otherDrops := 0, bad := 0, blockedEntries := 0 }) ∧
  t.trunk =
    { strap := s.trunk.strap, countsA := ⟨0, 0, 0, 0⟩, countsB := ⟨0, 0, 0, 0⟩, malformed := 0
      aOut := ⟨t.trunk.aOut.frames, 0, 0⟩, bOut := ⟨t.trunk.bOut.frames, 0, 0⟩ } ∧
  t.mgmt = { queue := [], engine := .idle, restart := none } ∧
  t.records = { ring := [], overwrites := 0, filter := 0#64, countDown := 0, reload := 0, notices := 0#15, mask := 0#15 } ∧
  t.logOut = none ∧ (∀ l, (t.hold l).map = 0#64) ∧ t.freeReads = s.freeReads ∧ t.pending = s.pending

/-- R121: port `t` is port `q` once it has sent its head frame, if it is IDLE with one and its line is idle, or is `q` itself. -/
def Port.sendsHead (q t : Port) : Prop :=
  (q.state ≠ .idle ∨ q.line ≠ .idle ∨ q.queue = [] → t = q) ∧
  (q.state = .idle → q.line = .idle → ∀ e rest, q.queue = e :: rest →
    t = { q with
      state := .awaiting, queue := rest, sent := min 65535 (q.sent + 1), wire := e.frame.lineBytes
      exchange := some ⟨e.slot, false, e.frame.isSync, e.frame.drop, e.frame.intersection, e.frame.plan, e.frame.count,
        q.window, .sending, 0, false⟩ })

/-- R7: `d` is the difference of a mark at `nt`, and `markDay` its mark day: the mark's own day where it carries one; the local day in
UNSET; and else the day that puts the mark nearest the local time, the local day first, then the day after it. -/
def TimeBase.markReads (t : TimeBase) (nt : Nat) (day : Option Nat) (d : Int) (markDay : Nat) : Prop :=
  let d0 : Int := (nt : Int) - t.nt
  let after := d0 + 864000
  let before := d0 - 864000
  match day with
  | some x => d = ((x * 864000 + nt : Nat) : Int) - ((t.day * 864000 + t.nt : Nat) : Int) ∧ markDay = x
  | none =>
    (t.disc = .unset ∧ d = d0 ∧ markDay = t.day) ∨
    (t.disc ≠ .unset ∧
      ((d0.natAbs ≤ after.natAbs ∧ d0.natAbs ≤ before.natAbs ∧ d = d0 ∧ markDay = t.day) ∨
       (after.natAbs < d0.natAbs ∧ after.natAbs ≤ before.natAbs ∧ d = after ∧ markDay = (t.day + 1) % 65536) ∨
       (before.natAbs < d0.natAbs ∧ before.natAbs < after.natAbs ∧ d = before ∧ markDay = (t.day + 65535) % 65536)))

/-- A tick of `s` raises no minute event (R4). -/
def State.sameMinute (s : State) : Prop := s.time.tick.nt / 600 = s.time.nt / 600

/-! ### What every step keeps -/

/-- Table 1-1: every value of the time base lies in its range. -/
def TimeBase.inRange (t : TimeBase) : Prop :=
  t.nt < 864000 ∧ t.day < 65536 ∧ t.phase < 10 ∧ t.agree ≤ 2 ∧ t.outliers ≤ 2 ∧ -20 ≤ t.slew ∧ t.slew ≤ 20 ∧
    t.age ≤ 60 ∧ ∀ d, t.lastDiff = some d → -32768 ≤ d ∧ d ≤ 32767

/-- R152, R157: the out-queues hold at most eight frames each, and the request queue at most four requests. -/
def State.queuesBounded (s : State) : Prop :=
  s.trunk.aOut.frames.length ≤ 8 ∧ s.trunk.bOut.frames.length ≤ 8 ∧ s.mgmt.queue.length ≤ 4

/-- R158: the engine is IDLE only while its queue is empty or an accepted RESTART waits for its effect. -/
def Management.settled (m : Management) : Prop := m.engine = .idle → m.restart = none → m.queue = []

/-- R167, R168, R171, R173 (Table 10-1): the ring and its counts in range, the count-down off exactly with its reload
value, and no masked kind pending. -/
def RecordUnit.sound (u : RecordUnit) : Prop :=
  u.ring.length ≤ 128 ∧ u.overwrites ≤ 65535 ∧ u.countDown ≤ 255 ∧ u.reload ≤ 255 ∧
    (u.reload = 0 ↔ u.countDown = 0) ∧ u.notices &&& u.mask = 0#15

/-- Table 6-1: the order and the capacity of each timetable collection, and the ranges of its keys. -/
def Timetable.ordered (t : Timetable) : Prop :=
  (t.calendar.Pairwise fun a b => a.day < b.day) ∧ t.calendar.length ≤ 48 ∧
  (t.base.Pairwise fun a b => a.id < b.id) ∧ (∀ e ∈ t.base, e.id < 384) ∧ t.base.length ≤ 384 ∧
  (t.events.Pairwise fun a b => a.id < b.id) ∧ (∀ e ∈ t.events, e.id < 64) ∧ t.events.length ≤ 64 ∧
  (t.cues.Pairwise fun a b => a.key < b.key) ∧ t.cues.length ≤ 64

/-- R98: no two base entries of one group share a start minute and a day type. -/
def Timetable.noClash (t : Timetable) : Prop := t.base.Pairwise fun a b => a.clashes b = false

/-- Two locations hold the same key. -/
def Location.sameKey (a b : Location) : Prop := a.slot = b.slot ∧ a.plan = b.plan

/-- R62: at most one record under a key, and shadows and shadow links in pairs, so at most one shadow under a key. -/
def PlanStore.keyed (st : PlanStore) : Prop :=
  (∀ a ∈ st.held, ∀ b ∈ st.held, a.occupancy = .record → b.occupancy = .record → a.sameKey b → a.num = b.num) ∧
  (∀ a ∈ st.held, a.occupancy = .shadow →
    ∃ r ∈ st.held, r.occupancy = .record ∧ r.sameKey a ∧ r.link = some a.num) ∧
  (∀ r ∈ st.held, r.occupancy = .record → ∀ n, r.link = some n →
    ∃ a ∈ st.held, a.occupancy = .shadow ∧ a.num = n ∧ r.sameKey a)

/-- R62, R64: every stored plan has a number from 1 to 250 and belongs to a slot that is not UNUSED, and a shadow exists only
for the current plan of its slot. -/
def State.storeOwned (s : State) : Prop :=
  ∀ l ∈ s.store.held, 1 ≤ l.plan ∧ l.plan ≤ 250 ∧ (s.slot l.slot).state ≠ .unused ∧
    (l.occupancy = .shadow → (s.slot l.slot).current = l.plan)

/-- R83: every group's state is the settlement decision on its members. -/
def State.groupsDecided (s : State) : Prop := ∀ g, (s.group g).state = s.decision g

/-- R81: the member view holds every defined slot with its group, state and current plan, and no other (every member event
has arrived when a step ends; log entry 3). -/
def State.viewAgrees (s : State) : Prop :=
  ∀ i, s.member i =
    if (s.slot i).state = .unused then none
    else some ⟨(s.slot i).group, (s.slot i).state, (s.slot i).current⟩

/-- Table 2-1: what a slot context holds by its state. An UNUSED slot is at its reset values (R38); a transition is open
exactly in TRANSITION; a slot has a plan copy exactly when it has a position, and then a current plan; every state but
UNUSED and JOINING has a position. Outside OVERRIDDEN a slot that holds a cause is JOINING without a position (R136), and a
latch is set in OVERRIDDEN and in LATCHED mode only (R143, R144). -/
def Slot.shaped (x : Slot) : Prop :=
  (x.state = .unused → x = .unused) ∧ (x.trans.isSome ↔ x.state = .transition) ∧ (x.run.isSome ↔ x.copy.isSome) ∧
    (x.run.isSome ↔ x.current ≠ 0) ∧ (x.run = none → x.state = .unused ∨ x.state = .joining) ∧
    (x.causes ≠ 0#5 → x.state ≠ .overridden → x.state = .joining ∧ x.run = none) ∧
    (x.latch = true → x.state = .overridden ∧ x.mode = .latched)

/-- Table 7-1, R118, R119, R122: a port is AWAITING exactly while it has an exchange, its window is from 20 to 200 ms, no
slot has two entries in its queue, and a slot with an exchange in flight that is not detached has none. A port drives bytes only
while it sends, and then those of the frame whose exchange it is (R187). -/
def Port.sound (q : Port) : Prop :=
  (q.state = .awaiting ↔ q.exchange.isSome) ∧ 20 ≤ q.window ∧ q.window ≤ 200 ∧
    (q.queue.map QueueEntry.slot).Nodup ∧
    (∀ x, q.exchange = some x → x.detached = false → x.slot ∉ q.queue.map QueueEntry.slot) ∧
    (q.directionAsserted = false → q.wire = []) ∧
    ∀ x, q.exchange = some x → x.phase = .sending → ∃ f : FieldFrame, q.wire = f.lineBytes ∧ x.isSync = f.isSync ∧
      x.drop = f.drop ∧ x.intersection = f.intersection ∧ x.plan = f.plan ∧ x.count = f.count

end Sys2Proof.Machine
end

