-- ==== Sys2Proof/Certificates/Slice0/Obligations.lean ====
section
/-! DEFINITION. The statements about this model. A statement about a command concludes that exec answers a next state; a
request's statement assumes that the engine carries it out now, addressed, with room for its reply (State.readyFor). -/

open Sys2Proof Sys2Proof.Machine

/-! ### Steps and resets -/

/-- A step carries out the command at the front of the queue with the queue's rest; with no command waiting the part
idles (the idling is the model's choice, log entry 1). -/
def Obligations.StepTakesFront : Prop :=
  (∀ (s : State) (c : Instr) (rest : List Instr), s.pending = c :: rest → step s = exec c (s.setPending rest)) ∧
  ∀ s : State, s.pending = [] → step s = .next s

/-- RESET_ASSERT: every block takes its values after reset (R16, R38, R79, R94, R115, R133, R163, R174, R183); hold maps are
emptied (R148). The strap value stands; that the line levels, the stuck cells and the free reads stand too, that a field line reads idle
until it is sampled, and what the cleared identity fields hold (0, and LATCHED as the mode), are the model's choices (log entries 9, 8
and 7). -/
def Obligations.ResetAssertValues : Prop :=
  ∀ s : State, ∃ t, exec .resetAssert s = .next t ∧ t.resetAsserted = true ∧ s.cleared t ∧
    t.trunk.aOut.frames = [] ∧ t.trunk.bOut.frames = [] ∧ (∀ p, (t.port p).line = .idle) ∧ ∀ l, (t.hold l).level = (s.hold l).level

/-- While RESET is asserted no command but the two of the RESET line has any effect. RESET_RELEASE: the straps, the field lines and the hold lines are
sampled (R153, R133, R148), and nothing else changes when the hold maps are empty, as RESET_ASSERT leaves them; on a line that is not
asserted nothing happens (log entry 1). -/
def Obligations.ResetLineStopsAndSamples : Prop :=
  (∀ (c : Instr) (s : State), s.resetAsserted = true → c ≠ .resetAssert → (∀ straps pins, c ≠ .resetRelease straps pins) →
    exec c s = .next s) ∧
  ((∀ (s : State) (straps : Byte) (pins : PinSample), s.resetAsserted = true → (∀ l, (s.hold l).map = 0#64) →
    ∃ t, exec (.resetRelease straps pins) s = .next t ∧ t.resetAsserted = false ∧
      t.trunk = { s.trunk with strap := straps } ∧ (∀ p, t.port p = { s.port p with line := pins.lines.get p }) ∧
      (∀ l, t.hold l = { level := pins.holds.get l, map := 0#64 }) ∧
      (s.setResetAsserted false).changesOnly t [.trunk, .ports, .holds]) ∧
  ∀ (s : State) (straps : Byte) (pins : PinSample), s.resetAsserted = false → exec (.resetRelease straps pins) s = .next s)

/-! ### The time base -/

/-- TICK (R2, R3, R11): the tick phase; the amount and the slew of a second tick; NT and the day number; the mark age, and
HOLDOVER where it reaches 60 in LOCKED, taken within the tick (log entry 3), whose NT moves by the slew before the entry (log entry 14). A tick
touches neither the trunk side nor the hold lines nor the log-out record. -/
def Obligations.TickMovesTime : Prop :=
  ∀ (s : State) (order : List TickEvent), s.resetAsserted = false → s.time.inRange →
    ∃ t, exec (.tick order) s = .next t ∧
      let second : Prop := s.time.phase = 9
      let k : Nat := if s.time.phase = 9 then (if 0 < s.time.slew then 2 else if s.time.slew < 0 then 0 else 1) else 1
      let age : Nat := if s.time.phase = 9 then min 60 (s.time.age + 1) else s.time.age
      let holdover : Prop := s.time.disc = .locked ∧ age = 60
      t.time.phase = (s.time.phase + 1) % 10 ∧ t.time.nt < 864000 ∧
      t.time.day * 864000 + t.time.nt = (s.time.day * 864000 + s.time.nt + k) % (65536 * 864000) ∧
      t.time.age = age ∧ t.time.agree = s.time.agree ∧ t.time.lastDiff = s.time.lastDiff ∧
      (holdover → t.time.disc = .holdover ∧ t.time.slew = 0 ∧ t.time.outliers = 0) ∧
      (¬holdover → t.time.disc = s.time.disc ∧ t.time.outliers = s.time.outliers ∧
        (¬second → t.time.slew = s.time.slew) ∧
        (second → t.time.slew =
          if 0 < s.time.slew then s.time.slew - 1 else if s.time.slew < 0 then s.time.slew + 1 else 0)) ∧
      s.changesOnly t (.time :: .tables :: Block.engine)

/-- TICK at the slots (R19, R20, R27, R28, R119). Whatever the order of its events (log entry 3), a running slot moves by the amount of the
advance; where that brings it to its cycle length, a boundary takes the length from the position and moves the cycle count on. A tick that
names no order and raises no minute advances the running slots in ascending order (log entry 3) and then visits a location. A slot's
advance to a boundary is its steps 1 to 5, which BoundariesEvaluate states, its member event, and steps 6 and 7: the frame that it decides
by its state, and that frame handed over, a late sync where the slot's previous frame is still queued or in flight. A member event whose
arrival the order names later reaches the group coordinator there, behind another slot's boundary (R88; log entry 3). -/
def Obligations.TickMovesSlots : Prop :=
  let amount := fun (t : TimeBase) => if t.phase ≥ 9 then (if 0 < t.slew then 2 else if t.slew < 0 then 0 else 1) else 1
  (∀ (s : State) (order : List TickEvent) (i : Fin 64) (r : CycleRun), s.resetAsserted = false → (s.slot i).run = some r →
    ∃ t, exec (.tick order) s = .next t ∧
      let k : Nat := amount s.time
      (r.p + k < r.len → (t.slot i).run = some { r with p := r.p + k } ∧ (t.slot i).count = (s.slot i).count) ∧
      (r.len ≤ r.p + k → (t.slot i).count = ((s.slot i).count + 1) % 256 ∧
        ∃ r', (t.slot i).run = some r' ∧ r'.p = r.p + k - r.len)) ∧
  (∀ s : State, s.resetAsserted = false → s.sameMinute →
    let running := (List.finRange 64).filter fun i => (s.slot i).run.isSome
    exec (.tick []) s = .next (running.foldl (fun v i => (v.advanceSlot i (amount s.time)).deliver)
      (s.setTime s.time.tick).enterHoldover).scrubVisit) ∧
  (∀ (s : State) (i j : Fin 64), s.resetAsserted = false → s.sameMinute → i ≠ j → (∀ l, (s.slot l).run.isSome ↔ l = i ∨ l = j) →
    let first := ((s.setTime s.time.tick).enterHoldover).advanceSlot i (amount s.time)
    let both := (first.1.advanceSlot j (amount s.time)).deliver
    exec (.tick [.slot i, .slot j, .memberArrives i]) s = .next (both.takeMembers first.2).scrubVisit) ∧
  (∀ (s : State) (i : Fin 64) (r : CycleRun) (k : Nat), (s.slot i).run = some r →
    (r.p + k < r.len → s.advanceSlot i k = (s.setSlot i { s.slot i with run := some { r with p := r.p + k } }, [])) ∧
    (r.len ≤ r.p + k →
      let u := s.boundarySteps i (r.p + k - r.len)
      let moved : Prop := (u.slot i).state ≠ (s.slot i).state ∨ (u.slot i).current ≠ (s.slot i).current
      (s.advanceSlot i k).1 = (u.handOverStep i).1 ∧
      (¬moved → (s.advanceSlot i k).2 = (u.handOverStep i).2) ∧
      (moved → (s.advanceSlot i k).2 = ⟨i, (u.slot i).state, (u.slot i).current, none⟩ :: (u.handOverStep i).2))) ∧
  (∀ (x : Slot) (pl : Plan) (r : CycleRun), x.copy = some pl → x.run = some r →
    let points := (List.range r.splits.length).map fun j => (r.splits.take (j + 1)).sum
    let sync := fun (first transition resync : Bool) =>
      FieldFrame.sync x.drop x.intersection x.current x.count r.len first transition resync pl.coord points
    (x.state = .joining → x.decideFrame = some (sync true false false)) ∧
    (x.state = .transition → x.decideFrame = some (sync false true false)) ∧
    (x.state = .lost → x.decideFrame = some (sync false false true)) ∧
    (x.state = .overridden → x.decideFrame = some (.poll x.drop x.intersection x.count)) ∧
    (x.state = .coordinated → x.count % x.divider = 0 ∨ x.firstCycle = true → x.decideFrame = some (sync false false false)) ∧
    (x.state = .coordinated → x.count % x.divider ≠ 0 → x.firstCycle = false → x.decideFrame = none)) ∧
  ∀ (s : State) (i : Fin 64),
    let x := s.slot i
    let q := s.port x.port
    let t := (s.handOverStep i).1
    let queued : Prop := ∃ e ∈ q.queue, e.slot = i
    let inFlight : Prop := ∃ y, q.exchange = some y ∧ y.slot = i ∧ y.detached = false
    s.otherPortsStand t x.port ∧ s.otherSlotsStand t i ∧
    (¬queued → ¬inFlight →
      (s.handOverStep i).2 = [] ∧ s.changesOnly t [.ports] ∧ (x.decideFrame = none → t.port x.port = q) ∧
      ∀ f, x.decideFrame = some f → ({ q with queue := q.queue ++ [⟨i, f⟩] } : Port).sendsHead (t.port x.port)) ∧
    (queued ∨ inFlight → s.missed t i .lateSync ∧ s.changesOnly t [.slots, .ports, .records] ∧
      (s.handOverStep i).2 = if (t.slot i).state = x.state then [] else [⟨i, .lost, x.current, none⟩]) ∧
    (queued → (x.decideFrame = none → t.port x.port = { q with queue := q.queue.filter fun e => e.slot ≠ i }) ∧
      ∀ f, x.decideFrame = some f →
        t.port x.port = { q with queue := q.queue.map fun e => if e.slot = i then ⟨i, f⟩ else e }) ∧
    (¬queued → inFlight → t.port x.port = q)

/-- TICK at the scrubber (R74, R77): while ON it moves to the next location, and a return to location 0 counts a pass; while OFF
it stands. A visit passes a free location and a FAULTED one; it writes the corrected words of a sound one back and counts them, and
marks one beyond repair FAULTED, with PLAN_FAULT. A TICK makes that visit, here with time UNSET and no slot running, so that nothing else
reads the store. -/
def Obligations.TickMovesScrubber : Prop :=
  let visited := fun (s t : State) =>
    let onward := { s.store with scrubPos := t.store.scrubPos, passes := t.store.passes }
    ((∀ l ∈ s.store.held, l.num = s.store.scrubPos → l.faulted = true) → t.store = onward) ∧
    ∀ l ∈ s.store.held, l.num = s.store.scrubPos → l.faulted = false →
      (l.sound → s.store.stuck = [] → t.store.corrected = min 65535 (s.store.corrected + l.fixed) ∧
        onward.becomes { t.store with corrected := s.store.corrected } l.rewritten [l.num]) ∧
      ((∃ w ∈ l.words, w.finding = .uncorrectable) →
        onward.becomes t.store { l with faulted := true } [l.num] ∧ s.notified t .planFault)
  (∀ (s : State) (order : List TickEvent), s.resetAsserted = false → s.store.scrubPos < 1024 →
    ∃ t, exec (.tick order) s = .next t ∧ t.store.scrubOn = s.store.scrubOn ∧
      (s.store.scrubOn = true → t.store.scrubPos = (s.store.scrubPos + 1) % 1024 ∧
        t.store.passes = if s.store.scrubPos = 1023 then min 65535 (s.store.passes + 1) else s.store.passes) ∧
      (s.store.scrubOn = false → t.store.scrubPos = s.store.scrubPos ∧ t.store.passes = s.store.passes) ∧
      (s.store.wf = true → s.store.corrected ≤ 65535 → s.time.disc = .unset → (∀ i, (s.slot i).run = none) →
        (s.store.scrubOn = true → visited s t) ∧ (s.store.scrubOn = false → t.store = s.store))) ∧
  ∀ s : State, s.store.wf = true → s.store.corrected ≤ 65535 → s.store.scrubOn = true →
    visited s s.scrubVisit ∧ s.onlyNotices s.scrubVisit ∧ s.changesOnly s.scrubVisit [.store, .records]

/-- TIME_MARK (R6 to R10, R12, Table 1-3), with a mark day or without one, by the discipline state and the difference d of the mark, at a part
with a station number: the time base, the notices of Table 1-3, and the step flags of a mark that steps. A mark whose NT is above 863,999 is
ignored (R7). Either way the frame is counted and passed on, whatever its station field (R151, R152, R154). -/
def Obligations.MarksSteerTime : Prop :=
  (∀ (s : State) (station hops : Byte) (nt : Nat) (day : Option Nat) (d : Int) (markDay : Nat), s.resetAsserted = false →
    s.trunk.station.isSome → nt < 864000 → (∀ n, day = some n → n < 65536) → s.time.markReads nt day d markDay →
    let body := num4 nt ++ (match day with | some n => num2 n | none => [])
    ∃ t, exec (.timeMark station hops body) s = .next t ∧ s.passedOn t (.make 0x01#8 station hops body) ∧
      t.trunk.countsA.received = min 65535 (s.trunk.countsA.received + 1) ∧ t.trunk.aOut = s.trunk.aOut ∧
      let x : TimeBase := { s.time with lastDiff := some (max (-32768) (min 32767 d)) }
      let stepped : TimeBase := { x with nt := nt, day := markDay, slew := 0, phase := nt % 10 }
      let locks : Prop := (s.time.disc = .acquire ∧ d.natAbs ≤ 5 ∧ 2 ≤ s.time.agree) ∨ (s.time.disc = .holdover ∧ d.natAbs ≤ 20)
      let breaks : Prop := (s.time.disc = .locked ∧ 20 < d.natAbs ∧ 2 ≤ s.time.outliers) ∨ (s.time.disc = .holdover ∧ 20 < d.natAbs)
      let steps : Prop := s.time.disc = .unset ∨ (s.time.disc = .acquire ∧ 5 < d.natAbs) ∨ breaks
      (s.time.disc = .unset → t.time = { stepped with disc := .acquire, agree := 0, outliers := 0, age := 0 }) ∧
      (s.time.disc = .acquire → d.natAbs ≤ 5 → s.time.agree < 2 →
        t.time = { x with agree := s.time.agree + 1, slew := d, age := 0 }) ∧
      (s.time.disc = .acquire → d.natAbs ≤ 5 → 2 ≤ s.time.agree →
        t.time = { x with disc := .locked, agree := 0, outliers := 0, slew := d, age := 0 }) ∧
      (s.time.disc = .acquire → 5 < d.natAbs → t.time = { stepped with agree := 0, age := 0 }) ∧
      (s.time.disc = .locked → d.natAbs ≤ 20 → t.time = { x with slew := d, outliers := 0, age := 0 }) ∧
      (s.time.disc = .locked → 20 < d.natAbs → s.time.outliers < 2 →
        t.time = { x with outliers := s.time.outliers + 1 }) ∧
      (s.time.disc = .locked → 20 < d.natAbs → 2 ≤ s.time.outliers →
        t.time = { stepped with disc := .acquire, agree := 0, outliers := 0, age := 0 }) ∧
      (s.time.disc = .holdover → d.natAbs ≤ 20 →
        t.time = { x with disc := .locked, slew := d, outliers := 0, age := 0 }) ∧
      (s.time.disc = .holdover → 20 < d.natAbs →
        t.time = { stepped with disc := .acquire, agree := 0, outliers := 0, age := 0 }) ∧
      (∀ k, k = .timeLocked ∨ k = .timeStep ∨ k = .timeHoldover → (noticeIn t.records.notices k = true ↔
        noticeIn s.records.notices k = true ∨
          (noticeIn s.records.mask k = false ∧ ((k = .timeLocked ∧ locks) ∨ (k = .timeStep ∧ breaks))))) ∧
      (¬steps → s.onlyNotices t ∧ s.changesOnly t [.time, .trunk, .records]) ∧
      (steps → (∀ i, (s.slot i).run.isSome → (t.slot i).stepFlag = true) ∧ (∀ g, t.showsSelection g) ∧
        s.changesOnly t (.time :: .tables :: .trunk :: Block.engine))) ∧
  ∀ (s : State) (station hops : Byte) (nt : Nat) (day : Option Nat), s.resetAsserted = false → 864000 ≤ nt → nt < 4294967296 →
    let body := num4 nt ++ (match day with | some n => num2 n | none => [])
    ∃ t, exec (.timeMark station hops body) s = .next t ∧ s.passedOn t (.make 0x01#8 station hops body) ∧
      t.trunk.countsA.received = min 65535 (s.trunk.countsA.received + 1) ∧ t.trunk.aOut = s.trunk.aOut ∧
      s.onlyNotices t ∧ s.changesOnly t [.trunk, .records]

/-- SET_DAY (R15), addressed or broadcast (R158): the day number is set and NT stands. While time is set a different day number is a step:
TIME_STEP is raised unless it is masked, every running slot's step flag is set, active cues and direct selections whose end lies too far
ahead are removed, and every group shows the selection of the tables (R6, R112). -/
def Obligations.SetDaySteps : Prop :=
  ∀ (s : State) (src : Source) (day : Half) (r : Request), s.readyForAny (.setDay src day) r →
    ∃ t, exec (.setDay src day) s = .next t ∧ t.time = { s.time with day := day.toNat } ∧ s.answered t r .done [] ∧
      ((s.time.disc = .unset ∨ s.time.day = day.toNat) → s.changesOnly t [.time, .trunk, .mgmt]) ∧
      (s.time.disc ≠ .unset → s.time.day ≠ day.toNat →
        let now := day.toNat * 864000 + s.time.nt
        s.notified t .timeStep ∧ (∀ i, (s.slot i).run.isSome → (t.slot i).stepFlag = true) ∧
        t.tables = { s.tables with active := t.tables.active, direct := t.tables.direct } ∧
        (∀ (g : Fin 16) c, t.tables.active.get g = some c ↔ s.tables.active.get g = some c ∧ c.endR ≤ now + 432000) ∧
        (∀ (g : Fin 16) d, t.tables.direct.get g = some d ↔
          s.tables.direct.get g = some d ∧ ∀ e, d.endR = some e → e ≤ now + 864000) ∧
        (∀ g, t.showsSelection g) ∧ s.changesOnly t (.time :: .tables :: .trunk :: .mgmt :: Block.engine))

/-- READ_TIME (R14): the values of Table 1-1 but the tick phase, in the order in which R14 lists them. READ_SLOT (R37): the state alone for an
UNUSED slot, else the fields of Table 2-1 but the plan copy, in its order, the current splits as their force-off points; a number above 63
gives BAD_VALUE. Nothing changes. Widths and presence bytes that Table 12-4 leaves open are log entry 10. -/
def Obligations.TimeAndSlotsAreRead : Prop :=
  (∀ (s : State) (src : Source) (r : Request), s.readyFor (.readTime src) r →
    ∃ t, exec (.readTime src) s = .next t ∧ s.changesOnly t [.trunk, .mgmt] ∧
      s.answered t r .done (num1 (disciplineCode s.time.disc) ++ num2 s.time.day ++ num4 s.time.nt ++ num1 s.time.agree ++
        num1 s.time.outliers ++ signed2 s.time.slew ++ num1 s.time.age ++
        (match s.time.lastDiff with | some d => 1#8 :: signed2 d | none => [0#8, 0#8, 0#8]))) ∧
  (∀ (s : State) (src : Source) (slot : Byte) (r : Request), s.readyFor (.readSlot src slot) r →
    ∃ t, exec (.readSlot src slot) s = .next t ∧ s.changesOnly t [.trunk, .mgmt] ∧
      (63 < slot.toNat → s.refusedWith t r .badValue) ∧
      ∀ i : Fin 64, slot.toNat = i.val →
        let x := s.slot i
        let optional := fun (v : Option Nat) => match v with | some n => 1#8 :: num2 n | none => [0#8, 0#8, 0#8]
        let splits := (x.run.map CycleRun.splits).getD []
        let points := (List.range splits.length).map fun j => (splits.take (j + 1)).sum
        let transition := match x.trans with
          | some y => [1#8] ++ num1 (match y.dir with | .shorten => 1 | .lengthen => 2 | .immediate => 3) ++ num1 (causeCode y.cause) ++
              num1 y.fromPlan ++ num2 y.start.day ++ num4 y.start.nt ++ num1 y.used ++ num2 y.total ++
              num1 (y.forced.toNat + 2 * y.lateSeen.toNat + 4 * y.missSeen.toNat)
          | none => List.replicate 14 0#8
        (x.state = .unused → s.answered t r .done [0#8]) ∧
        (x.state ≠ .unused → s.answered t r .done
          (num2 x.intersection ++ num1 x.port.val ++ num1 x.drop ++ num1 x.group.val ++ num1 x.divider ++
            num1 (overrideModeCode x.mode) ++ num1 x.recording.toNat ++ num1 (slotStateCode x.state) ++ num1 x.joined.toNat ++
            num1 x.current ++ num1 x.target ++
            (match x.targetCause with | some l => 1#8 :: num1 (layerCode l) | none => [0#8, 0#8]) ++
            (match x.targetMode with | some m => num1 (modeCode m) | none => [0xFF#8]) ++ num1 x.failReported.toNat ++
            optional (x.run.map CycleRun.p) ++ optional (x.run.map CycleRun.len) ++
            num1 splits.length ++ (points.map num2).flatten ++ num1 x.count ++ num1 x.firstCycle.toNat ++ num1 x.stepFlag.toNat ++
            (match x.pendingEval with | some e => 1#8 :: num1 (pendingEvalCode e) | none => [0#8, 0#8]) ++ transition ++
            num1 x.missRun ++ num2 x.timeouts ++ num2 x.addressMisses ++ num2 x.contentMisses ++ num2 x.lateSyncs ++
            num1 x.causes.toNat ++ num1 x.latch.toNat ++ num1 (fieldOverrideCode x.lastOverride))))

/-! ### Slots -/

/-- DEFINE_SLOT (R35, R86, R138): an unused slot, values in range and no duplicate. The slot takes its identity, the target of its group
and the causes of the active hold lines, the member view takes it, and no other slot changes. It waits in JOINING without a position while
time is unset or its group has no target. R30, R141: at DEFINE_SLOT, and at every target event of a JOINING slot without a position, a
positioning attempt that finds a clean record of the target takes the plan copy and gives the position, the plan cycle, cycle count 0 and
the first-cycle flag; with a cause held the slot then enters OVERRIDDEN. One that finds no record, or a FAULTED one, leaves it waiting. -/
def Obligations.DefineSlotDefines : Prop :=
  let placed := fun (s t : State) (i : Fin 64) (target : Nat) =>
    (∀ l, s.store.recordOf i target = some l → l.faulted = false → l.clean →
      let pl := imagePlan l.data
      (t.slot i).current = target ∧ (t.slot i).copy = some pl ∧ (t.slot i).count = 0 ∧ (t.slot i).firstCycle = true ∧
      (t.slot i).run = some ⟨((((s.time.day * 864000 + s.time.nt : Nat) : Int) - pl.offset) % (pl.cycle : Int)).toNat, pl.cycle,
        pl.phases.map Phase.split⟩ ∧
      ((t.slot i).causes = 0#5 → (t.slot i).state = .joining) ∧
      ((t.slot i).causes ≠ 0#5 → (t.slot i).state = .overridden ∧ s.notified t .overrideEnter ∧
        ((t.slot i).mode = .latched → (t.slot i).latch = true)) ∧
      t.store = s.store) ∧
    ((∀ l, s.store.recordOf i target = some l → l.faulted = true) →
      (t.slot i).state = .joining ∧ (t.slot i).run = none ∧ (t.slot i).current = 0 ∧ t.store = s.store)
  (∀ (s : State) (src : Source) (slot : Byte) (intersection : Half) (port drop group divider mode : Byte) (r : Request)
    (i : Fin 64) (p : Fin 4) (g : Fin 16),
    s.readyFor (.defineSlot src slot intersection port drop group divider mode) r →
    slot.toNat = i.val → port.toNat = p.val → group.toNat = g.val → 1 ≤ intersection.toNat → intersection.toNat ≤ 4095 →
    1 ≤ drop.toNat → drop.toNat ≤ 16 → mode.toNat ≤ 1 → (s.slot i).state = .unused →
    (∀ k, k ≠ i → (s.slot k).state ≠ .unused → (s.slot k).intersection ≠ intersection.toNat ∧
      ((s.slot k).port ≠ p ∨ (s.slot k).drop ≠ drop.toNat)) →
    ∃ t, exec (.defineSlot src slot intersection port drop group divider mode) s = .next t ∧ s.answered t r .done [] ∧
      (t.slot i).intersection = intersection.toNat ∧ (t.slot i).port = p ∧ (t.slot i).drop = drop.toNat ∧
      (t.slot i).group = g ∧ (t.slot i).divider = max 1 (min 16 divider.toNat) ∧
      (t.slot i).mode = (if mode = 0#8 then .latched else .perCycle) ∧
      (t.slot i).recording = s.records.filter.getLsbD i.val ∧
      ((t.slot i).state = .joining ∨ (t.slot i).state = .overridden) ∧
      (t.slot i).target = (s.group g).target ∧
      ((s.group g).target ≠ 0 → (t.slot i).targetCause = (s.group g).layer ∧ (t.slot i).targetMode = (s.group g).targetMode) ∧
      ((s.group g).target = 0 → (t.slot i).targetCause = none ∧ (t.slot i).targetMode = none) ∧
      (∀ l, causeIn (t.slot i).causes (.hold l) = (decide ((s.hold l).level = .active) && slotIn (s.hold l).map i)) ∧
      causeIn (t.slot i).causes .field = false ∧
      ((s.time.disc = .unset ∨ (s.group g).target = 0) →
        (t.slot i).state = .joining ∧ (t.slot i).run = none ∧ (t.slot i).current = 0) ∧
      (s.time.disc ≠ .unset → (s.group g).target ≠ 0 → s.store.wf = true → s.store.corrected ≤ 65535 → placed s t i (s.group g).target) ∧
      t.member i = some ⟨g, (t.slot i).state, (t.slot i).current⟩ ∧ s.otherSlotsStand t i ∧
      s.changesOnly t (.trunk :: .mgmt :: Block.engine)) ∧
  ∀ (s : State) (i : Fin 64) (target : Nat) (cause : Option Layer) (mode : Option Mode), (s.slot i).state = .joining →
    (s.slot i).run = none → (s.slot i).current = 0 → s.store.wf = true → s.store.corrected ≤ 65535 →
    let t := (s.targetEvent i target cause mode).1
    (t.slot i).target = target ∧ (t.slot i).targetCause = cause ∧ (t.slot i).targetMode = mode ∧ (t.slot i).causes = (s.slot i).causes ∧
    (s.time.disc = .unset ∨ target = 0 → (t.slot i).state = .joining ∧ (t.slot i).run = none) ∧
    (s.time.disc ≠ .unset → target ≠ 0 → placed s t i target) ∧ s.otherSlotsStand t i ∧
    s.changesOnly t [.slots, .store, .ports, .records]

/-- DEFINE_SLOT refused (R35) and LOAD_PLAN refused (R64): their checks in their order. -/
def Obligations.ChecksComeInOrder : Prop :=
  (∀ (s : State) (src : Source) (slot : Byte) (intersection : Half) (port drop group divider mode : Byte) (r : Request),
    s.readyFor (.defineSlot src slot intersection port drop group divider mode) r →
    let legal : Prop := slot.toNat ≤ 63 ∧ port.toNat ≤ 3 ∧ group.toNat ≤ 15 ∧ 1 ≤ intersection.toNat ∧
      intersection.toNat ≤ 4095 ∧ 1 ≤ drop.toNat ∧ drop.toNat ≤ 16 ∧ mode.toNat ≤ 1
    let inUse : Prop := ∃ i : Fin 64, slot.toNat = i.val ∧ (s.slot i).state ≠ .unused
    let duplicate : Prop := ∃ k : Fin 64, slot.toNat ≠ k.val ∧ (s.slot k).state ≠ .unused ∧
      ((s.slot k).intersection = intersection.toNat ∨ ((s.slot k).port.val = port.toNat ∧ (s.slot k).drop = drop.toNat))
    ∃ t, exec (.defineSlot src slot intersection port drop group divider mode) s = .next t ∧
      (¬legal → s.refusedWith t r .badValue) ∧ (legal → inUse → s.refusedWith t r .inUse) ∧
      (legal → ¬inUse → duplicate → s.refusedWith t r .duplicate)) ∧
  (∀ (s : State) (src : Source) (slot plan : Byte) (cycle offset : Half) (shortPct longPct coord : Byte)
    (phases : List PhaseEntry) (r : Request),
    s.readyFor (.loadPlan src slot plan cycle offset shortPct longPct coord phases) r →
    let legal : Prop := slot.toNat ≤ 63 ∧ 1 ≤ plan.toNat ∧ plan.toNat ≤ 250 ∧ legalPlan cycle offset coord phases
    ∃ t, exec (.loadPlan src slot plan cycle offset shortPct longPct coord phases) s = .next t ∧
      (¬legal → s.refusedWith t r .badValue) ∧
      (legal → ¬splitsSum cycle phases → s.refusedWith t r .badPlan) ∧
      (legal → splitsSum cycle phases → (∃ i : Fin 64, slot.toNat = i.val ∧ (s.slot i).state = .unused) →
        s.refusedWith t r .noSuch))

/-- RELEASE_SLOT (R36, R71, R120): a defined slot becomes UNUSED with the values of R38; its locations are freed, its queue entry
is removed, an exchange of its in flight goes on detached, the member view drops it, and an open transition ends with a RELEASED record
where the filter holds the slot. No other slot and no other port changes. -/
def Obligations.ReleaseSlotReleases : Prop :=
  (∀ (s : State) (src : Source) (slot : Byte) (r : Request) (i : Fin 64), s.readyFor (.releaseSlot src slot) r →
    slot.toNat = i.val → (s.slot i).state ≠ .unused →
    ∃ t, exec (.releaseSlot src slot) s = .next t ∧ s.answered t r .done [] ∧ t.slot i = Slot.unused ∧
      t.store.held = s.store.held.filter (fun l => l.slot != i) ∧ t.member i = none ∧
      t.port (s.slot i).port = { s.port (s.slot i).port with
        queue := (s.port (s.slot i).port).queue.filter fun e => e.slot != i
        exchange := (s.port (s.slot i).port).exchange.map fun x => if x.slot = i then { x with detached := true } else x } ∧
      s.otherPortsStand t (s.slot i).port ∧ s.otherSlotsStand t i ∧
      (∀ tr, (s.slot i).trans = some tr → s.recorded t i [s.endsAs i (s.slot i).current tr .released]) ∧
      ((s.slot i).trans = none → t.records.ring = s.records.ring) ∧
      s.changesOnly t (.trunk :: .mgmt :: Block.engine)) ∧
  ∀ (s : State) (src : Source) (slot : Byte) (r : Request), s.readyFor (.releaseSlot src slot) r →
    ∃ t, exec (.releaseSlot src slot) s = .next t ∧ (63 < slot.toNat → s.refusedWith t r .badValue) ∧
      ((∃ i : Fin 64, slot.toNat = i.val ∧ (s.slot i).state = .unused) → s.refusedWith t r .noSuch)

/-- Steps 1 to 5 of a boundary (R20 to R26, R34, R40, R41, R43, R49, R50, R52, R58, R69, R144), at a slot with a plan copy and a position, which is
`p` after the boundary: the cycle count; the exit from OVERRIDDEN, which gives the state `st` and the pending evaluation `pend` that the later
steps find; the adoption of a target or of a shadow, or why there is none, with the notice of a failed one (R76); and by `st` the evaluation,
its cause and its records, with the next cycle a plan cycle or one that corrects the error. No other slot changes. That a record ended here
names the plan current after the adoption as its to-plan, and that the report of a shadow's failed adoption leaves the failure reported flag, is
log entry 16; a plan outside Table 3-1 is computed with as it stands (log entry 21). -/
def Obligations.BoundariesEvaluate : Prop :=
  ∀ (s : State) (i : Fin 64) (p : Nat) (pl : Plan) (st : SlotState) (pend : Option PendingEval),
    (s.slot i).copy = some pl → (s.slot i).run.isSome →
    let x := s.slot i
    let u := s.boundarySteps i p
    let y := u.slot i
    let now : Stamp := ⟨s.time.day, s.time.nt⟩
    let err := fun (q : Plan) => ((((s.time.day * 864000 + s.time.nt : Nat) : Int) - p - q.offset) % (q.cycle : Int)).toNat
    let near := fun (q : Plan) => err q ≤ (s.group x.group).tol ∨ q.cycle - err q ≤ (s.group x.group).tol
    let plain := fun (q : Plan) => CycleRun.mk p q.cycle (q.phases.map Phase.split)
    let chosen := fun (q : Plan) => chooseDirection q (err q) false x.targetMode
    let exits : Prop := x.state = .overridden ∧ x.causes = 0#5 ∧ (x.mode = .perCycle ∨ x.latch = false)
    let runs : Prop := st = .coordinated ∨ st = .transition ∨ st = .lost ∨ st = .joining
    let sought : Prop := x.target ≠ 0 ∧ x.target ≠ x.current ∧ s.holds? i = false
    let missing : Prop := s.store.recordOf i x.target = none
    let faulted : Prop := ∃ l, s.store.recordOf i x.target = some l ∧ l.faulted = true
    let unadopted : Prop := ¬sought ∨ missing ∨ faulted
    let spoilt := fun (r sh : Location) => s.store.wf = true ∧ s.store.keyed ∧ s.store.recordOf i x.current = some r ∧
      s.store.shadowOf i x.current = some sh ∧ (sh.faulted = true ∨ ¬sh.sound)
    let kept : Prop := unadopted ∧ (s.store.shadowOf i x.current = none ∨ ∃ r sh, spoilt r sh)
    let corrects := fun (q : Plan) (cause : Cause) =>
      y.state = .transition ∧ y.run = some (correctedRun q p (err q) (chosen q)) ∧
        y.trans = some ⟨chosen q, cause, x.current, now, 1, min 65535 (cycleAmount q (err q) (chosen q)).2, false, false, false⟩
    let evaluated := fun (q : Plan) (cause : Cause) (before : List TransitionRecord) =>
      (near q → y.state = .coordinated ∧ y.run = some (plain q) ∧
        s.recorded u i (before ++ if cause = .step then [] else [s.noCycles i x.current y.current cause])) ∧
      (¬near q → corrects q cause ∧ s.recorded u i before)
    let adopted := fun (q : Plan) (cause : Cause) =>
      y.copy = some q ∧ y.firstCycle = true ∧
      (st = .coordinated → evaluated q cause []) ∧
      (st = .transition → ∀ t, x.trans = some t → evaluated q cause [s.endsAs i y.current t .superseded]) ∧
      (st = .joining → y.state = .joining ∧ (near q → y.run = some (plain q)) ∧
        (¬near q → y.run = some (correctedRun q p (err q) .immediate))) ∧
      (st = .lost → y.state = .lost ∧ y.run = some (plain q))
    let promoted := fun (r sh : Location) =>
      s.store.becomes u.store { sh with occupancy := .record, link := none } [r.num, sh.num] ∧ ∀ m ∈ u.store.held, m.num ≠ r.num
    (exits → x.joined = true → st = .coordinated ∧ pend = some .recovery) →
    (exits → x.joined = false → st = .joining ∧ pend = x.pendingEval) → (¬exits → st = x.state ∧ pend = x.pendingEval) →
    y.count = (x.count + 1) % 256 ∧ y.stepFlag = false ∧ s.otherSlotsStand u i ∧ (exits → s.notified u .overrideExit) ∧
    (s.store.wf = true → s.store.corrected ≤ 65535 → runs → sought → ∀ l, s.store.recordOf i x.target = some l → l.faulted = false →
      l.clean →
        y.current = x.target ∧ y.failReported = false ∧
        (∀ c, x.targetCause = some c → adopted (imagePlan l.data) c.cause) ∧
        (s.store.shadowOf i x.current = none → u.store = s.store) ∧
        (s.store.keyed → ∀ r sh, s.store.recordOf i x.current = some r → s.store.shadowOf i x.current = some sh → promoted r sh)) ∧
    (s.store.wf = true → s.store.keyed → s.store.corrected ≤ 65535 → runs → unadopted →
      ∀ r sh, s.store.recordOf i x.current = some r → s.store.shadowOf i x.current = some sh → sh.faulted = false → sh.clean →
        y.current = x.current ∧ adopted (imagePlan sh.data) .shadow ∧ promoted r sh) ∧
    (runs → sought → missing ∨ faulted → y.failReported = true ∧
      (x.failReported = false → (missing → s.notified u .planMissing) ∧ (faulted → s.notified u .planFault))) ∧
    (runs → unadopted → ∀ r sh, spoilt r sh → s.notified u .planFault ∧ (¬sought → y.failReported = x.failReported) ∧
      s.store.becomes u.store { sh with occupancy := .record, link := none, faulted := true } [r.num, sh.num] ∧
      ∀ m ∈ u.store.held, m.num ≠ r.num) ∧
    (kept → y.current = x.current ∧ y.copy = x.copy ∧ (s.store.shadowOf i x.current = none → u.store = s.store)) ∧
    (st = .coordinated → kept → y.pendingEval = none ∧
      (pend = none → x.stepFlag = false → y.state = .coordinated ∧ y.run = some (plain pl) ∧ s.recorded u i []) ∧
      ∀ cause, (∃ q, pend = some q ∧ cause = q.cause) ∨ (pend = none ∧ x.stepFlag = true ∧ cause = .step) →
        evaluated pl cause []) ∧
    (st = .transition → kept → ∀ t, x.trans = some t →
      (near pl → y.state = .coordinated ∧ y.trans = none ∧ y.run = some (plain pl) ∧
        s.recorded u i [s.endsAs i x.current t .completed]) ∧
      (¬near pl → ∀ d, (x.stepFlag = true ∨ (t.forced = true ∧ t.dir ≠ .immediate) → d = chooseDirection pl (err pl) t.forced x.targetMode) →
        (x.stepFlag = false → (t.forced = false ∨ t.dir = .immediate) → d = t.dir) →
        y.state = .transition ∧ y.run = some (correctedRun pl p (err pl) d) ∧ s.recorded u i [] ∧
        y.trans = some { t with
          dir := d, used := min 255 (t.used + 1), total := min 65535 (t.total + (cycleAmount pl (err pl) d).2) })) ∧
    (st = .joining → kept → y.state = .joining ∧ y.trans = x.trans ∧ s.recorded u i [] ∧
      (near pl ∨ x.stepFlag = false → y.run = some (plain pl)) ∧
      (¬near pl → x.stepFlag = true → y.run = some (correctedRun pl p (err pl) .immediate))) ∧
    (st = .lost → y.state = .lost ∧ y.pendingEval = none ∧ (kept → y.run = some (plain pl))) ∧
    (st = .overridden → y.state = .overridden ∧ y.run = some (plain pl) ∧ y.current = x.current ∧ u.store = s.store)

/-! ### The arithmetic of chapter 3 -/

/-- R53: a lengthening cycle adds all of its amount to the coordinated phase, and every other phase keeps its plan split; in a
plan whose splits sum to its cycle length the coordinated phase's split stays within the length of the cycle. -/
def Obligations.LengtheningGoesToCoordinatedPhase : Prop :=
  ∀ (pl : Plan) (a : Nat), 1 ≤ pl.coord → pl.coord ≤ pl.phases.length → (pl.phases.map Phase.split).sum = pl.cycle →
    (∀ j, (lengthenedSplits pl a)[j]? = ((pl.phases.map Phase.split)[j]?).map fun x => if j + 1 = pl.coord then x + a else x) ∧
    (∀ p e, (cycleAmount pl e .lengthen).1 = false ∧
      (correctedRun pl p e .lengthen).splits = lengthenedSplits pl (cycleAmount pl e .lengthen).2 ∧
      ((cycleAmount pl e .immediate).1 = false →
        (correctedRun pl p e .immediate).splits = lengthenedSplits pl (cycleAmount pl e .immediate).2)) ∧
    ∀ x ∈ lengthenedSplits pl a, x ≤ pl.cycle + a

/-- R45: the direction in the fixed modes LENGTHEN and SHORTEN, for every error: it is kept whatever the number of cycles it needs,
and replaced by IMMEDIATE only when its limit is 0. R44: in mode BEST the sense that needs the fewer whole cycles, ns to shorten and nl to
lengthen, is taken, a tie going to LENGTHEN; with one limit at 0 the other sense, and with both IMMEDIATE. In mode IMMEDIATE (R46) and
where it is forced (R47) the direction is IMMEDIATE, and an absent mode is BEST (R48). The usable shortening limit is S or what the
phases but the coordinated one hold above their minimums, whichever is less (R42). -/
def Obligations.FixedModesKeepTheirSense : Prop :=
  (∀ (pl : Plan) (e : Nat),
    (0 < pl.longLimit → chooseDirection pl e false (some .lengthen) = .lengthen) ∧
    (pl.longLimit = 0 → chooseDirection pl e false (some .lengthen) = .immediate) ∧
    (0 < pl.usable → chooseDirection pl e false (some .shorten) = .shorten) ∧
    (pl.usable = 0 → chooseDirection pl e false (some .shorten) = .immediate)) ∧
  (∀ (pl : Plan) (e : Nat),
    (pl.usable = 0 → pl.longLimit = 0 → chooseDirection pl e false (some .best) = .immediate) ∧
    (pl.usable = 0 → 0 < pl.longLimit → chooseDirection pl e false (some .best) = .lengthen) ∧
    (0 < pl.usable → pl.longLimit = 0 → chooseDirection pl e false (some .best) = .shorten) ∧
    (0 < pl.usable → 0 < pl.longLimit → ∀ ns nl : Nat,
      (e ≤ ns * pl.usable ∧ ∀ m, m < ns → m * pl.usable < e) →
      (pl.cycle - e ≤ nl * pl.longLimit ∧ ∀ m, m < nl → m * pl.longLimit < pl.cycle - e) →
      chooseDirection pl e false (some .best) = if nl ≤ ns then .lengthen else .shorten)) ∧
  (∀ (pl : Plan) (e : Nat) (mode : Option Mode), chooseDirection pl e true mode = .immediate ∧
    chooseDirection pl e false (some .immediate) = .immediate ∧
    chooseDirection pl e false none = chooseDirection pl e false (some .best)) ∧
  ∀ (pl : Plan) (c : Phase), 1 ≤ pl.coord → pl.phases[pl.coord - 1]? = some c →
    pl.longLimit = pl.cycle * pl.longPct / 100 ∧ pl.usable = min (pl.cycle * pl.shortPct / 100) pl.avail ∧
    pl.avail + (c.split - c.minimum) = (pl.phases.map fun x => x.split - x.minimum).sum

/-- R49, R54, R59: in a plan as LOAD PLAN checks it, every cycle that corrects an error is sound: its splits sum to its length, which
lies from C - avail to 2C - 1; none falls below its phase's minimum, and the coordinated phase loses nothing. Its length is C less or more
the amount of R49's table, and in a shortening cycle the phases after the coordinated one give time up in turn, wrapping at the
list's end, each as much as it can of what is still unmet. -/
def Obligations.CorrectedCyclesAreSound : Prop :=
  ∀ (cycle offset : Half) (shortPct longPct coord : Byte) (phases : List PhaseEntry) (p e : Nat) (d : Direction),
    legalPlan cycle offset coord phases → splitsSum cycle phases → 1 ≤ e → e < cycle.toNat →
    let pl := planGiven cycle offset shortPct longPct coord phases
    let run := correctedRun pl p e d
    run.splits.length = phases.length ∧ run.splits.sum = run.len ∧ run.p = p ∧
      pl.cycle - pl.avail ≤ run.len ∧ run.len ≤ 2 * pl.cycle - 1 ∧
      (∀ (j : Nat) (x : Phase) (y : Nat), pl.phases[j]? = some x → run.splits[j]? = some y →
        x.minimum ≤ y ∧ (j + 1 = coord.toNat → x.split ≤ y)) ∧
      (d = .shorten → run.len = pl.cycle - min e pl.usable) ∧ (d = .lengthen → run.len = pl.cycle + min (pl.cycle - e) pl.longLimit) ∧
      (d = .immediate → e ≤ pl.avail → run.len = pl.cycle - e) ∧ (d = .immediate → pl.avail < e → run.len = 2 * pl.cycle - e) ∧
      (d = .shorten ∨ (d = .immediate ∧ e ≤ pl.avail) →
        let place := fun k => (coord.toNat - 1 + k) % phases.length
        let split := fun k => (pl.phases.map Phase.split).getD (place k) 0
        let gives := fun k => split k - run.splits.getD (place k) 0
        ∀ k, k < phases.length → run.splits.getD (place k) 0 ≤ split k ∧
          gives k = if k = 0 then 0 else
            min (split k - (pl.phases.map Phase.minimum).getD (place k) 0) (pl.cycle - run.len - ((List.range k).map gives).sum))

/-! ### The plan store -/

/-- LOAD_PLAN of a key with no record (R64, R65, R68): a checked plan takes the lowest-numbered free location as a NORMAL record,
its image written with fresh check bits; with no location free the outcome is NO_ROOM. -/
def Obligations.LoadPlanWritesRecord : Prop :=
  ∀ (s : State) (src : Source) (slot plan : Byte) (cycle offset : Half) (shortPct longPct coord : Byte)
    (phases : List PhaseEntry) (r : Request) (i : Fin 64),
    s.readyFor (.loadPlan src slot plan cycle offset shortPct longPct coord phases) r → slot.toNat = i.val →
    1 ≤ plan.toNat → plan.toNat ≤ 250 → legalPlan cycle offset coord phases → splitsSum cycle phases →
    (s.slot i).state ≠ .unused → s.store.recordOf i plan.toNat = none → s.store.wf = true → s.store.stuck = [] →
    ∃ t, exec (.loadPlan src slot plan cycle offset shortPct longPct coord phases) s = .next t ∧
      (s.store.full → s.refusedWith t r .noRoom) ∧
      ∀ n, s.store.lowestFreeIs n →
        s.store.becomes t.store
          (Location.mk n .record i plan.toNat false none
            ((planImage i plan.toNat (planGiven cycle offset shortPct longPct coord phases) n).map CodeWord.fresh)) [n] ∧
        s.answered t r .done (num2 n ++ [0#8] ++ num1 (min 25 shortPct.toNat) ++ num1 (min 50 longPct.toNat) ++
          num1 (bitsNum [(s.slot i).current == plan.toNat, (s.slot i).target == plan.toNat, false])) ∧
        s.changesOnly t [.store, .trunk, .mgmt]

/-- LOAD_PLAN of a key with a record (R66, R67, R68): a plan that is not current is overwritten in place; the current plan's new
version is written over its shadow, or as a new shadow in the lowest-numbered free location, and the record itself is not touched but
for its link. -/
def Obligations.LoadPlanReplaces : Prop :=
  ∀ (s : State) (src : Source) (slot plan : Byte) (cycle offset : Half) (shortPct longPct coord : Byte)
    (phases : List PhaseEntry) (r : Request) (i : Fin 64) (l : Location),
    s.readyFor (.loadPlan src slot plan cycle offset shortPct longPct coord phases) r → slot.toNat = i.val →
    1 ≤ plan.toNat → plan.toNat ≤ 250 → legalPlan cycle offset coord phases → splitsSum cycle phases →
    (s.slot i).state ≠ .unused → s.store.recordOf i plan.toNat = some l → s.store.wf = true → s.store.stuck = [] →
    ∃ t, exec (.loadPlan src slot plan cycle offset shortPct longPct coord phases) s = .next t ∧
      let p := planGiven cycle offset shortPct longPct coord phases
      let words := fun n => (planImage i plan.toNat p n).map CodeWord.fresh
      let target := (s.slot i).target == plan.toNat
      let reply := fun (n : Nat) (role : Byte) (pins : List Bool) =>
        num2 n ++ [role] ++ num1 (min 25 shortPct.toNat) ++ num1 (min 50 longPct.toNat) ++ num1 (bitsNum pins)
      ((s.slot i).current ≠ plan.toNat →
        s.store.becomes t.store { l with faulted := false, words := words l.num } [l.num] ∧
        s.answered t r .done (reply l.num 0#8 [false, target, l.link.isSome]) ∧ s.changesOnly t [.store, .trunk, .mgmt]) ∧
      ((s.slot i).current = plan.toNat → ∀ sh, s.store.shadowOf i plan.toNat = some sh → sh.slot = i → sh.plan = plan.toNat →
        s.store.becomes t.store { sh with faulted := false, words := words sh.num } [sh.num] ∧
        s.answered t r .done (reply sh.num 1#8 [true, target, true]) ∧ s.changesOnly t [.store, .trunk, .mgmt]) ∧
      ((s.slot i).current = plan.toNat → s.store.shadowOf i plan.toNat = none →
        (s.store.full → s.refusedWith t r .noRoom) ∧
        ∀ n, s.store.lowestFreeIs n →
          s.store.becomes t.store (Location.mk n .shadow i plan.toNat false none (words n)) [n, l.num] ∧
          s.store.becomes t.store { l with link := some n } [n, l.num] ∧
          s.answered t r .done (reply n 1#8 [true, target, true]) ∧ s.changesOnly t [.store, .trunk, .mgmt])

/-- DROP_PLAN (R70): an unpinned record is freed, a pinned one is refused; a shadow is freed and its record's link cleared; what is
not there gives NO_SUCH, and a bad value BAD_VALUE. -/
def Obligations.DropPlanDrops : Prop :=
  ∀ (s : State) (src : Source) (slot plan part : Byte) (r : Request), s.readyFor (.dropPlan src slot plan part) r →
    s.store.wf = true →
    ∃ t, exec (.dropPlan src slot plan part) s = .next t ∧
      ((63 < slot.toNat ∨ plan.toNat = 0 ∨ 250 < plan.toNat ∨ 1 < part.toNat) → s.refusedWith t r .badValue) ∧
      ∀ i : Fin 64, slot.toNat = i.val → 1 ≤ plan.toNat → plan.toNat ≤ 250 →
        (part = 0#8 → s.store.recordOf i plan.toNat = none → s.refusedWith t r .noSuch) ∧
        (part = 0#8 → ∀ l, s.store.recordOf i plan.toNat = some l →
          ((s.slot i).current = plan.toNat ∨ (s.slot i).target = plan.toNat ∨ l.link ≠ none → s.refusedWith t r .inUse) ∧
          ((s.slot i).current ≠ plan.toNat → (s.slot i).target ≠ plan.toNat → l.link = none →
            t.store = { s.store with held := s.store.held.filter fun m => m.num != l.num } ∧
            s.answered t r .done [] ∧ s.changesOnly t [.store, .trunk, .mgmt])) ∧
        (part = 1#8 → s.store.shadowOf i plan.toNat = none → s.refusedWith t r .noSuch) ∧
        (part = 1#8 → ∀ l sh, s.store.recordOf i plan.toNat = some l → s.store.shadowOf i plan.toNat = some sh →
          s.store.becomes t.store { l with link := none } [l.num, sh.num] ∧ (∀ m ∈ t.store.held, m.num ≠ sh.num) ∧
          s.answered t r .done [] ∧ s.changesOnly t [.store, .trunk, .mgmt])

/-- READ_PLAN (R63, R72 to R74): what is absent, marked FAULTED, clean, corrected or beyond repair, for a record and for a shadow; plan 0 gives the
counts; the store summary comes with every reply. A read that corrects words writes them back with fresh check bits and counts them. Where the
summary stands in a reply, the one-byte counts and the lone shadow flag are log entry 10. -/
def Obligations.ReadPlanReads : Prop :=
  ∀ (s : State) (src : Source) (slot plan part : Byte) (r : Request), s.readyFor (.readPlan src slot plan part) r →
    s.store.wf = true → s.store.corrected ≤ 65535 →
    ∃ t, exec (.readPlan src slot plan part) s = .next t ∧
      ((63 < slot.toNat ∨ 250 < plan.toNat ∨ 1 < part.toNat) →
        s.answered t r .badValue s.store.summary ∧ s.changesOnly t [.trunk, .mgmt]) ∧
      ∀ i : Fin 64, slot.toNat = i.val →
        let absent : Prop := s.answered t r .noSuch s.store.summary ∧ s.changesOnly t [.trunk, .mgmt]
        let reads := fun (l : Location) (marks : List Byte) =>
          (l.faulted = true → s.answered t r .faulted (num2 l.num ++ s.store.summary) ∧ s.changesOnly t [.trunk, .mgmt]) ∧
          (l.faulted = false → l.clean → s.changesOnly t [.trunk, .mgmt] ∧
            s.answered t r .done ((imagePlan l.data).fields ++ num2 l.num ++ marks ++ s.store.summary)) ∧
          (l.faulted = false → l.sound → s.store.stuck = [] →
            t.store.corrected = min 65535 (s.store.corrected + l.fixed) ∧
            s.store.becomes { t.store with corrected := s.store.corrected } l.rewritten [l.num] ∧
            s.answered t r .done ((imagePlan l.readData).fields ++ num2 l.num ++ marks ++ t.store.summary) ∧
            s.changesOnly t [.store, .trunk, .mgmt]) ∧
          (l.faulted = false → (∃ w ∈ l.words, w.finding = .uncorrectable) →
            s.store.becomes t.store { l with faulted := true } [l.num] ∧ s.notified t .planFault ∧
            s.answered t r .faulted (num2 l.num ++ t.store.summary) ∧ s.changesOnly t [.store, .records, .trunk, .mgmt])
        (plan = 0#8 → part.toNat ≤ 1 → s.changesOnly t [.trunk, .mgmt] ∧ s.answered t r .done (s.store.summary ++
          num1 (s.store.held.countP fun l => l.occupancy == .record && l.slot == i) ++
          num1 (s.store.held.countP fun l => l.occupancy == .record && l.slot == i && l.link.isSome))) ∧
        (part = 0#8 → 1 ≤ plan.toNat → plan.toNat ≤ 250 →
          (s.store.recordOf i plan.toNat = none → absent) ∧
          ∀ l, s.store.recordOf i plan.toNat = some l →
            reads l (num1 (bitsNum [(s.slot i).current == plan.toNat, (s.slot i).target == plan.toNat, l.link.isSome]) ++
              num1 (s.store.shadowOf i plan.toNat).isSome.toNat)) ∧
        (part = 1#8 → 1 ≤ plan.toNat → plan.toNat ≤ 250 →
          (s.store.shadowOf i plan.toNat = none → absent) ∧
          (s.store.keyed → ∀ l, s.store.shadowOf i plan.toNat = some l → reads l [0#8, 1#8]))

/-- R74, R188 (Table 12-7): the image of a plan that LOAD PLAN checked reads back as that plan. -/
def Obligations.PlanImageRoundTrip : Prop :=
  ∀ (i : Fin 64) (plan num : Nat) (cycle offset : Half) (shortPct longPct coord : Byte) (phases : List PhaseEntry),
    1 ≤ plan → plan ≤ 250 → num < 1024 → legalPlan cycle offset coord phases →
    let p := planGiven cycle offset shortPct longPct coord phases
    let image := planImage i plan p num
    image.length = 32 ∧ imagePlan image = p ∧ wordAt image 0 = i.val * 256 + plan ∧ wordAt image 29 = 0 ∧
      wordAt image 30 = 0 ∧ wordAt image 31 = num ∧ ∀ d ∈ image, (CodeWord.fresh d).finding = .clean

/-- R74, R188: the check bits correct every single inverted cell of a word and detect every pair. -/
def Obligations.CheckBitsCorrectAndDetect : Prop :=
  ∀ d : Half, (CodeWord.fresh d).finding = .clean ∧
    (∀ k, k < 22 → ((CodeWord.fresh d).flipCell k).finding = .corrected d (decide (16 ≤ k))) ∧
    ∀ j k, j < 22 → k < 22 → j ≠ k → (((CodeWord.fresh d).flipCell j).flipCell k).finding = .uncorrectable

/-- CHECKSUM_PLANS (R74, R176, R177): the sum, the counts and PARTIAL with the next location after 64, over the occupied locations of the range: a
FAULTED one is counted and left; one beyond repair is counted as read and as FAULTED and is marked, with PLAN_FAULT; any other is summed as
corrected, and written back. Where all are FAULTED or clean nothing changes; a bad range gives BAD_VALUE. The one-byte counts, and the
next location with PARTIAL only, are log entry 10. -/
def Obligations.ChecksumSums : Prop :=
  ∀ (s : State) (src : Source) (first last sum : Half) (r : Request), s.readyFor (.checksumPlans src first last sum) r →
    s.store.wf = true → s.store.corrected ≤ 65535 →
    ∃ t, exec (.checksumPlans src first last sum) s = .next t ∧
      ((1023 < first.toNat ∨ 1023 < last.toNat ∨ last.toNat < first.toNat) → s.refusedWith t r .badValue) ∧
      (first.toNat ≤ last.toNat → last.toNat ≤ 1023 →
        let taken := min 64 (last.toNat + 1 - first.toNat)
        let inRange := fun (l : Location) => decide (first.toNat ≤ l.num) && decide (l.num < first.toNat + taken)
        let repairable := fun (l : Location) => l.words.all fun w => w.finding != .uncorrectable
        let read := (s.store.held.filter inRange).filter fun l => !l.faulted
        let good := read.filter repairable
        let total := num2 ((sum.toNat + (good.map fun l => (l.readData.map BitVec.toNat).sum).sum) % 65536)
        let counts := num1 taken ++ num1 read.length ++
          num1 ((s.store.held.filter inRange).length - good.length) ++ num2 (good.map Location.fixed).sum
        let after := fun (l : Location) =>
          if l.faulted = true ∨ inRange l = false then l else if repairable l = true then l.rewritten else { l with faulted := true }
        (s.store.stuck = [] → t.store = { s.store with
          held := s.store.held.map after, corrected := min 65535 (s.store.corrected + (good.map Location.fixed).sum) }) ∧
        (good.length < read.length → s.notified t .planFault) ∧ (good.length = read.length → t.records = s.records) ∧
        ((∀ l ∈ read, l.clean) → s.changesOnly t [.trunk, .mgmt]) ∧
        s.onlyNotices t ∧ s.changesOnly t [.store, .records, .trunk, .mgmt] ∧
        (last.toNat < first.toNat + 64 → s.answered t r .done (total ++ counts)) ∧
        (first.toNat + 64 ≤ last.toNat → s.answered t r .partly (total ++ num2 (first.toNat + 64) ++ counts)))

/-- TEST_LOCATION (R178 to R180): a shadow or a pinned record is refused; a location without a stuck cell passes and is left as it
was. A free location fails, and the log-out record is written: with one stuck data bit by DATA, and with one stuck check bit by CHECK, at the
first pattern that the bit does not match (a check bit that matches all three passes); with two data bits of a word stuck against the
first pattern by DETECT. Stuck cells are the model's own state (log entry 8). The reply's result byte, PASS 0 and FAIL 1, the log-out record
behind it on FAIL with no presence byte, its widths, and nothing behind it on PASS are the layout of log entry 10. -/
def Obligations.TestLocationTests : Prop :=
  ∀ (s : State) (src : Source) (location : Half) (r : Request), s.readyFor (.testLocation src location) r →
    s.store.wf = true →
    ∃ t, exec (.testLocation src location) s = .next t ∧
      (1023 < location.toNat → s.refusedWith t r .badValue) ∧
      (∀ l ∈ s.store.held, l.num = location.toNat →
        (l.occupancy = .shadow ∨ (s.slot l.slot).current = l.plan ∨ (s.slot l.slot).target = l.plan ∨ l.link ≠ none) →
        s.refusedWith t r .inUse) ∧
      (∀ l ∈ s.store.held, l.num = location.toNat → l.occupancy = .record → (s.slot l.slot).current ≠ l.plan →
        (s.slot l.slot).target ≠ l.plan → l.link = none → (∀ b ∈ s.store.stuck, b.num ≠ location.toNat) →
        s.answered t r .done (num2 location.toNat ++ [1#8, 0#8]) ∧ s.changesOnly t [.trunk, .mgmt]) ∧
      (location.toNat ≤ 1023 → (∀ l ∈ s.store.held, l.num ≠ location.toNat) →
        let passes : Prop := s.answered t r .done (num2 location.toNat ++ [0#8, 0#8]) ∧ s.changesOnly t [.trunk, .mgmt]
        let fails := fun (error : TestError) (pattern word : Nat) (dataDiff : Half) (checkDiff : BitVec 6) =>
          t.logOut = some ⟨location.toNat, error, pattern, word, dataDiff, checkDiff, ⟨s.time.day, s.time.nt⟩⟩ ∧
          s.answered t r .done (num2 location.toNat ++ [0#8, 1#8] ++ num2 location.toNat ++ num1 (testErrorCode error) ++ num1 pattern ++
            num1 word ++ halfBytes dataDiff ++ num1 checkDiff.toNat ++ num2 s.time.day ++ num4 s.time.nt) ∧
          s.changesOnly t [.logOut, .trunk, .mgmt]
        ((∀ b ∈ s.store.stuck, b.num ≠ location.toNat) → passes) ∧
        (∀ word bit level, word < 32 → bit < 16 → s.store.stuck = [⟨location.toNat, word, bit, level⟩] →
          fails .data (if level = decide (bit % 2 = 0) then 2 else 1) word (1#16 <<< bit) 0#6) ∧
        (∀ word bit level, word < 32 → bit < 6 → s.store.stuck = [⟨location.toNat, word, bit + 16, level⟩] →
          let matched := fun (d : Half) => (checkBits d).getLsbD bit = level
          (¬matched 0x5555#16 → fails .check 1 word 0#16 (1#6 <<< bit)) ∧
          (matched 0x5555#16 → ¬matched 0xAAAA#16 → fails .check 2 word 0#16 (1#6 <<< bit)) ∧
          (matched 0x5555#16 → matched 0xAAAA#16 →
            (¬matched (BitVec.ofNat 16 (location.toNat * 32 + word)) → fails .check 3 word 0#16 (1#6 <<< bit)) ∧
            (matched (BitVec.ofNat 16 (location.toNat * 32 + word)) → passes))) ∧
        ∀ word bit bit', word < 32 → bit < 16 → bit' < 16 → bit ≠ bit' →
          s.store.stuck = [⟨location.toNat, word, bit, decide (bit % 2 = 1)⟩, ⟨location.toNat, word, bit', decide (bit' % 2 = 1)⟩] →
          fails .detect 1 word ((1#16 <<< bit) ^^^ (1#16 <<< bit')) 0#6)

/-- FORCE_CHECK (R181): the named check bits of the named word are inverted in place and the scrubber is turned OFF where it stands; bad
values, a free location and a FAULTED one are refused. -/
def Obligations.ForceCheckFlips : Prop :=
  ∀ (s : State) (src : Source) (location : Half) (word bit1 bit2 : Byte) (r : Request),
    s.readyFor (.forceCheck src location word bit1 bit2) r → s.store.wf = true → s.store.stuck = [] →
    let legal : Prop := location.toNat ≤ 1023 ∧ word.toNat ≤ 31 ∧ bit1.toNat ≤ 5 ∧ (bit2 = 0xFF#8 ∨ bit2.toNat ≤ 5) ∧ bit1 ≠ bit2
    ∃ t, exec (.forceCheck src location word bit1 bit2) s = .next t ∧
      (¬legal → s.refusedWith t r .badValue) ∧
      (legal → (∀ l ∈ s.store.held, l.num ≠ location.toNat) → s.refusedWith t r .noSuch) ∧
      (legal → ∀ l ∈ s.store.held, l.num = location.toNat →
        (l.faulted = true → s.refusedWith t r .faulted) ∧
        (l.faulted = false →
          let flip : BitVec 6 := (1#6 <<< bit1.toNat) ^^^ (if bit2 = 0xFF#8 then 0#6 else 1#6 <<< bit2.toNat)
          let l' := { l with words := l.words.modify word.toNat fun w => { w with check := w.check ^^^ flip } }
          l' ∈ t.store.held ∧ (∀ m, m.num ≠ l.num → (m ∈ t.store.held ↔ m ∈ s.store.held)) ∧
          t.store = { s.store with held := t.store.held, scrubOn := false } ∧
          s.answered t r .done ([1#8] ++ num2 s.store.scrubPos) ∧ s.changesOnly t [.store, .trunk, .mgmt]))

/-- SCRUB_CONTROL (R182) sets the scrubber's state and keeps its position and pass count; READ_LOGOUT (R180) returns the log-out record
and leaves it; the widths of its pattern, word index and differences are log entry 10. -/
def Obligations.ScrubControlAndLogout : Prop :=
  (∀ (s : State) (src : Source) (code : Byte) (r : Request), s.readyFor (.scrubControl src code) r →
    ∃ t, exec (.scrubControl src code) s = .next t ∧ (1 < code.toNat → s.refusedWith t r .badValue) ∧
      (code.toNat ≤ 1 → t.store = { s.store with scrubOn := decide (code = 0#8) } ∧ s.changesOnly t [.store, .trunk, .mgmt] ∧
        s.answered t r .done ([code] ++ num2 s.store.scrubPos ++ num2 s.store.passes))) ∧
  ∀ (s : State) (src : Source) (r : Request), s.readyFor (.readLogout src) r →
    ∃ t, exec (.readLogout src) s = .next t ∧ s.changesOnly t [.trunk, .mgmt] ∧
      (s.logOut = none → s.answered t r .done (List.replicate 15 0#8)) ∧
      ∀ x, s.logOut = some x → s.answered t r .done ([1#8] ++ num2 x.num ++ num1 (testErrorCode x.error) ++ num1 x.pattern ++
        num1 x.word ++ halfBytes x.dataDiff ++ num1 x.checkDiff.toNat ++ num2 x.stamp.day ++ num4 x.stamp.nt)

/-! ### Groups -/

/-- SET_GROUP (R92): the five settings as clamped; a changed policy or set time brings the settlement decision of R83; while time is
set the group shows the selection of its tables, and so do its defined members' targets. Bad values are refused. The settlement decision by
R82's table and R83's order, and the hold test (R88). A member event, of DEFINE_SLOT, of RELEASE_SLOT or another, enters the member view and
brings the decision (R81, R83): the adopted flag joins as R84 says, leaving STEADY restarts elapsed and the flags, entry to STEADY raises
GROUP_STEADY, and a reported group forces the transition (R91). That the event of DEFINE_SLOT or RELEASE_SLOT does not set the flag by itself
is the model's choice (log entry 25); that the limit-reported flag is read after the decision is log entry 15, and that the forced-immediate
event then reaches the slot with the member event is log entry 3. A selection result (R85): a new plan sets elapsed to 0 and clears both
flags, the same plan leaves them, and every defined member takes the target. -/
def Obligations.SetGroupSettles : Prop :=
  let settled := fun (x : Group) (m : Member) => x.target = 0 ∨ (m.state = .coordinated ∧ m.current = x.target) ∨
    ((m.state = .overridden ∨ m.state = .lost) ∧ x.policy = .leave)
  let entersSteady := fun (s t : State) (g : Fin 16) =>
    (s.group g).state ≠ .steady → (t.group g).state = .steady → s.notified t .groupSteady
  let decided := fun (s t : State) (g : Fin 16) (adopts : Bool) =>
    let left : Prop := (s.group g).state = .steady ∧ (t.group g).state ≠ .steady
    (t.group g).state = t.decision g ∧ entersSteady s t g ∧ (∀ h, h ≠ g → t.group h = s.group h) ∧
    (left → (t.group g).elapsed = 0 ∧ (t.group g).reported = false ∧ (t.group g).adopted = true) ∧
    (¬left → (t.group g).elapsed = (s.group g).elapsed ∧ (t.group g).reported = (s.group g).reported ∧
      (t.group g).adopted = ((s.group g).adopted || adopts))
  let viewed := fun (s t : State) (i : Fin 64) (m : Option Member) => t.member i = m ∧ ∀ j, j ≠ i → t.member j = s.member j
  let settingsStand := fun (s t : State) (g : Fin 16) => t.group g = { s.group g with
    state := (t.group g).state, elapsed := (t.group g).elapsed, reported := (t.group g).reported, adopted := (t.group g).adopted }
  (∀ (s : State) (src : Source) (group defaultPlan policy mode tol limit : Byte) (r : Request),
    s.readyFor (.setGroup src group defaultPlan policy mode tol limit) r →
    let legal : Prop := group.toNat ≤ 15 ∧ defaultPlan.toNat ≤ 250 ∧ policy.toNat ≤ 1 ∧ mode.toNat ≤ 3
    let newPolicy : Policy := if policy = 0#8 then .wait else .leave
    ∃ t, exec (.setGroup src group defaultPlan policy mode tol limit) s = .next t ∧
      (¬legal → s.refusedWith t r .badValue) ∧
      (legal → ∀ g : Fin 16, group.toNat = g.val →
        s.answered t r .done ([defaultPlan, policy, mode] ++ num1 (min 20 tol.toNat) ++ num1 (max 1 (min 60 limit.toNat))) ∧
        (t.group g).defaultPlan = defaultPlan.toNat ∧ (t.group g).policy = newPolicy ∧
        modeCode (t.group g).defaultMode = mode.toNat ∧ (t.group g).tol = min 20 tol.toNat ∧
        (t.group g).limit = max 1 (min 60 limit.toNat) ∧
        ((s.group g).policy ≠ newPolicy ∨ s.time.disc ≠ .unset → (t.group g).state = t.decision g) ∧
        entersSteady s t g ∧
        (s.time.disc = .unset → s.changesOnly t [.groups, .records, .trunk, .mgmt] ∧
          (∀ h, h ≠ g → t.group h = s.group h) ∧ ((s.group g).policy ≠ newPolicy → decided s t g false) ∧
          ((s.group g).policy = newPolicy → (t.group g).state = (s.group g).state ∧ (t.group g).elapsed = (s.group g).elapsed ∧
            (t.group g).reported = (s.group g).reported ∧ (t.group g).adopted = (s.group g).adopted)) ∧
        (s.time.disc ≠ .unset → t.showsSelection g ∧
          (∀ i, (s.member i).any (fun m => m.group == g) → (s.slot i).state ≠ .unused →
            (t.slot i).target = (t.group g).target) ∧
          s.changesOnly t (.trunk :: .mgmt :: Block.engine)))) ∧
  (∀ (s : State) (g : Fin 16),
    let unsettled : Prop := ∃ i m, s.member i = some m ∧ m.group = g ∧ ¬settled (s.group g) m
    let waits : Prop := (s.group g).policy = .wait ∧ ∃ i m, s.member i = some m ∧ m.group = g ∧ m.state = .overridden
    (¬unsettled → s.decision g = .steady) ∧ (unsettled → waits → s.decision g = .held) ∧
    (unsettled → ¬waits → (s.group g).adopted = true → s.decision g = .transition) ∧
    (unsettled → ¬waits → (s.group g).adopted = false → s.decision g = .pending)) ∧
  (∀ (s : State) (i : Fin 64), s.holds? i = true ↔ (s.group (s.slot i).group).state = .held ∧
    ∃ j m, j ≠ i ∧ s.member j = some m ∧ m.group = (s.slot i).group ∧ m.state = .overridden) ∧
  (∀ (s : State) (i : Fin 64) (state : SlotState) (current : Nat) (g : Fin 16),
    let t := s.takeMember ⟨i, state, current, some g⟩
    viewed s t i (some ⟨g, state, current⟩) ∧ decided s t g false ∧ settingsStand s t g ∧
      s.changesOnly t [.groups, .members, .records]) ∧
  (∀ (s : State) (i : Fin 64) (state : SlotState) (current : Nat) (old : Member), s.member i = some old →
    let t := s.takeMember ⟨i, state, current, none⟩
    let g := old.group
    let forced : Prop := (t.group g).reported = true ∧ state = .transition
    settingsStand s t g ∧
    (state = .unused → viewed s t i none ∧ decided s t g false ∧ s.changesOnly t [.groups, .members, .records]) ∧
    (state ≠ .unused → viewed s t i (some ⟨g, state, current⟩) ∧
      decided s t g (decide (current = (s.group g).target ∧ current ≠ old.current)) ∧
      (forced → t.slot i = { s.slot i with trans := (s.slot i).trans.map fun r => { r with forced := true } } ∧
        s.otherSlotsStand t i ∧ s.changesOnly t [.slots, .groups, .members, .records]) ∧
      (¬forced → s.changesOnly t [.groups, .members, .records]))) ∧
  ∀ (s : State) (g : Fin 16) (x : Selection),
    let t := s.takeSelection g x
    (t.group g).target = x.plan ∧ (t.group g).layer = some x.layer ∧
    (t.group g).targetMode = some (x.mode.getD (s.group g).defaultMode) ∧ (t.group g).state = t.decision g ∧ entersSteady s t g ∧
    (∀ i, (s.member i).any (fun m => m.group == g) → (s.slot i).state ≠ .unused →
      (t.slot i).target = x.plan ∧ (t.slot i).targetCause = some x.layer ∧
        (t.slot i).targetMode = some (x.mode.getD (s.group g).defaultMode)) ∧
    (∀ h, h ≠ g → t.group h = s.group h) ∧ s.changesOnly t Block.engine ∧
    ((∀ i, (s.member i).any (fun m => m.group == g) → ¬((s.slot i).state = .joining ∧ (s.slot i).run = none)) →
      (x.plan ≠ (s.group g).target →
        (t.group g).elapsed = 0 ∧ (t.group g).adopted = false ∧ (t.group g).reported = false) ∧
      (x.plan = (s.group g).target → (t.group g).elapsed = (s.group g).elapsed ∧
        (t.group g).adopted = (s.group g).adopted ∧ (t.group g).reported = (s.group g).reported) ∧
      s.changesOnly t [.slots, .groups, .records])

/-- READ_GROUP (R93): the group record, the member count, the count of members settled by R82's table, and the members at or above the
cursor, at most 32 to a reply. READ_TIMETABLE (R114): up to eight items at or above the cursor, and with every reply the counts and, while time
is set, the day types of today and yesterday (R96) and the present minute. Each is PARTIAL with the next cursor when more remain, gives
BAD_VALUE for values out of range, and changes nothing. The next cursor as the last key and 1, and the CUE cursors 16 to 4095, are log
entry 18; the layout where Table 12-4 leaves it open, and that a BAD_VALUE lists no items, are log entry 10. -/
def Obligations.GroupsAndTimetablesAreRead : Prop :=
  let modeByte := fun (m : Option Mode) => match m with | some m => num1 (modeCode m) | none => [0xFF#8]
  (∀ (s : State) (src : Source) (group cursor : Byte) (r : Request), s.readyFor (.readGroup src group cursor) r →
    ∃ t, exec (.readGroup src group cursor) s = .next t ∧ s.changesOnly t [.trunk, .mgmt] ∧
      ((15 < group.toNat ∨ 63 < cursor.toNat) → s.refusedWith t r .badValue) ∧
      ∀ g : Fin 16, group.toNat = g.val → cursor.toNat ≤ 63 →
        let x := s.group g
        let settled := fun (m : Member) => x.target == 0 || (m.state == .coordinated && m.current == x.target) ||
          ((m.state == .overridden || m.state == .lost) && x.policy == .leave)
        let members := (List.finRange 64).filter fun i => (s.member i).any fun m => m.group == g
        let record := num1 x.defaultPlan ++ num1 (policyCode x.policy) ++ num1 (modeCode x.defaultMode) ++ num1 x.tol ++
          num1 x.limit ++ num1 (groupStateCode x.state) ++ num1 x.target ++
          (match x.layer with | some l => 1#8 :: num1 (layerCode l) | none => [0#8, 0#8]) ++ modeByte x.targetMode ++
          num1 x.elapsed ++ num1 x.adopted.toNat ++ num1 x.reported.toNat ++ num1 members.length ++
          num1 (members.countP fun i => (s.member i).any settled)
        let found := members.filter fun i => decide (cursor.toNat ≤ i.val)
        let item := fun (i : Fin 64) => match s.member i with
          | some m => num1 i.val ++ num1 (slotStateCode m.state) ++ num1 m.current ++ num1 (settled m).toNat
          | none => []
        (found.length ≤ 32 → s.answered t r .done (record ++ num1 found.length ++ (found.map item).flatten)) ∧
        (∀ h : 32 < found.length, s.answered t r .partly
          (record ++ num1 32 ++ ((found.take 32).map item).flatten ++ num1 ((found[31]'(by omega)).val + 1)))) ∧
  (∀ (s : State) (src : Source) (collection : Byte) (cursor : Half) (r : Request),
    s.readyFor (.readTimetable src collection cursor) r →
    ∃ t, exec (.readTimetable src collection cursor) s = .next t ∧ s.changesOnly t [.trunk, .mgmt] ∧
      let tables := s.tables
      let dayType := fun (d : Nat) => ((tables.calendar.find? fun e => e.day == d).map CalendarEntry.dayType).getD (d % 7)
      let counts := num1 tables.calendar.length ++ num2 tables.base.length ++ num1 tables.events.length ++
        num1 tables.cues.length ++
        (if s.time.disc = .unset then [0#8, 0#8, 0#8, 0#8, 0#8, 0#8, 0#8] else
          [1#8] ++ num1 (dayType s.time.day) ++ [1#8] ++ num1 (dayType ((s.time.day + 65535) % 65536)) ++
            [1#8] ++ num2 (s.time.nt / 600))
      let items : List (Nat × List Byte) :=
        if collection = 0#8 then tables.calendar.map fun e => (e.day, num2 e.day ++ num1 e.dayType)
        else if collection = 1#8 then tables.base.map fun e => (e.id,
          num2 e.id ++ num1 e.group.val ++ [e.mask] ++ num2 e.start ++ num1 e.plan ++ modeByte e.mode)
        else if collection = 2#8 then tables.events.map fun e => (e.id,
          num2 e.id ++ num1 e.group.val ++ num2 e.startDay ++ num2 e.startMinute ++ num2 e.endDay ++ num2 e.endMinute ++
            num1 e.plan ++ num1 e.priority ++ modeByte e.mode)
        else if collection = 3#8 then tables.cues.map fun e => (16 * e.number + e.group.val,
          num1 e.number ++ num1 e.group.val ++ num1 e.plan ++ num2 e.duration ++ num1 e.priority)
        else (List.finRange 16).map fun g => (g.val,
          (match tables.active.get g with
            | some c => 1#8 :: (num1 c.number ++ num1 c.plan ++ num1 c.priority ++ num5 c.endR)
            | none => List.replicate 9 0#8) ++
          (match tables.direct.get g with
            | some d => 1#8 :: (num1 d.plan ++ (match d.endR with | some e => num5 e | none => List.replicate 5 0xFF#8))
            | none => List.replicate 7 0#8))
      let outside : Prop := 4 < collection.toNat ∨ (collection = 1#8 ∧ 383 < cursor.toNat) ∨ (collection = 2#8 ∧ 63 < cursor.toNat) ∨
        (collection = 3#8 ∧ (cursor.toNat < 16 ∨ 4095 < cursor.toNat)) ∨ (collection = 4#8 ∧ 15 < cursor.toNat)
      let found := items.filter fun x => decide (cursor.toNat ≤ x.1)
      (outside → s.answered t r .badValue counts) ∧
      (¬outside → found.length ≤ 8 → s.answered t r .done (num1 found.length ++ (found.map Prod.snd).flatten ++ counts)) ∧
      (¬outside → ∀ h : 8 < found.length, s.answered t r .partly (num1 8 ++ ((found.take 8).map Prod.snd).flatten ++
        num2 ((found[7]'(by omega)).1 + 1) ++ counts)))

/-- TRANSITION_LIMIT_REACHED (R91): a group at its limit, not yet reported, is reported and forces the open transition of every member
that the member view holds in TRANSITION; any other group is left. R90: a minute event at a group counts its elapsed time, unless it is STEADY,
and then reports a limit reached in the same way; and a TICK that raises a minute, here with no slot running, does so at every group: with time
UNSET whatever the order of its events, and with time set, where the timetable engine is named first, from what its event leaves (R85, R112). That a STEADY group is compared with its limit too is log entry 15. The forced-immediate events
reach the members with the event itself, unless the order of a TICK names the arrival at a slot later (log entry 3): then a boundary of
the slot between GROUP_LIMIT and the arrival is taken without the flag (R47), and the event sets the flag of the transition it finds open.
Both orders are stated for a slot that runs alone. -/
def Obligations.LimitForcesTransitions : Prop :=
  let elapsedAfter := fun (x : Group) => if x.state = .steady then x.elapsed else min 255 (x.elapsed + 1)
  let reaches := fun (x : Group) => decide (x.limit ≤ elapsedAfter x) && !x.reported
  let minuted := fun (x : Group) => { x with elapsed := elapsedAfter x, reported := x.reported || reaches x }
  let forced := fun (x : Slot) => { x with trans := x.trans.map fun r => { r with forced := true } }
  let allMinuted := fun (s t : State) => (∀ g, t.group g = minuted (s.group g)) ∧
    (∀ g, reaches (s.group g) = true → s.notified t .groupLimit) ∧
    (∀ i, (s.member i).any (fun m => m.state == .transition && reaches (s.group m.group)) → t.slot i = forced (s.slot i)) ∧
    (∀ i, ¬(s.member i).any (fun m => m.state == .transition && reaches (s.group m.group)) → t.slot i = s.slot i)
  (∀ (s : State) (g : Fin 16), s.resetAsserted = false →
    (((s.group g).elapsed < (s.group g).limit ∨ (s.group g).reported = true) → exec (.transitionLimitReached g) s = .next s) ∧
    ((s.group g).limit ≤ (s.group g).elapsed → (s.group g).reported = false →
      ∃ t, exec (.transitionLimitReached g) s = .next t ∧ t.group g = { s.group g with reported := true } ∧
        (∀ h, h ≠ g → t.group h = s.group h) ∧ s.notified t .groupLimit ∧
        (∀ i, (s.member i).any (fun m => m.group == g && m.state == .transition) → t.slot i = forced (s.slot i)) ∧
        (∀ i, ¬(s.member i).any (fun m => m.group == g && m.state == .transition) → t.slot i = s.slot i) ∧
        s.onlyNotices t ∧ s.changesOnly t [.slots, .groups, .records])) ∧
  (∀ (s : State) (g : Fin 16),
    let t := (s.groupMinute g).1
    let sent := (s.groupMinute g).2
    t.group g = minuted (s.group g) ∧ (∀ h, h ≠ g → t.group h = s.group h) ∧
    (reaches (s.group g) = false → sent = [] ∧ s.changesOnly t [.groups]) ∧
    (reaches (s.group g) = true → s.notified t .groupLimit ∧ s.onlyNotices t ∧ s.changesOnly t [.groups, .records] ∧
      sent = (List.finRange 64).filter fun i => (s.member i).any fun m => m.group == g && m.state == .transition) ∧
    (∀ i ∈ sent, (s.groupMinute g).arrive.slot i = forced (s.slot i)) ∧
    (∀ i, i ∉ sent → (s.groupMinute g).arrive.slot i = s.slot i) ∧ t.changesOnly (s.groupMinute g).arrive [.slots]) ∧
  (∀ (s : State) (g : Fin 16) (i : Fin 64) (m : Member), s.resetAsserted = false → s.time.disc = .unset → ¬s.sameMinute →
    (∀ j, j ≠ i → (s.slot j).run = none) → s.member i = some m → m.group = g →
    let k : Nat := if s.time.phase ≥ 9 then (if 0 < s.time.slew then 2 else if s.time.slew < 0 then 0 else 1) else 1
    let limit := (s.setTime s.time.tick).groupMinute g
    let boundaryFirst := ((limit.1.forceAll (limit.2.filter (· ≠ i))).advanceSlot i k).deliver
    (∃ t, exec (.tick [.groupMinute g, .slot i, .forcedArrives i]) s = .next t ∧
      t.slot i = (if i ∈ limit.2 then forced (boundaryFirst.slot i) else boundaryFirst.slot i) ∧
      t.records.ring = boundaryFirst.records.ring) ∧
    ∃ t, exec (.tick [.groupMinute g, .slot i]) s = .next t ∧ t.slot i = (limit.arrive.advanceSlot i k).deliver.slot i ∧
      t.records.ring = (limit.arrive.advanceSlot i k).deliver.records.ring) ∧
  (∀ (s : State) (order : List TickEvent), s.resetAsserted = false → s.time.disc = .unset → (∀ i, (s.slot i).run = none) →
    ¬s.sameMinute →
    ∃ t, exec (.tick order) s = .next t ∧ allMinuted s t ∧ s.changesOnly t [.time, .slots, .groups, .store, .ports, .records]) ∧
  ∀ (s : State) (order : List TickEvent), s.resetAsserted = false → s.time.disc ≠ .unset → (∀ i, (s.slot i).run = none) →
    ¬s.sameMinute →
    let ticked := s.setTime s.time.tick
    let left := if s.time.wraps s.time.amount then ticked.timetableStep
      else ticked.timetableMinute ticked.time.day (ticked.time.nt / 600)
    ∃ t, exec (.tick (.timetable :: order)) s = .next t ∧ allMinuted left t ∧ s.changesOnly t (.time :: .tables :: Block.engine)

/-- HOLDOVER_ENTRY (R11), EVENT_ENTRY_END (R102), CUE_EXPIRY (R107) and DIRECT_EXPIRY (R109), each where its condition stands: the mark
age has reached 60 in LOCKED, or the end is at or before the present minute while time is set. TICK at the timetable engine (R4, R5, R102,
R107, R109, R112): while time is set, a tick that raises a minute event or a day event, whatever the order of its events, removes what has
ended and evaluates every group; one that raises none leaves the tables; the day wrap is a step, with the removals of a step. -/
def Obligations.ConditionsActWhenTheyStand : Prop :=
  (∀ s : State, s.resetAsserted = false → s.time.disc = .locked → 60 ≤ s.time.age →
    ∃ t, exec .holdoverEntry s = .next t ∧ t.time = { s.time with disc := .holdover, slew := 0, outliers := 0 } ∧
      s.notified t .timeHoldover ∧ s.onlyNotices t ∧ s.changesOnly t [.time, .records]) ∧
  (∀ (s : State) (id : Fin 64), s.resetAsserted = false → s.time.disc ≠ .unset →
    ∃ t, exec (.eventEntryEnd id) s = .next t ∧ t.tables = { s.tables with events := t.tables.events } ∧
      (∀ e, e ∈ t.tables.events ↔ e ∈ s.tables.events ∧
        ¬(e.id = id.val ∧ pairAtOrBefore e.endDay e.endMinute s.time.day (s.time.nt / 600))) ∧ s.changesOnly t [.tables]) ∧
  (∀ (s : State) (g : Fin 16), s.resetAsserted = false → s.time.disc ≠ .unset →
    let instant := s.time.day * 864000 + s.time.nt / 600 * 600
    ∃ t, exec (.cueExpiry g) s = .next t ∧ t.tables = { s.tables with active := t.tables.active } ∧
      (∀ h, h ≠ g → t.tables.active.get h = s.tables.active.get h) ∧
      (∀ c, s.tables.active.get g = some c → c.endR ≤ instant → t.tables.active.get g = none) ∧
      (∀ c, s.tables.active.get g = some c → instant < c.endR → t.tables.active.get g = some c) ∧ s.changesOnly t [.tables]) ∧
  (∀ (s : State) (g : Fin 16), s.resetAsserted = false → s.time.disc ≠ .unset →
    let instant := s.time.day * 864000 + s.time.nt / 600 * 600
    ∃ t, exec (.directExpiry g) s = .next t ∧ t.tables = { s.tables with direct := t.tables.direct } ∧
      (∀ h, h ≠ g → t.tables.direct.get h = s.tables.direct.get h) ∧
      (∀ d e, s.tables.direct.get g = some d → d.endR = some e → e ≤ instant → t.tables.direct.get g = none) ∧
      (∀ d, s.tables.direct.get g = some d → (∀ e, d.endR = some e → instant < e) → t.tables.direct.get g = some d) ∧
      s.changesOnly t [.tables]) ∧
  ∀ (s : State) (order : List TickEvent), s.resetAsserted = false →
    ∃ t, exec (.tick order) s = .next t ∧ (s.sameMinute → t.tables = s.tables) ∧
      (s.time.disc ≠ .unset → ¬s.sameMinute → s.time.day < 65536 → t.time.day ≠ 0 ∨ s.time.day = 0 →
        let minute := t.time.nt / 600
        let instant := t.time.day * 864000 + minute * 600
        t.tables = { s.tables with
          events := s.tables.events.filter fun e =>
            !(decide (e.endDay < t.time.day) || (e.endDay == t.time.day && decide (e.endMinute ≤ minute)))
          active := t.tables.active, direct := t.tables.direct } ∧
        (∀ (g : Fin 16) c, t.tables.active.get g = some c ↔ s.tables.active.get g = some c ∧ instant < c.endR) ∧
        (∀ (g : Fin 16) d, t.tables.direct.get g = some d ↔
          s.tables.direct.get g = some d ∧ ∀ e, d.endR = some e → instant < e) ∧
        ∀ g, t.showsSelection g) ∧
      (s.time.disc ≠ .unset → ¬s.sameMinute → s.time.day = 65535 → t.time.day = 0 →
        s.notified t .timeStep ∧ t.tables = { s.tables with active := t.tables.active, direct := t.tables.direct } ∧
        (∀ (g : Fin 16) c, t.tables.active.get g = some c ↔ s.tables.active.get g = some c ∧ c.endR ≤ t.time.nt + 432000) ∧
        (∀ (g : Fin 16) d, t.tables.direct.get g = some d ↔
          s.tables.direct.get g = some d ∧ ∀ e, d.endR = some e → e ≤ t.time.nt + 864000) ∧
        ∀ g, t.showsSelection g)

/-! ### Timetables -/

/-- SET_CALENDAR (R97), addressed or broadcast (R158): a new day or a new type joins in day order and every group is evaluated; a SET of the
type that stands changes nothing; REMOVE takes the day out, whatever its day type byte (log entry 22); a full calendar, a day not held and
bad values are refused. -/
def Obligations.SetCalendarSets : Prop :=
  ∀ (s : State) (src : Source) (day : Half) (action dayType : Byte) (r : Request),
    s.readyForAny (.setCalendar src day action dayType) r → s.tables.ordered →
    ∃ t, exec (.setCalendar src day action dayType) s = .next t ∧
      ((1 < action.toNat ∨ (action = 0#8 ∧ 7 < dayType.toNat)) → s.refusedWith t r .badValue) ∧
      (action = 0#8 → dayType.toNat ≤ 7 →
        (⟨day.toNat, dayType.toNat⟩ ∈ s.tables.calendar → s.answered t r .done [] ∧ s.changesOnly t [.trunk, .mgmt]) ∧
        ((∀ e ∈ s.tables.calendar, e.day ≠ day.toNat) → s.tables.calendar.length = 48 → s.refusedWith t r .noRoom) ∧
        (⟨day.toNat, dayType.toNat⟩ ∉ s.tables.calendar →
          ((∃ e ∈ s.tables.calendar, e.day = day.toNat) ∨ s.tables.calendar.length < 48) →
          (∀ e, e ∈ t.tables.calendar ↔ e = ⟨day.toNat, dayType.toNat⟩ ∨ (e ∈ s.tables.calendar ∧ e.day ≠ day.toNat)) ∧
          (t.tables.calendar.Pairwise fun a b => a.day < b.day) ∧
          t.tables = { s.tables with calendar := t.tables.calendar } ∧ s.answered t r .done [] ∧
          s.retabled t (List.finRange 16))) ∧
      (action = 1#8 →
        ((∀ e ∈ s.tables.calendar, e.day ≠ day.toNat) → s.refusedWith t r .noSuch) ∧
        ((∃ e ∈ s.tables.calendar, e.day = day.toNat) →
          t.tables = { s.tables with calendar := s.tables.calendar.filter fun e => e.day != day.toNat } ∧
          s.answered t r .done [] ∧ s.retabled t (List.finRange 16)))

/-- ADD_BASE (R98): an entry with the lowest free id joins in id order and its group is evaluated; bad values, duplicates and a full table
are refused in that order. -/
def Obligations.AddBaseAdds : Prop :=
  ∀ (s : State) (src : Source) (group mask : Byte) (start : Half) (plan mode : Byte) (r : Request),
    s.readyFor (.addBase src group mask start plan mode) r → s.tables.ordered →
    let legal : Prop := group.toNat ≤ 15 ∧ mask ≠ 0#8 ∧ start.toNat ≤ 1439 ∧ 1 ≤ plan.toNat ∧ plan.toNat ≤ 250 ∧ knownMode mode
    let clash : Prop := ∃ e ∈ s.tables.base, e.group.val = group.toNat ∧ e.start = start.toNat ∧ mask &&& e.mask ≠ 0#8
    ∃ t, exec (.addBase src group mask start plan mode) s = .next t ∧
      (¬legal → s.refusedWith t r .badValue) ∧ (legal → clash → s.refusedWith t r .duplicate) ∧
      (legal → ¬clash → s.tables.base.length = 384 → s.refusedWith t r .noRoom) ∧
      (legal → ¬clash → s.tables.base.length < 384 → ∀ (g : Fin 16) (id : Nat), group.toNat = g.val →
        (∀ e ∈ s.tables.base, e.id ≠ id) → (∀ m, m < id → ∃ e ∈ s.tables.base, e.id = m) →
        (∀ e, e ∈ t.tables.base ↔ e ∈ s.tables.base ∨ e = ⟨id, g, mask, start.toNat, plan.toNat, modeOfCode mode⟩) ∧
        (t.tables.base.Pairwise fun a b => a.id < b.id) ∧
        t.tables = { s.tables with base := t.tables.base } ∧ s.answered t r .done (num2 id) ∧ s.retabled t [g])

/-- ADD_EVENT (R100): the four checks in their order; else an entry with the lowest free id joins in id order and its group is
evaluated. That the evaluation may select an entry which ends at the next minute, where R102 says otherwise, is log entry 26. -/
def Obligations.AddEventAdds : Prop :=
  ∀ (s : State) (src : Source) (group : Byte) (startDay startMinute endDay endMinute : Half) (plan priority mode : Byte)
    (r : Request), s.readyFor (.addEvent src group startDay startMinute endDay endMinute plan priority mode) r →
    s.tables.ordered →
    let span : Int := ((endDay.toNat : Int) - startDay.toNat) * 1440 + ((endMinute.toNat : Int) - startMinute.toNat)
    let legal : Prop := group.toNat ≤ 15 ∧ startMinute.toNat ≤ 1439 ∧ endMinute.toNat ≤ 1439 ∧ 1 ≤ plan.toNat ∧
      plan.toNat ≤ 250 ∧ priority.toNat ≤ 7 ∧ knownMode mode ∧ 0 < span ∧ span ≤ 20160
    let past : Prop := s.time.disc ≠ .unset ∧ pairAtOrBefore endDay.toNat endMinute.toNat s.time.day (s.time.nt / 600)
    ∃ t, exec (.addEvent src group startDay startMinute endDay endMinute plan priority mode) s = .next t ∧
      (¬legal → s.refusedWith t r .badValue) ∧ (legal → past → s.refusedWith t r .state) ∧
      (legal → ¬past → s.tables.events.length = 64 → s.refusedWith t r .noRoom) ∧
      (legal → ¬past → s.tables.events.length < 64 → ∀ (g : Fin 16) (id : Nat), group.toNat = g.val →
        (∀ e ∈ s.tables.events, e.id ≠ id) → (∀ m, m < id → ∃ e ∈ s.tables.events, e.id = m) →
        (∀ e, e ∈ t.tables.events ↔ e ∈ s.tables.events ∨
          e = ⟨id, g, startDay.toNat, startMinute.toNat, endDay.toNat, endMinute.toNat, plan.toNat, priority.toNat,
            modeOfCode mode⟩) ∧
        (t.tables.events.Pairwise fun a b => a.id < b.id) ∧
        t.tables = { s.tables with events := t.tables.events } ∧ s.answered t r .done (num2 id) ∧ s.retabled t [g])

/-- R103: CUT_ENTRY removes the entry of an id and evaluates its group; an id not in use gives NO_SUCH, and a bad kind or id
BAD_VALUE. -/
def Obligations.CutEntryCuts : Prop :=
  ∀ (s : State) (src : Source) (kind : Byte) (id : Half) (r : Request), s.readyFor (.cutEntry src kind id) r →
    s.tables.ordered →
    ∃ t, exec (.cutEntry src kind id) s = .next t ∧
      ((1 < kind.toNat ∨ (kind = 0#8 ∧ 383 < id.toNat) ∨ (kind = 1#8 ∧ 63 < id.toNat)) → s.refusedWith t r .badValue) ∧
      (kind = 0#8 → id.toNat ≤ 383 →
        ((∀ e ∈ s.tables.base, e.id ≠ id.toNat) → s.refusedWith t r .noSuch) ∧
        ∀ e ∈ s.tables.base, e.id = id.toNat →
          t.tables = { s.tables with base := s.tables.base.filter fun x => x.id != id.toNat } ∧ s.answered t r .done [] ∧
          s.retabled t [e.group]) ∧
      (kind = 1#8 → id.toNat ≤ 63 →
        ((∀ e ∈ s.tables.events, e.id ≠ id.toNat) → s.refusedWith t r .noSuch) ∧
        ∀ e ∈ s.tables.events, e.id = id.toNat →
          t.tables = { s.tables with events := s.tables.events.filter fun x => x.id != id.toNat } ∧ s.answered t r .done [] ∧
          s.retabled t [e.group])

/-- SET_CUE and CUT_CUE (R104): an entry is replaced in place or joins in (cue number, group) order, its duration clamped; an entry is removed; what has no room,
is not held or is out of range is refused; no active cue changes and no group is evaluated. -/
def Obligations.CueTableEdits : Prop :=
  (∀ (s : State) (src : Source) (cue group plan : Byte) (duration : Half) (priority : Byte) (r : Request),
    s.readyFor (.setCue src cue group plan duration priority) r → s.tables.ordered →
    let legal : Prop := cue ≠ 0#8 ∧ group.toNat ≤ 15 ∧ 1 ≤ plan.toNat ∧ plan.toNat ≤ 250 ∧ priority.toNat ≤ 7
    let held : Prop := ∃ e ∈ s.tables.cues, e.number = cue.toNat ∧ e.group.val = group.toNat
    let stored := max 1 (min 720 duration.toNat)
    ∃ t, exec (.setCue src cue group plan duration priority) s = .next t ∧ (¬legal → s.refusedWith t r .badValue) ∧
      (legal → ¬held → s.tables.cues.length = 64 → s.refusedWith t r .noRoom) ∧
      (legal → held ∨ s.tables.cues.length < 64 → ∀ g : Fin 16, group.toNat = g.val →
        (∀ e, e ∈ t.tables.cues ↔ e = ⟨cue.toNat, g, plan.toNat, stored, priority.toNat⟩ ∨
          (e ∈ s.tables.cues ∧ ¬(e.number = cue.toNat ∧ e.group = g))) ∧
        (t.tables.cues.Pairwise fun a b => a.number < b.number ∨ (a.number = b.number ∧ a.group < b.group)) ∧
        t.tables = { s.tables with cues := t.tables.cues } ∧ s.answered t r .done (num2 stored) ∧
        s.changesOnly t [.tables, .trunk, .mgmt])) ∧
  ∀ (s : State) (src : Source) (cue group : Byte) (r : Request), s.readyFor (.cutCue src cue group) r →
    ∃ t, exec (.cutCue src cue group) s = .next t ∧ ((cue = 0#8 ∨ 15 < group.toNat) → s.refusedWith t r .badValue) ∧
      (cue ≠ 0#8 → ∀ g : Fin 16, group.toNat = g.val →
        ((∀ e ∈ s.tables.cues, ¬(e.number = cue.toNat ∧ e.group = g)) → s.refusedWith t r .noSuch) ∧
        ((∃ e ∈ s.tables.cues, e.number = cue.toNat ∧ e.group = g) →
          (∀ e, e ∈ t.tables.cues ↔ e ∈ s.tables.cues ∧ ¬(e.number = cue.toNat ∧ e.group = g)) ∧
          t.tables = { s.tables with cues := t.tables.cues } ∧ s.answered t r .done [] ∧
          s.changesOnly t [.tables, .trunk, .mgmt]))

/-- DIRECT_PLAN (R108) and END_DIRECT (R109): a group's direct selection is replaced or removed, and the group is evaluated. -/
def Obligations.DirectSelectionsMove : Prop :=
  (∀ (s : State) (src : Source) (group plan : Byte) (duration : Half) (r : Request),
    s.readyFor (.directPlan src group plan duration) r →
    let legal : Prop := group.toNat ≤ 15 ∧ 1 ≤ plan.toNat ∧ plan.toNat ≤ 250
    let endR : Option Nat := if duration = 0#16 then none
      else some (s.time.day * 864000 + s.time.nt + 600 * min 1440 duration.toNat)
    ∃ t, exec (.directPlan src group plan duration) s = .next t ∧ (¬legal → s.refusedWith t r .badValue) ∧
      (legal → duration ≠ 0#16 → s.time.disc = .unset → s.refusedWith t r .state) ∧
      (legal → duration = 0#16 ∨ s.time.disc ≠ .unset → ∀ g : Fin 16, group.toNat = g.val →
        t.tables.direct.get g = some ⟨plan.toNat, endR⟩ ∧ (∀ h, h ≠ g → t.tables.direct.get h = s.tables.direct.get h) ∧
        t.tables = { s.tables with direct := t.tables.direct } ∧ s.answered t r .done [] ∧ s.retabled t [g])) ∧
  ∀ (s : State) (src : Source) (group : Byte) (r : Request), s.readyFor (.endDirect src group) r →
    ∃ t, exec (.endDirect src group) s = .next t ∧ (15 < group.toNat → s.refusedWith t r .badValue) ∧
      ∀ g : Fin 16, group.toNat = g.val →
        (s.tables.direct.get g = none → s.refusedWith t r .noSuch) ∧
        (s.tables.direct.get g ≠ none → t.tables.direct.get g = none ∧
          (∀ h, h ≠ g → t.tables.direct.get h = s.tables.direct.get h) ∧
          t.tables = { s.tables with direct := t.tables.direct } ∧ s.answered t r .done [] ∧ s.retabled t [g])

/-- CUE (R105) and CUE_CANCEL (R106) at a part with a station number: the active cues that the frame sets, ignores or removes, and the frame
passed on (R151). -/
def Obligations.CueFramesAct : Prop :=
  (∀ (s : State) (station hops n : Byte), s.resetAsserted = false → s.trunk.station.isSome → s.tables.ordered →
    ∃ t, exec (.cue station hops [n]) s = .next t ∧
      s.passedOn t (.make 0x02#8 station hops [n]) ∧ t.trunk.countsA.received = min 65535 (s.trunk.countsA.received + 1) ∧
      (s.time.disc = .unset ∨ n = 0#8 → s.changesOnly t [.trunk, .records]) ∧
      (s.time.disc ≠ .unset → n ≠ 0#8 →
        t.tables = { s.tables with active := t.tables.active } ∧
        (∀ g, (∀ e ∈ s.tables.cues, ¬(e.number = n.toNat ∧ e.group = g)) →
          t.tables.active.get g = s.tables.active.get g) ∧
        (∀ e ∈ s.tables.cues, e.number = n.toNat →
          ((∀ c, s.tables.active.get e.group = some c → c.priority ≤ e.priority) →
            t.tables.active.get e.group =
              some ⟨e.number, e.plan, e.priority, s.time.day * 864000 + s.time.nt + 600 * e.duration⟩ ∧
            t.showsSelection e.group) ∧
          (∀ c, s.tables.active.get e.group = some c → e.priority < c.priority →
            t.tables.active.get e.group = some c ∧
            s.notified t .cueIgnored)) ∧
        s.changesOnly t (.tables :: .trunk :: Block.engine))) ∧
  ∀ (s : State) (station hops n : Byte), s.resetAsserted = false → s.trunk.station.isSome →
    ∃ t, exec (.cueCancel station hops [n]) s = .next t ∧
      s.passedOn t (.make 0x03#8 station hops [n]) ∧ t.trunk.countsA.received = min 65535 (s.trunk.countsA.received + 1) ∧
      t.tables = { s.tables with active := t.tables.active } ∧
      (∀ g c, s.tables.active.get g = some c → c.number = n.toNat →
        t.tables.active.get g = none ∧ (s.time.disc ≠ .unset → t.showsSelection g)) ∧
      (∀ g, (∀ c, s.tables.active.get g = some c → c.number ≠ n.toNat) →
        t.tables.active.get g = s.tables.active.get g) ∧
      s.changesOnly t (.tables :: .trunk :: Block.engine)

/-- R111: the first layer that selects a plan, in the order DIRECT, CUE, EVENT, BASE, DEFAULT, with its plan and mode. -/
def Obligations.LayersSelectInOrder : Prop :=
  ∀ (t : Timetable) (g : Fin 16) (defaultPlan day minute : Nat),
    let instant := day * 864000 + minute * 600
    let x := t.select g defaultPlan day minute
    let direct : Prop := ∃ d, t.direct.get g = some d ∧ ∀ e, d.endR = some e → instant < e
    let cue : Prop := ∃ c, t.active.get g = some c ∧ instant < c.endR
    (∀ d, t.direct.get g = some d → (∀ e, d.endR = some e → instant < e) → x = ⟨d.plan, .direct, none⟩) ∧
    (¬direct → ∀ c, t.active.get g = some c → instant < c.endR → x = ⟨c.plan, .cue, none⟩) ∧
    (¬direct → ¬cue → ∀ e, t.eventLayer g day minute = some e → x = ⟨e.plan, .event, e.mode⟩) ∧
    (¬direct → ¬cue → t.eventLayer g day minute = none → ∀ e, t.baseLayer g day minute = some e → x = ⟨e.plan, .base, e.mode⟩) ∧
    (¬direct → ¬cue → t.eventLayer g day minute = none → t.baseLayer g day minute = none → x = ⟨defaultPlan, .default, none⟩)

/-- R99 (with R96 and R98): the base layer takes the group's latest entry of today's day type that has started, else the latest entry of
yesterday's day type. R101: an event entry is active from its start to before its end; among a group's active entries the highest priority
is selected, then the latest start, then the lowest id. -/
def Obligations.BaseAndEventLayersSelect : Prop :=
  (∀ (t : Timetable) (g : Fin 16) (day minute : Nat), t.ordered → t.noClash →
    let typeOf := fun n => match t.calendar.find? (fun e => e.day == n) with | some e => e.dayType | none => n % 7
    let today := fun (e : BaseEntry) => e ∈ t.base ∧ e.group = g ∧ e.mask.getLsbD (typeOf day) = true ∧ e.start ≤ minute
    let before := fun (e : BaseEntry) => e ∈ t.base ∧ e.group = g ∧ e.mask.getLsbD (typeOf ((day + 65535) % 65536)) = true
    ((∃ e, today e) → ∀ e, t.baseLayer g day minute = some e ↔ today e ∧ ∀ x, today x → x.start ≤ e.start) ∧
    ((¬∃ e, today e) → ∀ e, t.baseLayer g day minute = some e ↔ before e ∧ ∀ x, before x → x.start ≤ e.start)) ∧
  (∀ (t : Timetable) (g : Fin 16) (day minute : Nat), t.ordered →
    let active := fun (e : EventEntry) => e ∈ t.events ∧ e.group = g ∧
      pairAtOrBefore e.startDay e.startMinute day minute ∧ ¬pairAtOrBefore e.endDay e.endMinute day minute
    let sameStart := fun (e x : EventEntry) => e.startDay = x.startDay ∧ e.startMinute = x.startMinute
    let preferred := fun (e x : EventEntry) => x.priority < e.priority ∨ (x.priority = e.priority ∧
      (¬pairAtOrBefore e.startDay e.startMinute x.startDay x.startMinute ∨ (sameStart e x ∧ e.id < x.id)))
    (∀ e, t.eventLayer g day minute = some e ↔ active e ∧ ∀ x, active x → x ≠ e → preferred e x) ∧
    (t.eventLayer g day minute = none ↔ ∀ e, ¬active e))

/-! ### Field ports -/

/-- SET_PORT (R131) and READ_PORT (R132): the window clamped and the counts cleared on request; the reading of a port, whose elapsed
milliseconds in an open window are a free value between the last report and the window's end and 0 before it (log entry 7); 0xFF for a detached
exchange's slot and the lone flag byte are log entry 10. -/
def Obligations.PortRequests : Prop :=
  (∀ (s : State) (src : Source) (port : Byte) (window : Half) (clear : Byte) (r : Request),
    s.readyFor (.setPort src port window clear) r →
    ∃ t, exec (.setPort src port window clear) s = .next t ∧
      ((3 < port.toNat ∨ 1 < clear.toNat) → s.refusedWith t r .badValue) ∧
      (clear.toNat ≤ 1 → ∀ p : Fin 4, port.toNat = p.val →
        let q : Port := { s.port p with window := max 20 (min 200 window.toNat) }
        (clear = 1#8 → t.port p = q) ∧
        (clear = 0#8 → t.port p = { q with sent := 0, outside := 0, otherDrops := 0, bad := 0, blockedEntries := 0 }) ∧
        s.otherPortsStand t p ∧ s.answered t r .done (num2 (max 20 (min 200 window.toNat))) ∧
        s.changesOnly t [.ports, .trunk, .mgmt])) ∧
  ∀ (s : State) (src : Source) (port : Byte) (r : Request), s.readyFor (.readPort src port) r →
    ∃ t, exec (.readPort src port) s = .next t ∧ s.changesOnly t [.freeReads, .trunk, .mgmt] ∧
      (3 < port.toNat → s.refusedWith t r .badValue) ∧
      ∀ p : Fin 4, port.toNat = p.val →
        let q := s.port p
        let head := num1 (portStateCode q.state) ++ num1 (lineCode q.line) ++ num2 q.window ++ num1 q.queue.length ++
          (q.queue.map fun e => num1 e.slot.val ++ num1 (if e.frame.isSync then 0 else 1) ++ num1 e.frame.count).flatten
        let tail := num2 q.sent ++ num2 q.outside ++ num2 q.otherDrops ++ num2 q.bad ++ num2 q.blockedEntries
        (q.exchange = none → s.answered t r .done (head ++ List.replicate 10 0#8 ++ tail)) ∧
        ∀ x, q.exchange = some x → ∃ ms, (x.phase = .sending → ms = 0) ∧
          (x.phase = .window → x.elapsed ≤ x.window → x.elapsed ≤ ms ∧ ms ≤ x.window) ∧
          s.answered t r .done (head ++ [1#8] ++ (if x.detached then [0xFF#8] else num1 x.slot.val) ++
            num1 (if x.isSync then 0 else 1) ++ num1 x.drop ++ num1 (phaseCode x.phase) ++ num2 x.window ++ num2 ms ++
            num1 x.badSeen.toNat ++ tail)

/-- EXCHANGE_START (R121, R187) and FIELD_TRANSMIT_END (R122): the head frame of an IDLE port goes into an exchange in SENDING, and its bytes onto the
line; when its last byte has gone out the window opens. EXCHANGE_START finds the line idle (log entry 4); where no frame waits, or nothing is
being sent, nothing happens (log entry 1). A TICK that names a line report has the port see its line at that condition: active, or idle, when an
IDLE port sends its head frame (R121, R123, R129, R130; log entry 4). -/
def Obligations.ExchangesRun : Prop :=
  (∀ (s : State) (p : Fin 4), s.resetAsserted = false →
    ((s.port p).state ≠ .idle ∨ (s.port p).queue = [] → exec (.exchangeStart p) s = .next s) ∧
    ((s.port p).state = .idle → ∀ e rest, (s.port p).queue = e :: rest →
      ∃ t, exec (.exchangeStart p) s = .next t ∧ (t.port p).state = .awaiting ∧ (t.port p).queue = rest ∧
        (t.port p).sent = min 65535 ((s.port p).sent + 1) ∧ (t.port p).wire = e.frame.lineBytes ∧
        (∃ x, (t.port p).exchange = some x ∧ x.slot = e.slot ∧ x.isSync = e.frame.isSync ∧ x.drop = e.frame.drop ∧
          x.intersection = e.frame.intersection ∧ x.plan = e.frame.plan ∧ x.count = e.frame.count ∧
          x.window = (s.port p).window ∧ x.phase = .sending ∧ x.detached = false ∧ x.badSeen = false) ∧
        (t.port p).directionAsserted = true ∧ s.otherPortsStand t p ∧ s.changesOnly t [.ports])) ∧
  (∀ (s : State) (p : Fin 4) (line : LineCondition), s.resetAsserted = false →
    ((s.port p).directionAsserted = false → exec (.fieldTransmitEnd p line) s = .next s) ∧
    ∀ x, (s.port p).exchange = some x → x.phase = .sending →
      ∃ t, exec (.fieldTransmitEnd p line) s = .next t ∧
        t.port p = { s.port p with
          exchange := some { x with phase := .window, elapsed := 0 }, blockedTimer := 0, line := line, wire := [] } ∧
        s.otherPortsStand t p ∧ s.changesOnly t [.ports]) ∧
  ∀ (s : State) (p : Fin 4) (line : LineCondition), s.resetAsserted = false → s.sameMinute → s.store.scrubOn = false →
    (∀ i, (s.slot i).run = none) →
    ∃ t, exec (.tick [.lineSeen p line]) s = .next t ∧
      ((s.port p).directionAsserted = true → t.port p = s.port p) ∧
      ((s.port p).directionAsserted = false →
        (line = .active → t.port p = { s.port p with line := .active, idleTimer := 0 }) ∧
        (line = .idle → ({ s.port p with line := .idle, blockedTimer := 0 } : Port).sendsHead (t.port p))) ∧
      s.otherPortsStand t p ∧ s.changesOnly t [.time, .ports, .records]

/-- STATUS (R124 to R126, R128, R31 to R33, R140 to R142) at a port that is not sending, by the exchange it meets and the override state it reports:
one outside a window, one from another drop, one whose outcome is discarded (a detached exchange, or a slot without a position), and one that
ends its exchange with an address mismatch, a good outcome or a content mismatch; the third miss makes the slot LOST, and a reported override
state has FIELD join the causes and the slot enter OVERRIDDEN, its queued frame leaving its port's queue (R120). A STATUS at a port that is
sending is not received (R122, R124). BAD_FRAME (R123, R124, R185, R187): bytes that are no good STATUS are a bad frame, and so are those of a
kind other than STATUS, of a wrong check, with a field out of range, or of a frame that is not complete; the line bytes of a STATUS, whatever but a break follows them, are that STATUS, since a delimiter
on a line that is not idle begins no frame (R123); a break begins the next frame. What the bytes before a break make is judged on its own,
so that a frame cut off is bad, and that and odd bytes among them are log entry 24. The frames are reported with the line as it is after them (log entry 4). -/
def Obligations.StatusEndsExchange : Prop :=
  (∀ (s : State) (p : Fin 4) (drop : Byte) (intersection : Half) (plan count override : Byte) (ms : Nat) (line : LineCondition)
    (o : FieldOverride), s.resetAsserted = false → statusInRange drop intersection plan override = true →
    override.toNat = fieldOverrideCode o → (s.port p).directionAsserted = false →
    ∃ t, exec (.status p drop intersection plan count override ms line) s = .next t ∧
      let q := s.port p
      let heard : Port := { q with blockedTimer := 0, idleTimer := 0, line := line }
      let ended : Port := { heard with exchange := none, state := .idle }
      (q.exchange = none → ({ heard with outside := min 65535 (q.outside + 1) } : Port).sendsHead (t.port p) ∧
        s.otherPortsStand t p ∧ s.changesOnly t [.ports]) ∧
      ∀ x, q.exchange = some x →
        let y := s.slot x.slot
        let z := t.slot x.slot
        (x.drop ≠ drop.toNat →
          t.port p = { heard with
            otherDrops := min 65535 (q.otherDrops + 1)
            exchange := some { x with elapsed := min x.window (max x.elapsed ms) } } ∧
          s.otherPortsStand t p ∧ s.changesOnly t [.ports]) ∧
        (x.drop = drop.toNat → (x.detached = true ∨ y.state = .unused ∨ (y.state = .joining ∧ y.run = none)) →
          ended.sendsHead (t.port p) ∧ s.otherPortsStand t p ∧ s.changesOnly t [.ports]) ∧
        (x.drop = drop.toNat → x.detached = false → y.state ≠ .unused → (y.state = .joining → y.run.isSome) →
          let met : Prop := if x.isSync then plan.toNat = x.plan ∧ count.toNat = x.count
            else y.state = .overridden ∨ (plan.toNat = y.current ∧ count.toNat = y.count)
          let address : Prop := intersection.toNat ≠ x.intersection
          let good : Prop := ¬address ∧ met
          let content : Prop := ¬address ∧ ¬met
          let loses : Prop := (y.state = .coordinated ∨ y.state = .transition) ∧ 2 ≤ y.missRun
          let enters : Prop := ¬address ∧ o ≠ .none ∧ causeIn y.causes .field = false
          s.otherSlotsStand t x.slot ∧ s.changesOnly t Block.engine ∧ z.run = y.run ∧ z.current = y.current ∧ z.count = y.count ∧
          (∃ v, ended.sendsHead v ∧
            let freed := fun h => if h = p then v else s.port h
            (¬enters ∨ y.state = .overridden → ∀ h, t.port h = freed h) ∧
            (enters → y.state ≠ .overridden → ∀ h, t.port h =
              if h = y.port then { freed h with queue := (freed h).queue.filter fun e => e.slot ≠ x.slot } else freed h)) ∧
          (address → s.missed t x.slot .address) ∧
          (good → z.missRun = 0 ∧ z.timeouts = y.timeouts ∧ z.addressMisses = y.addressMisses ∧
            z.contentMisses = y.contentMisses ∧ z.lateSyncs = y.lateSyncs ∧
            (y.state = .joining → z.joined = true ∧ (¬enters → z.state = .coordinated ∧
              s.recorded t x.slot [s.noCycles x.slot 0 y.current .join])) ∧
            (y.state = .lost → s.notified t .slotRejoined ∧
              (¬enters → z.state = .coordinated ∧ z.pendingEval = some .resync)) ∧
            (y.state ≠ .joining → y.state ≠ .lost → ¬enters → z.state = y.state ∧ z.trans = y.trans)) ∧
          (content → y.missCounted z .content ∧
            (loses → s.notified t .slotLost ∧ (¬enters → z.state = .lost ∧ z.trans = none) ∧
              ∀ r, y.trans = some r → s.recorded t x.slot [s.endsAs x.slot y.current (r.afterMiss .content) .lost]) ∧
            (¬loses → ¬enters → z.state = y.state ∧
              (y.state = .transition → z.trans = y.trans.map (·.afterMiss .content)))) ∧
          (¬address → z.lastOverride = o ∧ causeIn z.causes .field = decide (o ≠ .none) ∧
            ∀ l, causeIn z.causes (.hold l) = causeIn y.causes (.hold l)) ∧
          (enters → z.state = .overridden ∧ (y.mode = .latched → z.latch = true) ∧
            (y.state ≠ .overridden → s.notified t .overrideEnter ∧ z.trans = none ∧ z.pendingEval = none) ∧
            (y.state = .transition → ∀ r, y.trans = some r →
              (good → s.recorded t x.slot [s.endsAs x.slot y.current r .overridden]) ∧
              (content → ¬loses → s.recorded t x.slot [s.endsAs x.slot y.current (r.afterMiss .content) .overridden]))))) ∧
  (∀ (s : State) (p : Fin 4) (drop : Byte) (intersection : Half) (plan count override : Byte) (ms : Nat) (line : LineCondition),
    s.resetAsserted = false → (s.port p).directionAsserted = true →
    exec (.status p drop intersection plan count override ms line) s = .next s) ∧
  (∀ (kind drop : Byte) (intersection : Half) (plan count override : Byte) (check : Half) (after : List Byte),
    let bytes := [kind, drop] ++ halfBytes intersection ++ [plan, count, override]
    let inRange : Prop := 1 ≤ drop.toNat ∧ drop.toNat ≤ 16 ∧ 1 ≤ intersection.toNat ∧ intersection.toNat ≤ 4095 ∧
      plan.toNat ≤ 250 ∧ override.toNat ≤ 3
    kind ≠ 0x23#8 ∨ check ≠ crc16 bytes ∨ ¬inRange → receiveField (escape (bytes ++ halfBytes check) ++ after) = none) ∧
  (∀ bytes : List Byte, (unescape bytes).length < 9 → receiveField bytes = none) ∧
  (∀ (s : State) (p : Fin 4) (bytes : List Byte) (ms : Nat) (line : LineCondition), s.resetAsserted = false →
    ¬[0x7D#8, 0x7E#8] <:+: bytes → receiveField bytes = none →
    ((s.port p).directionAsserted = true → exec (.badFrame p bytes ms line) s = .next s) ∧
    ((s.port p).directionAsserted = false →
      ∃ t, exec (.badFrame p bytes ms line) s = .next t ∧
        ({ s.port p with
          blockedTimer := 0, idleTimer := 0, line := line, bad := min 65535 ((s.port p).bad + 1)
          exchange := (s.port p).exchange.map fun x =>
            { x with elapsed := min x.window (max x.elapsed ms), badSeen := true } } : Port).sendsHead (t.port p) ∧
        s.otherPortsStand t p ∧ s.changesOnly t [.ports])) ∧
  (∀ (s : State) (p : Fin 4) (drop : Byte) (intersection : Half) (plan count override : Byte) (ms : Nat) (line : LineCondition),
    statusInRange drop intersection plan override = true →
    let bytes := [0x23#8, drop] ++ halfBytes intersection ++ [plan, count, override]
    ∀ after : List Byte, ¬[0x7D#8, 0x7E#8] <:+: after →
      exec (.badFrame p (escape (bytes ++ halfBytes (crc16 bytes)) ++ after) ms line) s =
        exec (.status p drop intersection plan count override ms line) s) ∧
  ∀ (s : State) (p : Fin 4) (a b : List Byte) (ms : Nat) (line : LineCondition),
    ∃ v, exec (.badFrame p (escape a) ms .active) s = .next v ∧
      exec (.badFrame p (escape a ++ [0x7D#8, 0x7E#8] ++ b) ms line) s = exec (.badFrame p b ms line) v

/-- RESPONSE_WINDOW_EXPIRY (R127, R128), LINE_BLOCKED (R129) and LINE_FREED (R130): an open exchange ends with a timeout at its slot, whose third miss in a
row makes it LOST (R32, R33), or with nothing where the exchange is detached or the slot has no position; the port is then IDLE and sends its head
frame, or is BLOCKED; a freed port is IDLE and sends its head frame. The line condition that the receiver sees after an expiry is the
command's own operand, and the head frame goes out by it (log entry 4). Where their conditions do not stand nothing happens (log entry 1). -/
def Obligations.WindowsAndLines : Prop :=
  let discards := fun (s : State) (x : Exchange) =>
    x.detached = true ∨ (s.slot x.slot).state = .unused ∨ ((s.slot x.slot).state = .joining ∧ (s.slot x.slot).run = none)
  (∀ (s : State) (p : Fin 4) (line : LineCondition), s.resetAsserted = false →
    ((∀ x, (s.port p).exchange = some x → x.phase = .sending) → exec (.responseWindowExpiry p line) s = .next s) ∧
    ∀ x, (s.port p).exchange = some x → x.phase = .window →
      ∃ t, exec (.responseWindowExpiry p line) s = .next t ∧
        ({ s.port p with line := line, exchange := none, state := .idle } : Port).sendsHead (t.port p) ∧ s.otherPortsStand t p ∧
        (discards s x → s.changesOnly t [.ports]) ∧
        (¬discards s x → s.missed t x.slot .timeout ∧ s.otherSlotsStand t x.slot ∧
          s.changesOnly t [.slots, .groups, .members, .ports, .records])) ∧
  (∀ (s : State) (p : Fin 4), s.resetAsserted = false →
    ((s.port p).directionAsserted = true ∨ (s.port p).state = .blocked → exec (.lineBlocked p) s = .next s) ∧
    ((s.port p).directionAsserted = false → (s.port p).state ≠ .blocked →
      ∃ t, exec (.lineBlocked p) s = .next t ∧
        t.port p = { s.port p with
          state := .blocked, exchange := none, line := .active, blockedTimer := 20, idleTimer := 0
          blockedEntries := min 65535 ((s.port p).blockedEntries + 1) } ∧
        s.otherPortsStand t p ∧ ((s.port p).exchange = none → s.changesOnly t [.ports]) ∧
        ∀ x, (s.port p).exchange = some x →
          (discards s x → s.changesOnly t [.ports]) ∧
          (¬discards s x → s.missed t x.slot .timeout ∧ s.otherSlotsStand t x.slot ∧
            s.changesOnly t [.slots, .groups, .members, .ports, .records]))) ∧
  ∀ (s : State) (p : Fin 4), s.resetAsserted = false →
    ((s.port p).state ≠ .blocked → exec (.lineFreed p) s = .next s) ∧
    ((s.port p).state = .blocked →
      ∃ t, exec (.lineFreed p) s = .next t ∧
        ({ s.port p with state := .idle, line := .idle, blockedTimer := 0, idleTimer := 0 } : Port).sendsHead (t.port p) ∧
        s.otherPortsStand t p ∧ s.changesOnly t [.ports])

/-! ### Overrides -/

/-- HOLD_ACTIVATION_EDGE (R120, R136, R138, R141 to R143) and HOLD_RELEASE_EDGE (R139): the line's cause joins the sets of the mapped
defined slots, of which those with a position enter OVERRIDDEN, with OVERRIDE_ENTER, the OVERRIDDEN record of an open transition and the
removal of the queued frame, and leaves every set at release; no other slot is touched. On a line at the level already, nothing happens (log
entry 1). -/
def Obligations.HoldEdges : Prop :=
  (∀ (s : State) (l : Fin 4), s.resetAsserted = false →
    ((s.hold l).level = .active → exec (.holdActivationEdge l) s = .next s) ∧
    ((s.hold l).level = .inactive →
      ∃ t, exec (.holdActivationEdge l) s = .next t ∧ t.hold l = { s.hold l with level := .active } ∧
        (∀ k, k ≠ l → t.hold k = s.hold k) ∧
        (∀ i, slotIn (s.hold l).map i = false ∨ (s.slot i).state = .unused → t.slot i = s.slot i) ∧
        s.causeJoined t (.hold l) (slotIn (s.hold l).map) ∧
        s.changesOnly t (.holds :: Block.engine))) ∧
  ∀ (s : State) (l : Fin 4), s.resetAsserted = false →
    ((s.hold l).level = .inactive → exec (.holdReleaseEdge l) s = .next s) ∧
    ((s.hold l).level = .active →
      ∃ t, exec (.holdReleaseEdge l) s = .next t ∧ t.hold l = { s.hold l with level := .inactive } ∧
        (∀ k, k ≠ l → t.hold k = s.hold k) ∧
        (∀ i, t.slot i = { s.slot i with causes := (t.slot i).causes } ∧ causeIn (t.slot i).causes (.hold l) = false ∧
          ∀ c, c ≠ .hold l → causeIn (t.slot i).causes c = causeIn (s.slot i).causes c) ∧
        s.changesOnly t [.holds, .slots])

/-- SET_HOLD_MAP (R147) replaces a line's map, and on an ACTIVE line applies the difference at once: an added slot takes the cause as at an
activation edge (R138, R141 to R143), and a removed one loses it as at a release edge (R139). CLEAR_OVERRIDE (R146) clears the latch of an
OVERRIDDEN slot in LATCHED mode, and refuses any other; the latch as one byte is log entry 10. -/
def Obligations.HoldMapsAndLatches : Prop :=
  (∀ (s : State) (src : Source) (line : Byte) (map : SlotSet) (r : Request), s.readyFor (.setHoldMap src line map) r →
    ∃ t, exec (.setHoldMap src line map) s = .next t ∧ (3 < line.toNat → s.refusedWith t r .badValue) ∧
      ∀ l : Fin 4, line.toNat = l.val →
        t.hold l = { s.hold l with map := map } ∧ (∀ k, k ≠ l → t.hold k = s.hold k) ∧
        s.answered t r .done (((List.finRange 4).map fun k => setBytes (t.hold k).map).flatten ++
          ((List.finRange 4).map fun k => num1 (if (t.hold k).level = .active then 1 else 0)).flatten) ∧
        ((s.hold l).level = .inactive → s.changesOnly t [.holds, .trunk, .mgmt]) ∧
        ((s.hold l).level = .active → s.changesOnly t (.holds :: .trunk :: .mgmt :: Block.engine) ∧
          s.causeJoined t (.hold l) (fun i => slotIn map i && !slotIn (s.hold l).map i) ∧
          ∀ i, (slotIn map i = slotIn (s.hold l).map i → t.slot i = s.slot i) ∧
            (slotIn map i = false → slotIn (s.hold l).map i = true →
              t.slot i = { s.slot i with causes := (t.slot i).causes } ∧ causeIn (t.slot i).causes (.hold l) = false ∧
              ∀ c, c ≠ .hold l → causeIn (t.slot i).causes c = causeIn (s.slot i).causes c))) ∧
  ∀ (s : State) (src : Source) (slot : Byte) (r : Request), s.readyFor (.clearOverride src slot) r →
    ∃ t, exec (.clearOverride src slot) s = .next t ∧ (63 < slot.toNat → s.refusedWith t r .badValue) ∧
      ∀ i : Fin 64, slot.toNat = i.val →
        ((s.slot i).state = .unused → s.refusedWith t r .noSuch) ∧
        ((s.slot i).state ≠ .unused → (s.slot i).state ≠ .overridden ∨ (s.slot i).mode = .perCycle →
          s.refusedWith t r .state) ∧
        ((s.slot i).state = .overridden → (s.slot i).mode = .latched →
          t.slot i = { s.slot i with latch := false } ∧ s.otherSlotsStand t i ∧
          s.answered t r .done (num1 (s.slot i).causes.toNat ++ [0#8] ++ num1 (fieldOverrideCode (s.slot i).lastOverride)) ∧
          s.changesOnly t [.slots, .trunk, .mgmt])

/-! ### The trunk and the management engine -/

/-- REQUEST (R153, R154, R157): a request to the part, or to station 0, is queued and taken at once by an IDLE engine; a full queue brings BUSY, or
no reply for a broadcast one. One to another station is only passed on, as every frame is at a pass-through station, whose engine carries out
no request. A broadcast request that may not be carried out is discarded (R158). A reply that finds A-out full is held in REPLY WAIT (R158), and
its request has been carried out all the same (section 9.6): every block but the trunk interface and the engine is left as it is where A-out
has room, and the held reply is the one that is placed there. The rows whose own effect is in those two blocks, READ_STATION and the
RESTARTs, have it with A-out full in RepliesAndStation and RestartsTakeEffect. A request row meets the engine as log entry 12 says. -/
def Obligations.RequestsQueue : Prop :=
  (∀ (s : State) (station hops a b code : Byte) (params : List Byte) (own : Byte), s.resetAsserted = false →
    s.trunk.station = some own → params.length ≤ 237 →
    ∃ t, exec (.request station hops (a :: b :: code :: params)) s = .next t ∧
      let r : Request := ⟨⟨beHalf a b, decide (station = 0#8)⟩, code, params⟩
      let passed := TrunkFrame.make 0x10#8 station (BitVec.ofNat 8 (hops.toNat % 64 - 1)) (a :: b :: code :: params)
      t.trunk.countsA.received = min 65535 (s.trunk.countsA.received + 1) ∧
      (station = own ∨ station = 0#8 → s.mgmt.queue.length < 4 →
        t.mgmt = ({ s.mgmt with queue := s.mgmt.queue ++ [r] } : Management).takeNext ∧ t.trunk.aOut = s.trunk.aOut) ∧
      (station = own ∨ station = 0#8 → 4 ≤ s.mgmt.queue.length → t.mgmt = s.mgmt) ∧
      (station = 0#8 → t.trunk.aOut = s.trunk.aOut) ∧
      (station = own → 4 ≤ s.mgmt.queue.length → s.trunk.aOut.frames.length < 8 →
        t.trunk.aOut = { s.trunk.aOut with
          frames := s.trunk.aOut.frames ++ [s.replyTo r .busy s.records.notices []] }) ∧
      (station = own → 4 ≤ s.mgmt.queue.length → 8 ≤ s.trunk.aOut.frames.length →
        t.trunk.aOut = { s.trunk.aOut with drops := min 65535 (s.trunk.aOut.drops + 1) } ∧ s.notified t .trunkDrop) ∧
      (station ≠ own → station ≠ 0#8 → t.mgmt = s.mgmt ∧ t.trunk.aOut = s.trunk.aOut) ∧
      (station = own → t.trunk.bOut = s.trunk.bOut) ∧
      (station ≠ own → 0 < hops.toNat % 64 → s.trunk.bOut.frames.length < 8 →
        t.trunk.bOut.frames = s.trunk.bOut.frames ++ [passed]) ∧
      s.changesOnly t [.trunk, .mgmt, .records]) ∧
  (∀ (s : State) (c : Instr) (kind station hops : Byte) (body : List Byte), s.resetAsserted = false → s.trunk.station = none →
    body.length ≤ 240 →
    ((kind = 0x01#8 ∧ c = .timeMark station hops body) ∨ (kind = 0x02#8 ∧ c = .cue station hops body) ∨
      (kind = 0x03#8 ∧ c = .cueCancel station hops body) ∨ (kind = 0x10#8 ∧ c = .request station hops body)) →
    ∃ t, exec c s = .next t ∧ t.trunk.countsA.received = min 65535 (s.trunk.countsA.received + 1) ∧
      t.trunk.aOut = s.trunk.aOut ∧
      (0 < hops.toNat % 64 → s.trunk.bOut.frames.length < 8 → t.trunk.bOut.frames = s.trunk.bOut.frames ++
        [TrunkFrame.make kind station (BitVec.ofNat 8 (hops.toNat % 64 - 1)) body]) ∧
      s.onlyNotices t ∧ s.changesOnly t [.trunk, .records]) ∧
  (∀ (s : State) (c : Instr) (r : Request), s.trunk.station = none → encodeRequest c = some r → exec c s = .next s) ∧
  (∀ (s : State) (c : Instr) (r : Request), c.wellFormed = true → s.readyForAny c r → r.src.broadcast = true → r.code ≠ 0x02#8 →
    r.code ≠ 0x40#8 → ¬(r.code = 0x71#8 ∧ r.params = [0#8]) →
    exec c s = .next (s.setMgmt ({ s.mgmt with engine := .idle } : Management).takeNext)) ∧
  ∀ (s : State) (c : Instr) (r : Request), c.wellFormed = true → encodeRequest c = some r → s.carries r = true →
    r.src.broadcast = false → 8 ≤ s.trunk.aOut.frames.length →
    ∃ t reply, exec c s = .next t ∧ t.mgmt.engine = .replyWait r reply ∧ t.mgmt.queue = s.mgmt.queue ∧
      t.trunk.aOut.frames = s.trunk.aOut.frames ∧
      (∃ (o : RequestOutcome) (fields : List Byte), reply = s.replyTo r o t.records.notices fields) ∧
      ((∀ src clear, c ≠ .readStation src clear) → (∀ src pins, c ≠ .restartWarm src pins) → (∀ src, c ≠ .restartCold src) →
        t.trunk = s.trunk ∧ t.mgmt = { s.mgmt with engine := .replyWait r reply } ∧
        ∀ q : OutQueue, q.frames.length < 8 → ∃ v, exec c (s.setTrunk { s.trunk with aOut := q }) = .next v ∧
          v.changesOnly t [.trunk, .mgmt] ∧ v.trunk = { s.trunk with aOut := { q with frames := q.frames ++ [reply] } } ∧
          v.mgmt = ({ s.mgmt with engine := .idle } : Management).takeNext)

/-- TRUNK_FRAME (R150, R151, R154 to R156, R185): the line bytes of a frame, with its escapes, are received as the frame that was sent, on port A by the
row of its kind; one of bad check is dropped and counted; one from port B is passed on toward port A and touches no other block. A REPLY, a
foreign frame, a REQUEST to another station and a body that does not fit its kind are acted on nowhere: foreign frames and malformed bodies
are counted, and all are passed on but a malformed REQUEST to the part itself, which is consumed. Frames are taken whole (log entry 5). -/
def Obligations.TrunkFramesAreReceived : Prop :=
  let known : List Byte := [0x01#8, 0x02#8, 0x03#8, 0x10#8, 0x11#8]
  (∀ (s : State) (station hops : Byte) (body : List Byte), body.length ≤ 240 →
    (exec (.trunkFrame .a (TrunkFrame.make 0x01#8 station hops body).lineBytes) s = exec (.timeMark station hops body) s) ∧
    (exec (.trunkFrame .a (TrunkFrame.make 0x02#8 station hops body).lineBytes) s = exec (.cue station hops body) s) ∧
    (exec (.trunkFrame .a (TrunkFrame.make 0x03#8 station hops body).lineBytes) s = exec (.cueCancel station hops body) s) ∧
    (exec (.trunkFrame .a (TrunkFrame.make 0x10#8 station hops body).lineBytes) s = exec (.request station hops body) s) ∧
    (s.resetAsserted = false → ∀ (kind : Byte) (crc : Half),
      (crc ≠ crc16 (frameBytes kind station hops body) → ∀ port,
        ∃ t, exec (.trunkFrame port (TrunkFrame.lineBytes ⟨kind, station, hops, body, crc⟩)) s = .next t ∧
          (t.trunk.counts port).crcDrops = min 65535 ((s.trunk.counts port).crcDrops + 1) ∧
          t.trunk = s.trunk.setCounts port (t.trunk.counts port) ∧
          (t.trunk.counts port).received = (s.trunk.counts port).received ∧ s.changesOnly t [.trunk]) ∧
      ∃ t, exec (.trunkFrame .b (TrunkFrame.make kind station hops body).lineBytes) s = .next t ∧
        t.trunk.countsB.received = min 65535 (s.trunk.countsB.received + 1) ∧ t.trunk.countsB.crcDrops = s.trunk.countsB.crcDrops ∧
        (t.trunk.countsB.foreign = if kind ∈ known then s.trunk.countsB.foreign else min 65535 (s.trunk.countsB.foreign + 1)) ∧
        t.trunk.countsA = s.trunk.countsA ∧ t.trunk.malformed = s.trunk.malformed ∧ s.onlyNotices t ∧
        (0 < hops.toNat % 64 → t.trunk.countsB.hopExpiries = s.trunk.countsB.hopExpiries) ∧
        (0 < hops.toNat % 64 → 8 ≤ s.trunk.aOut.frames.length → s.notified t .trunkDrop ∧
          t.trunk.aOut = { s.trunk.aOut with drops := min 65535 (s.trunk.aOut.drops + 1) }) ∧
        (0 < hops.toNat % 64 → s.trunk.aOut.frames.length < 8 → t.trunk.aOut.frames = s.trunk.aOut.frames ++
          [TrunkFrame.make kind station (BitVec.ofNat 8 (hops.toNat % 64 - 1)) body]) ∧
        (hops.toNat % 64 = 0 → t.trunk.countsB.hopExpiries = min 65535 (s.trunk.countsB.hopExpiries + 1) ∧
          t.trunk.aOut = s.trunk.aOut) ∧
        t.trunk.bOut = s.trunk.bOut ∧ s.changesOnly t [.trunk, .records])) ∧
  ∀ (s : State) (own kind station hops : Byte) (body : List Byte), body.length ≤ 240 → s.resetAsserted = false →
    s.trunk.station = some own →
    let mine : Prop := kind = 0x10#8 ∧ (station = own ∨ station = 0#8)
    let malformed : Prop := (kind = 0x01#8 ∧ body.length ≠ 4 ∧ body.length ≠ 6) ∨
      ((kind = 0x02#8 ∨ kind = 0x03#8) ∧ body.length ≠ 1) ∨ (mine ∧ body.length < 3)
    let unread : Prop := kind = 0x11#8 ∨ kind ∉ known ∨ (kind = 0x10#8 ∧ ¬mine)
    malformed ∨ unread →
    ∃ t, exec (.trunkFrame .a (TrunkFrame.make kind station hops body).lineBytes) s = .next t ∧
      t.trunk.countsA.received = min 65535 (s.trunk.countsA.received + 1) ∧ t.trunk.countsA.crcDrops = s.trunk.countsA.crcDrops ∧
      (t.trunk.countsA.foreign = if kind ∈ known then s.trunk.countsA.foreign else min 65535 (s.trunk.countsA.foreign + 1)) ∧
      (malformed → t.trunk.malformed = min 65535 (s.trunk.malformed + 1)) ∧ (¬malformed → t.trunk.malformed = s.trunk.malformed) ∧
      (¬(kind = 0x10#8 ∧ station = own) → s.passedOn t (.make kind station hops body)) ∧
      (kind = 0x10#8 ∧ station = own → t.trunk.bOut = s.trunk.bOut ∧
        t.trunk.countsA.hopExpiries = s.trunk.countsA.hopExpiries ∧ t.records = s.records) ∧
      t.trunk.countsB = s.trunk.countsB ∧ t.trunk.aOut = s.trunk.aOut ∧ s.onlyNotices t ∧ s.changesOnly t [.trunk, .records]

/-- TRUNK_TRANSMIT_END (R152), HELD_REPLY_PLACED (R158), READ_STATION (R161) and UNKNOWN_REQUEST_CODE (R160): the head frame leaves and is counted; a held
reply takes its place once there is room; the station's values are read, and its counts cleared on request; a request of bad form is
answered BAD_VALUE, a LOAD PLAN of another length than its n gives among them, and so is a RESTART of unknown kind, which that row carries
(log entry 11). Where nothing is being sent, or no reply is held with room for it, nothing happens (log entry 1); READ_STATION's one-byte
fields are log entry 10. -/
def Obligations.RepliesAndStation : Prop :=
  (∀ s : State, s.resetAsserted = false →
    (s.trunk.aOut.frames = [] → exec (.trunkTransmitEnd .a) s = .next s) ∧
    (s.trunk.bOut.frames = [] → exec (.trunkTransmitEnd .b) s = .next s) ∧
    (∀ f rest, s.trunk.aOut.frames = f :: rest → ∃ t, exec (.trunkTransmitEnd .a) s = .next t ∧
      t.trunk = { s.trunk with aOut := ⟨rest, min 65535 (s.trunk.aOut.sent + 1), s.trunk.aOut.drops⟩ } ∧
      s.changesOnly t [.trunk]) ∧
    ∀ f rest, s.trunk.bOut.frames = f :: rest → ∃ t, exec (.trunkTransmitEnd .b) s = .next t ∧
      t.trunk = { s.trunk with bOut := ⟨rest, min 65535 (s.trunk.bOut.sent + 1), s.trunk.bOut.drops⟩ } ∧
      s.changesOnly t [.trunk]) ∧
  (∀ (s : State) (r : Request) (reply : TrunkFrame), s.resetAsserted = false → s.mgmt.engine = .replyWait r reply →
    (8 ≤ s.trunk.aOut.frames.length → exec .heldReplyPlaced s = .next s) ∧
    (s.trunk.aOut.frames.length < 8 → ∃ t, exec .heldReplyPlaced s = .next t ∧
      t.trunk = { s.trunk with aOut := { s.trunk.aOut with frames := s.trunk.aOut.frames ++ [reply] } } ∧
      t.mgmt = ({ s.mgmt with engine := .idle } : Management).takeNext ∧ s.changesOnly t [.trunk, .mgmt])) ∧
  (∀ s : State, (∀ r reply, s.mgmt.engine ≠ .replyWait r reply) → exec .heldReplyPlaced s = .next s) ∧
  (∀ (s : State) (src : Source) (clear : Byte) (r : Request), encodeRequest (.readStation src clear) = some r → s.carries r = true →
    r.src.broadcast = false →
    let counts := fun (c : PortCounts) => num2 c.received ++ num2 c.crcDrops ++ num2 c.hopExpiries ++ num2 c.foreign
    let fields := [s.trunk.strap, s.trunk.station.getD 0#8, 0x1C#8, 0x04#8, 0x16#8] ++ num1 s.trunk.aOut.frames.length ++
      num1 s.trunk.bOut.frames.length ++ num1 s.mgmt.queue.length ++ counts s.trunk.countsA ++ counts s.trunk.countsB ++
      num2 s.trunk.malformed ++ num2 s.trunk.aOut.sent ++ num2 s.trunk.aOut.drops ++ num2 s.trunk.bOut.sent ++
      num2 s.trunk.bOut.drops
    let reply := s.replyTo r .done s.records.notices fields
    ∃ t, exec (.readStation src clear) s = .next t ∧ s.changesOnly t [.trunk, .mgmt] ∧
      (clear = 0#8 → t.trunk.countsA = ⟨0, 0, 0, 0⟩ ∧ t.trunk.countsB = ⟨0, 0, 0, 0⟩ ∧ t.trunk.malformed = 0 ∧
        t.trunk.bOut = ⟨s.trunk.bOut.frames, 0, 0⟩ ∧ t.trunk.strap = s.trunk.strap) ∧
      (s.trunk.aOut.frames.length < 8 → (1 < clear.toNat → s.refusedWith t r .badValue) ∧ (clear = 1#8 → s.answered t r .done fields) ∧
        (clear = 0#8 → t.trunk.aOut = ⟨s.trunk.aOut.frames ++ [reply], 0, 0⟩ ∧
          t.mgmt = ({ s.mgmt with engine := .idle } : Management).takeNext)) ∧
      (8 ≤ s.trunk.aOut.frames.length → (clear ≠ 0#8 → t.trunk = s.trunk) ∧ (clear = 0#8 → t.trunk.aOut = ⟨s.trunk.aOut.frames, 0, 0⟩) ∧
        t.mgmt = { s.mgmt with
          engine := .replyWait r (if 1 < clear.toNat then s.replyTo r .badValue s.records.notices [] else reply) })) ∧
  ∀ (s : State) (src : Source) (code : Byte) (params : List Byte) (r : Request),
    s.readyFor (.unknownRequestCode src code params) r →
    (code ≠ 0x20#8 ∧ paramLength code ≠ some params.length) ∨
      (code = 0x20#8 ∧ (params.length < 10 ∨ ∃ n : Byte, params[9]? = some n ∧ params.length ≠ 10 + 5 * n.toNat)) ∨
      (code = 0x71#8 ∧ ∃ kind : Byte, params = [kind] ∧ 1 < kind.toNat) →
    ∃ t, exec (.unknownRequestCode src code params) s = .next t ∧ s.refusedWith t r .badValue

/-- RESTART_WARM, RESTART_COLD and RESTART_EFFECT (R162): an addressed restart is answered first and takes effect then, waiting while its reply finds
A-out full; a broadcast WARM one takes effect with its command; where no RESTART waits for its effect nothing happens (log entry 1). A WARM one keeps what the rules of each block keep (R17,
R39, R80, R95, R116, R134, R149, R164, R175, R183): the records of the plan store stand, its shadows are promoted, the pending set is emptied, and
the out-queues keep the frame being sent and the restart's reply, found in A-out by equality (log entry 20). A COLD one gives every block the
values of RESET_ASSERT (State.cleared), and keeps the station number and what the out-queues keep; the lines are sampled. What the cleared
identity fields hold, the stuck cells and the free reads are log entries 9, 8 and 7. -/
def Obligations.RestartsTakeEffect : Prop :=
  (∀ (s : State) (src : Source) (pins : PinSample) (r : Request), s.readyFor (.restartWarm src pins) r →
    ∃ t, exec (.restartWarm src pins) s = .next t ∧
      t.trunk.aOut.frames = s.trunk.aOut.frames ++ [s.replyTo r .done s.records.notices []] ∧
      t.mgmt = ⟨s.mgmt.queue, .idle, some (.warm, s.replyTo r .done s.records.notices [])⟩ ∧ s.changesOnly t [.trunk, .mgmt]) ∧
  (∀ (s : State) (src : Source) (r : Request), s.readyFor (.restartCold src) r →
    ∃ t, exec (.restartCold src) s = .next t ∧
      t.trunk.aOut.frames = s.trunk.aOut.frames ++ [s.replyTo r .done s.records.notices []] ∧
      t.mgmt = ⟨s.mgmt.queue, .idle, some (.cold, s.replyTo r .done s.records.notices [])⟩ ∧ s.changesOnly t [.trunk, .mgmt]) ∧
  (∀ (s : State) (c : Instr) (k : RestartKind) (src : Source) (pins : PinSample) (r : Request),
    (k = .warm ∧ c = .restartWarm src pins) ∨ (k = .cold ∧ c = .restartCold src) →
    encodeRequest c = some r → s.carries r = true → r.src.broadcast = false → 8 ≤ s.trunk.aOut.frames.length →
    let reply := s.replyTo r .done s.records.notices []
    let t := s.setMgmt { s.mgmt with engine := .replyWait r reply, restart := some (k, reply) }
    exec c s = .next t ∧ ∀ sample, exec (.restartEffect sample) t = .next t) ∧
  (∀ (s : State) (pins : PinSample), s.resetAsserted = false → s.mgmt.restart = none → exec (.restartEffect pins) s = .next s) ∧
  (∀ (s : State) (src : Source) (pins : PinSample) (r : Request) (reply : TrunkFrame), s.readyForAny (.restartWarm src pins) r →
    r.src.broadcast = true → reply ∉ s.trunk.aOut.frames →
    exec (.restartWarm src pins) s = exec (.restartEffect pins) (s.setMgmt ⟨[], .idle, some (.warm, reply)⟩)) ∧
  (∀ (s : State) (pins : PinSample) (reply : TrunkFrame), s.resetAsserted = false → s.mgmt.engine = .idle →
    s.mgmt.restart = some (.warm, reply) →
    ∃ t, exec (.restartEffect pins) s = .next t ∧
      t.time.nt = s.time.nt ∧ t.time.day = s.time.day ∧ t.time.phase = s.time.phase ∧ t.time.agree = 0 ∧ t.time.outliers = 0 ∧
      t.time.slew = 0 ∧ t.time.age = 0 ∧ t.time.lastDiff = none ∧
      (t.time.disc = if s.time.disc = .unset then .unset else .acquire) ∧
      (∀ i, (s.slot i).state = .unused → (t.slot i) = s.slot i) ∧
      (∀ i, (s.slot i).state ≠ .unused →
        t.slot i = { Slot.unused with
          intersection := (s.slot i).intersection, port := (s.slot i).port, drop := (s.slot i).drop, group := (s.slot i).group
          divider := (s.slot i).divider, mode := (s.slot i).mode, recording := (s.slot i).recording, state := .joining
          causes := (t.slot i).causes } ∧ causeIn (t.slot i).causes .field = false ∧
        ∀ l : Fin 4, causeIn (t.slot i).causes (.hold l) = (decide (pins.holds.get l = .active) && slotIn (s.hold l).map i)) ∧
      (∀ l, t.hold l = { level := pins.holds.get l, map := (s.hold l).map }) ∧
      (∀ g, t.group g = { s.group g with
        state := .steady, target := 0, layer := none, targetMode := none, elapsed := 0, adopted := false, reported := false }) ∧
      (∀ i, t.member i = (s.member i).map fun m => ⟨m.group, .joining, 0⟩) ∧
      t.tables.calendar = s.tables.calendar ∧ t.tables.base = s.tables.base ∧ t.tables.events = s.tables.events ∧
      t.tables.cues = s.tables.cues ∧ (∀ g : Fin 16, t.tables.active.get g = none ∧ t.tables.direct.get g = none) ∧
      (∀ p, t.port p = { s.port p with
        state := .idle, queue := [], exchange := none, wire := [], line := pins.lines.get p, blockedTimer := 0, idleTimer := 0 }) ∧
      t.trunk = { s.trunk with
        aOut := { s.trunk.aOut with frames := t.trunk.aOut.frames }
        bOut := { s.trunk.bOut with frames := s.trunk.bOut.frames.take 1 } } ∧
      (s.trunk.aOut.frames = [] → t.trunk.aOut.frames = []) ∧
      (∀ f rest, s.trunk.aOut.frames = f :: rest →
        (reply ∈ rest → t.trunk.aOut.frames = [f, reply]) ∧ (reply ∉ rest → t.trunk.aOut.frames = [f])) ∧
      t.mgmt = ⟨[], .idle, none⟩ ∧
      t.records.ring = [] ∧ t.records.overwrites = 0 ∧ t.records.filter = s.records.filter ∧ t.records.notices = 0#15 ∧
      t.records.reload = s.records.reload ∧ t.records.countDown = s.records.reload ∧ t.records.mask = s.records.mask ∧
      t.logOut = none ∧ t.store.scrubOn = true ∧ t.store.scrubPos = 0 ∧ t.store.passes = 0 ∧
      t.store.corrected = s.store.corrected ∧ t.store.stuck = s.store.stuck ∧ t.resetAsserted = false ∧ t.freeReads = s.freeReads ∧
      t.pending = s.pending ∧
      (s.store.wf = true → s.store.keyed → ∀ m, m ∈ t.store.held ↔
        (m ∈ s.store.held ∧ m.occupancy = .record ∧ m.link = none) ∨
        ∃ sh ∈ s.store.held, sh.occupancy = .shadow ∧ m = { sh with occupancy := .record, link := none })) ∧
  ∀ (s : State) (pins : PinSample) (reply : TrunkFrame), s.resetAsserted = false →
    s.mgmt.engine = .idle → s.mgmt.restart = some (.cold, reply) →
    ∃ t, exec (.restartEffect pins) s = .next t ∧ s.cleared t ∧
      (s.trunk.aOut.frames = [] → t.trunk.aOut.frames = []) ∧
      (∀ f rest, s.trunk.aOut.frames = f :: rest →
        (reply ∈ rest → t.trunk.aOut.frames = [f, reply]) ∧ (reply ∉ rest → t.trunk.aOut.frames = [f])) ∧
      t.trunk.bOut.frames = s.trunk.bOut.frames.take 1 ∧ (∀ p, (t.port p).line = pins.lines.get p) ∧
      (∀ l, (t.hold l).level = pins.holds.get l) ∧ t.resetAsserted = false

/-! ### Records and notices -/

/-- SET_RECORDING (R170) and COUNT_DOWN_ZERO (R168): the filter, the reload value and the count-down by R170's table, and the recording flag of every
defined slot; a count-down at 0 with a reload value above 0 raises RECORD_COUNT and reloads. -/
def Obligations.RecordSettings : Prop :=
  (∀ (s : State) (src : Source) (filter : SlotSet) (reload choice : Byte) (r : Request),
    s.readyFor (.setRecording src filter reload choice) r →
    ∃ t, exec (.setRecording src filter reload choice) s = .next t ∧ (1 < choice.toNat → s.refusedWith t r .badValue) ∧
      (choice.toNat ≤ 1 →
        t.records = { s.records with filter := filter, reload := reload.toNat, countDown := t.records.countDown } ∧
        (reload = 0#8 → t.records.countDown = 0) ∧
        (reload ≠ 0#8 → choice = 1#8 → t.records.countDown = reload.toNat) ∧
        (reload ≠ 0#8 → choice = 0#8 → 0 < s.records.countDown → t.records.countDown = s.records.countDown) ∧
        (reload ≠ 0#8 → choice = 0#8 → s.records.countDown = 0 → t.records.countDown = reload.toNat) ∧
        (∀ i, (s.slot i).state = .unused → t.slot i = s.slot i) ∧
        (∀ i, (s.slot i).state ≠ .unused → t.slot i = { s.slot i with recording := slotIn filter i }) ∧
        s.answered t r .done (setBytes filter ++ [reload] ++ num1 t.records.countDown) ∧
        s.changesOnly t [.slots, .records, .trunk, .mgmt])) ∧
  ∀ s : State, s.resetAsserted = false →
    (s.records.reload = 0 ∨ s.records.countDown ≠ 0 → exec .countDownZero s = .next s) ∧
    (0 < s.records.reload → s.records.countDown = 0 → ∃ t, exec .countDownZero s = .next t ∧
      t.records = { s.records with countDown := s.records.reload, notices := t.records.notices } ∧
      (noticeIn s.records.mask .recordCount = false → noticeIn t.records.notices .recordCount = true) ∧
      s.changesOnly t [.records])

/-- R173: the mask is replaced whole and every kind now masked leaves the pending set; kinds unmasked stay out until they are raised; the ring and the
count-down stand, and a mask does not stop the count-down. -/
def Obligations.NoticeMaskReplaced : Prop :=
  (∀ (s : State) (src : Source) (mask : Half) (r : Request), s.readyFor (.setNoticeMask src mask) r →
    ∃ t, exec (.setNoticeMask src mask) s = .next t ∧
      (∀ k, noticeIn t.records.mask k = mask.getLsbD (noticeBit k)) ∧
      (∀ k, noticeIn t.records.notices k = (noticeIn s.records.notices k && !mask.getLsbD (noticeBit k))) ∧
      t.records = { s.records with mask := t.records.mask, notices := t.records.notices } ∧
      s.answered t r .done (noticeBytes t.records.mask ++ noticeBytes t.records.notices) ∧
      s.changesOnly t [.records, .trunk, .mgmt]) ∧
  ∀ (u : RecordUnit) (mask : Half), (u.setMask mask).countPlaced.countDown = u.countPlaced.countDown ∧
    (noticeIn (u.setMask mask).mask .recordCount = true →
      noticeIn (u.setMask mask).countPlaced.notices .recordCount = false)

/-- R166 to R168 at one record, and READ_RECORDS (R169) and READ_NOTICES (R172): a record outside the filter is discarded; one inside joins the end of the
ring, after the oldest has left a full ring; the count-down moves; reading takes the oldest out, and reading the notices empties the
set. -/
def Obligations.RecordsAreKeptAndRead : Prop :=
  (∀ (u : RecordUnit) (x : TransitionRecord),
    (slotIn u.filter x.slot = false → u.take x = u) ∧
    (slotIn u.filter x.slot = true →
      (u.ring.length < 128 → (u.take x).ring = u.ring ++ [x] ∧ (u.take x).overwrites = u.overwrites) ∧
      (u.ring.length = 128 → (u.take x).ring = u.ring.drop 1 ++ [x] ∧ (u.take x).overwrites = min 65535 (u.overwrites + 1) ∧
        (noticeIn u.mask .ringOverwrite = false → noticeIn (u.take x).notices .ringOverwrite = true)) ∧
      (u.reload = 0 → (u.take x).countDown = u.countDown) ∧
      (0 < u.reload → 1 < u.countDown → (u.take x).countDown = u.countDown - 1) ∧
      (0 < u.reload → u.countDown = 1 → (u.take x).countDown = u.reload ∧
        (noticeIn u.mask .recordCount = false → noticeIn (u.take x).notices .recordCount = true)))) ∧
  (∀ (s : State) (src : Source) (maximum : Byte) (r : Request), s.readyFor (.readRecords src maximum) r →
    ∃ t, exec (.readRecords src maximum) s = .next t ∧
      (maximum = 0#8 ∨ 6 < maximum.toNat → s.refusedWith t r .badValue) ∧
      (1 ≤ maximum.toNat → maximum.toNat ≤ 6 →
        t.records = { s.records with ring := s.records.ring.drop maximum.toNat } ∧
        s.answered t r (if t.records.ring = [] then .done else .partly)
          (num1 (s.records.ring.take maximum.toNat).length ++ num1 t.records.ring.length ++ num2 s.records.overwrites ++
            num1 s.records.countDown ++ ((s.records.ring.take maximum.toNat).map TransitionRecord.fields).flatten) ∧
        (∀ x ∈ s.records.ring, x.fields.length = 24) ∧ s.changesOnly t [.records, .trunk, .mgmt])) ∧
  ∀ (s : State) (src : Source) (r : Request), s.readyFor (.readNotices src) r →
    ∃ t, exec (.readNotices src) s = .next t ∧ t.records = { s.records with notices := 0#15 } ∧
      s.answered t r .done (noticeBytes s.records.notices) ∧ s.changesOnly t [.records, .trunk, .mgmt]

/-! ### Encodings -/

/-- R186 (Table 12-5): a well-formed request command encodes to parameters of its code's length, and they decode to the command. The pins of a RESTART
WARM are no part of its encoding. -/
def Obligations.RequestsRoundTrip : Prop :=
  ∀ (pins : PinSample) (i : Instr) (r : Request), i.wellFormed = true → encodeRequest i = some r →
    (∀ src q, i = .restartWarm src q → q = pins) →
    decodeRequest pins r = i ∧
      ((∀ src code params, i ≠ .unknownRequestCode src code params) → paramsFit r.code r.params = true)

/-! ### What every step keeps -/

/-- Table 1-1, R152, R157, R158, R167, R168, R173: the ranges of the time base, the bounds of the queues and of the record unit, and an engine
that is IDLE with requests queued only for a RESTART, are kept by every step. -/
def Obligations.RangesKept : Prop :=
  ∀ s t : State, step s = .next t →
    (s.time.inRange → t.time.inRange) ∧ (s.queuesBounded → t.queuesBounded) ∧ (s.mgmt.settled → t.mgmt.settled) ∧
      (s.records.sound → t.records.sound)

/-- Table 6-1 and R98: the order, the capacity and the keys of the timetable collections, and that no two base entries clash, are kept by every step. -/
def Obligations.TablesKept : Prop :=
  ∀ s t : State, s.tables.ordered → s.tables.noClash → step s = .next t → t.tables.ordered ∧ t.tables.noClash

/-- Table 2-1, R38, R136, R143: every step keeps every slot context in the shape of its state, with no cause outside OVERRIDDEN but in JOINING
without a position, and no latch outside OVERRIDDEN and LATCHED mode. -/
def Obligations.SlotShapesKept : Prop :=
  ∀ s t : State, (∀ i, (s.slot i).shaped) → step s = .next t → ∀ i, (t.slot i).shaped

/-- R62: every step keeps the store's list in its form, at most one record and one shadow under each key, every plan with a defined slot, and every shadow
under its slot's current plan. -/
def Obligations.StoreLawKept : Prop :=
  ∀ s t : State, (∀ i, (s.slot i).shaped) → s.store.wf = true → s.store.keyed → s.storeOwned → step s = .next t →
    t.store.wf = true ∧ t.store.keyed ∧ t.storeOwned

/-- R81, R83: every step keeps the member view in agreement with the slots (every member event has arrived when a step ends; log entry 3), and every
group in the state that the settlement decision gives. -/
def Obligations.GroupsStayDecided : Prop :=
  ∀ s t : State, s.viewAgrees → s.groupsDecided → step s = .next t → t.viewAgrees ∧ t.groupsDecided

/-- Table 7-1, R118, R119, R122, R187: every step keeps every port AWAITING exactly with an exchange, its window in range, at most one frame of a slot
in its queue or in flight, and on its line, only while it sends, the bytes of the frame whose exchange it is. -/
def Obligations.PortsStaySound : Prop :=
  ∀ s t : State, (∀ p, (s.port p).sound) → step s = .next t → ∀ p, (t.port p).sound

/-- The state right after reset has every property that a step keeps. -/
def Obligations.ResetHasWhatStepsKeep : Prop :=
  State.reset.time.inRange ∧ State.reset.queuesBounded ∧ State.reset.mgmt.settled ∧ State.reset.records.sound ∧
    State.reset.tables.ordered ∧ State.reset.tables.noClash ∧ (∀ i, (State.reset.slot i).shaped) ∧
    State.reset.store.wf = true ∧ State.reset.store.keyed ∧ State.reset.storeOwned ∧ State.reset.viewAgrees ∧
    State.reset.groupsDecided ∧ ∀ p, (State.reset.port p).sound
end

