-- ==== Sys2Proof/Laws/State.lean ====
section
/-! SUPPORT. What each field, and each element of an array field, reads after each update of the state: one lemma per
field per update, true by unfolding. -/

namespace Sys2Proof.Machine

/-! ### State.setPending -/

@[simp] theorem State.setPending_pending (s : State) (x : List Instr) : (s.setPending x).pending = x := rfl
@[simp] theorem State.setPending_resetAsserted (s : State) (x : List Instr) : (s.setPending x).resetAsserted = s.resetAsserted := rfl
@[simp] theorem State.setPending_time (s : State) (x : List Instr) : (s.setPending x).time = s.time := rfl
@[simp] theorem State.setPending_slots (s : State) (x : List Instr) : (s.setPending x).slots = s.slots := rfl
@[simp] theorem State.setPending_holds (s : State) (x : List Instr) : (s.setPending x).holds = s.holds := rfl
@[simp] theorem State.setPending_groups (s : State) (x : List Instr) : (s.setPending x).groups = s.groups := rfl
@[simp] theorem State.setPending_members (s : State) (x : List Instr) : (s.setPending x).members = s.members := rfl
@[simp] theorem State.setPending_tables (s : State) (x : List Instr) : (s.setPending x).tables = s.tables := rfl
@[simp] theorem State.setPending_store (s : State) (x : List Instr) : (s.setPending x).store = s.store := rfl
@[simp] theorem State.setPending_ports (s : State) (x : List Instr) : (s.setPending x).ports = s.ports := rfl
@[simp] theorem State.setPending_trunk (s : State) (x : List Instr) : (s.setPending x).trunk = s.trunk := rfl
@[simp] theorem State.setPending_mgmt (s : State) (x : List Instr) : (s.setPending x).mgmt = s.mgmt := rfl
@[simp] theorem State.setPending_records (s : State) (x : List Instr) : (s.setPending x).records = s.records := rfl
@[simp] theorem State.setPending_logOut (s : State) (x : List Instr) : (s.setPending x).logOut = s.logOut := rfl
@[simp] theorem State.setPending_freeReads (s : State) (x : List Instr) : (s.setPending x).freeReads = s.freeReads := rfl
@[simp] theorem State.setPending_slot (s : State) (x : List Instr) (i : Fin 64) : (s.setPending x).slot i = s.slot i := rfl
@[simp] theorem State.setPending_hold (s : State) (x : List Instr) (i : Fin 4) : (s.setPending x).hold i = s.hold i := rfl
@[simp] theorem State.setPending_group (s : State) (x : List Instr) (i : Fin 16) : (s.setPending x).group i = s.group i := rfl
@[simp] theorem State.setPending_member (s : State) (x : List Instr) (i : Fin 64) : (s.setPending x).member i = s.member i := rfl
@[simp] theorem State.setPending_port (s : State) (x : List Instr) (i : Fin 4) : (s.setPending x).port i = s.port i := rfl

/-! ### State.setResetAsserted -/

@[simp] theorem State.setResetAsserted_pending (s : State) (x : Bool) : (s.setResetAsserted x).pending = s.pending := rfl
@[simp] theorem State.setResetAsserted_resetAsserted (s : State) (x : Bool) : (s.setResetAsserted x).resetAsserted = x := rfl
@[simp] theorem State.setResetAsserted_time (s : State) (x : Bool) : (s.setResetAsserted x).time = s.time := rfl
@[simp] theorem State.setResetAsserted_slots (s : State) (x : Bool) : (s.setResetAsserted x).slots = s.slots := rfl
@[simp] theorem State.setResetAsserted_holds (s : State) (x : Bool) : (s.setResetAsserted x).holds = s.holds := rfl
@[simp] theorem State.setResetAsserted_groups (s : State) (x : Bool) : (s.setResetAsserted x).groups = s.groups := rfl
@[simp] theorem State.setResetAsserted_members (s : State) (x : Bool) : (s.setResetAsserted x).members = s.members := rfl
@[simp] theorem State.setResetAsserted_tables (s : State) (x : Bool) : (s.setResetAsserted x).tables = s.tables := rfl
@[simp] theorem State.setResetAsserted_store (s : State) (x : Bool) : (s.setResetAsserted x).store = s.store := rfl
@[simp] theorem State.setResetAsserted_ports (s : State) (x : Bool) : (s.setResetAsserted x).ports = s.ports := rfl
@[simp] theorem State.setResetAsserted_trunk (s : State) (x : Bool) : (s.setResetAsserted x).trunk = s.trunk := rfl
@[simp] theorem State.setResetAsserted_mgmt (s : State) (x : Bool) : (s.setResetAsserted x).mgmt = s.mgmt := rfl
@[simp] theorem State.setResetAsserted_records (s : State) (x : Bool) : (s.setResetAsserted x).records = s.records := rfl
@[simp] theorem State.setResetAsserted_logOut (s : State) (x : Bool) : (s.setResetAsserted x).logOut = s.logOut := rfl
@[simp] theorem State.setResetAsserted_freeReads (s : State) (x : Bool) : (s.setResetAsserted x).freeReads = s.freeReads := rfl
@[simp] theorem State.setResetAsserted_slot (s : State) (x : Bool) (i : Fin 64) : (s.setResetAsserted x).slot i = s.slot i := rfl
@[simp] theorem State.setResetAsserted_hold (s : State) (x : Bool) (i : Fin 4) : (s.setResetAsserted x).hold i = s.hold i := rfl
@[simp] theorem State.setResetAsserted_group (s : State) (x : Bool) (i : Fin 16) : (s.setResetAsserted x).group i = s.group i := rfl
@[simp] theorem State.setResetAsserted_member (s : State) (x : Bool) (i : Fin 64) : (s.setResetAsserted x).member i = s.member i := rfl
@[simp] theorem State.setResetAsserted_port (s : State) (x : Bool) (i : Fin 4) : (s.setResetAsserted x).port i = s.port i := rfl

/-! ### State.setTime -/

@[simp] theorem State.setTime_pending (s : State) (x : TimeBase) : (s.setTime x).pending = s.pending := rfl
@[simp] theorem State.setTime_resetAsserted (s : State) (x : TimeBase) : (s.setTime x).resetAsserted = s.resetAsserted := rfl
@[simp] theorem State.setTime_time (s : State) (x : TimeBase) : (s.setTime x).time = x := rfl
@[simp] theorem State.setTime_slots (s : State) (x : TimeBase) : (s.setTime x).slots = s.slots := rfl
@[simp] theorem State.setTime_holds (s : State) (x : TimeBase) : (s.setTime x).holds = s.holds := rfl
@[simp] theorem State.setTime_groups (s : State) (x : TimeBase) : (s.setTime x).groups = s.groups := rfl
@[simp] theorem State.setTime_members (s : State) (x : TimeBase) : (s.setTime x).members = s.members := rfl
@[simp] theorem State.setTime_tables (s : State) (x : TimeBase) : (s.setTime x).tables = s.tables := rfl
@[simp] theorem State.setTime_store (s : State) (x : TimeBase) : (s.setTime x).store = s.store := rfl
@[simp] theorem State.setTime_ports (s : State) (x : TimeBase) : (s.setTime x).ports = s.ports := rfl
@[simp] theorem State.setTime_trunk (s : State) (x : TimeBase) : (s.setTime x).trunk = s.trunk := rfl
@[simp] theorem State.setTime_mgmt (s : State) (x : TimeBase) : (s.setTime x).mgmt = s.mgmt := rfl
@[simp] theorem State.setTime_records (s : State) (x : TimeBase) : (s.setTime x).records = s.records := rfl
@[simp] theorem State.setTime_logOut (s : State) (x : TimeBase) : (s.setTime x).logOut = s.logOut := rfl
@[simp] theorem State.setTime_freeReads (s : State) (x : TimeBase) : (s.setTime x).freeReads = s.freeReads := rfl
@[simp] theorem State.setTime_slot (s : State) (x : TimeBase) (i : Fin 64) : (s.setTime x).slot i = s.slot i := rfl
@[simp] theorem State.setTime_hold (s : State) (x : TimeBase) (i : Fin 4) : (s.setTime x).hold i = s.hold i := rfl
@[simp] theorem State.setTime_group (s : State) (x : TimeBase) (i : Fin 16) : (s.setTime x).group i = s.group i := rfl
@[simp] theorem State.setTime_member (s : State) (x : TimeBase) (i : Fin 64) : (s.setTime x).member i = s.member i := rfl
@[simp] theorem State.setTime_port (s : State) (x : TimeBase) (i : Fin 4) : (s.setTime x).port i = s.port i := rfl

/-! ### State.setTables -/

@[simp] theorem State.setTables_pending (s : State) (x : Timetable) : (s.setTables x).pending = s.pending := rfl
@[simp] theorem State.setTables_resetAsserted (s : State) (x : Timetable) : (s.setTables x).resetAsserted = s.resetAsserted := rfl
@[simp] theorem State.setTables_time (s : State) (x : Timetable) : (s.setTables x).time = s.time := rfl
@[simp] theorem State.setTables_slots (s : State) (x : Timetable) : (s.setTables x).slots = s.slots := rfl
@[simp] theorem State.setTables_holds (s : State) (x : Timetable) : (s.setTables x).holds = s.holds := rfl
@[simp] theorem State.setTables_groups (s : State) (x : Timetable) : (s.setTables x).groups = s.groups := rfl
@[simp] theorem State.setTables_members (s : State) (x : Timetable) : (s.setTables x).members = s.members := rfl
@[simp] theorem State.setTables_tables (s : State) (x : Timetable) : (s.setTables x).tables = x := rfl
@[simp] theorem State.setTables_store (s : State) (x : Timetable) : (s.setTables x).store = s.store := rfl
@[simp] theorem State.setTables_ports (s : State) (x : Timetable) : (s.setTables x).ports = s.ports := rfl
@[simp] theorem State.setTables_trunk (s : State) (x : Timetable) : (s.setTables x).trunk = s.trunk := rfl
@[simp] theorem State.setTables_mgmt (s : State) (x : Timetable) : (s.setTables x).mgmt = s.mgmt := rfl
@[simp] theorem State.setTables_records (s : State) (x : Timetable) : (s.setTables x).records = s.records := rfl
@[simp] theorem State.setTables_logOut (s : State) (x : Timetable) : (s.setTables x).logOut = s.logOut := rfl
@[simp] theorem State.setTables_freeReads (s : State) (x : Timetable) : (s.setTables x).freeReads = s.freeReads := rfl
@[simp] theorem State.setTables_slot (s : State) (x : Timetable) (i : Fin 64) : (s.setTables x).slot i = s.slot i := rfl
@[simp] theorem State.setTables_hold (s : State) (x : Timetable) (i : Fin 4) : (s.setTables x).hold i = s.hold i := rfl
@[simp] theorem State.setTables_group (s : State) (x : Timetable) (i : Fin 16) : (s.setTables x).group i = s.group i := rfl
@[simp] theorem State.setTables_member (s : State) (x : Timetable) (i : Fin 64) : (s.setTables x).member i = s.member i := rfl
@[simp] theorem State.setTables_port (s : State) (x : Timetable) (i : Fin 4) : (s.setTables x).port i = s.port i := rfl

/-! ### State.setStore -/

@[simp] theorem State.setStore_pending (s : State) (x : PlanStore) : (s.setStore x).pending = s.pending := rfl
@[simp] theorem State.setStore_resetAsserted (s : State) (x : PlanStore) : (s.setStore x).resetAsserted = s.resetAsserted := rfl
@[simp] theorem State.setStore_time (s : State) (x : PlanStore) : (s.setStore x).time = s.time := rfl
@[simp] theorem State.setStore_slots (s : State) (x : PlanStore) : (s.setStore x).slots = s.slots := rfl
@[simp] theorem State.setStore_holds (s : State) (x : PlanStore) : (s.setStore x).holds = s.holds := rfl
@[simp] theorem State.setStore_groups (s : State) (x : PlanStore) : (s.setStore x).groups = s.groups := rfl
@[simp] theorem State.setStore_members (s : State) (x : PlanStore) : (s.setStore x).members = s.members := rfl
@[simp] theorem State.setStore_tables (s : State) (x : PlanStore) : (s.setStore x).tables = s.tables := rfl
@[simp] theorem State.setStore_store (s : State) (x : PlanStore) : (s.setStore x).store = x := rfl
@[simp] theorem State.setStore_ports (s : State) (x : PlanStore) : (s.setStore x).ports = s.ports := rfl
@[simp] theorem State.setStore_trunk (s : State) (x : PlanStore) : (s.setStore x).trunk = s.trunk := rfl
@[simp] theorem State.setStore_mgmt (s : State) (x : PlanStore) : (s.setStore x).mgmt = s.mgmt := rfl
@[simp] theorem State.setStore_records (s : State) (x : PlanStore) : (s.setStore x).records = s.records := rfl
@[simp] theorem State.setStore_logOut (s : State) (x : PlanStore) : (s.setStore x).logOut = s.logOut := rfl
@[simp] theorem State.setStore_freeReads (s : State) (x : PlanStore) : (s.setStore x).freeReads = s.freeReads := rfl
@[simp] theorem State.setStore_slot (s : State) (x : PlanStore) (i : Fin 64) : (s.setStore x).slot i = s.slot i := rfl
@[simp] theorem State.setStore_hold (s : State) (x : PlanStore) (i : Fin 4) : (s.setStore x).hold i = s.hold i := rfl
@[simp] theorem State.setStore_group (s : State) (x : PlanStore) (i : Fin 16) : (s.setStore x).group i = s.group i := rfl
@[simp] theorem State.setStore_member (s : State) (x : PlanStore) (i : Fin 64) : (s.setStore x).member i = s.member i := rfl
@[simp] theorem State.setStore_port (s : State) (x : PlanStore) (i : Fin 4) : (s.setStore x).port i = s.port i := rfl

/-! ### State.setTrunk -/

@[simp] theorem State.setTrunk_pending (s : State) (x : Trunk) : (s.setTrunk x).pending = s.pending := rfl
@[simp] theorem State.setTrunk_resetAsserted (s : State) (x : Trunk) : (s.setTrunk x).resetAsserted = s.resetAsserted := rfl
@[simp] theorem State.setTrunk_time (s : State) (x : Trunk) : (s.setTrunk x).time = s.time := rfl
@[simp] theorem State.setTrunk_slots (s : State) (x : Trunk) : (s.setTrunk x).slots = s.slots := rfl
@[simp] theorem State.setTrunk_holds (s : State) (x : Trunk) : (s.setTrunk x).holds = s.holds := rfl
@[simp] theorem State.setTrunk_groups (s : State) (x : Trunk) : (s.setTrunk x).groups = s.groups := rfl
@[simp] theorem State.setTrunk_members (s : State) (x : Trunk) : (s.setTrunk x).members = s.members := rfl
@[simp] theorem State.setTrunk_tables (s : State) (x : Trunk) : (s.setTrunk x).tables = s.tables := rfl
@[simp] theorem State.setTrunk_store (s : State) (x : Trunk) : (s.setTrunk x).store = s.store := rfl
@[simp] theorem State.setTrunk_ports (s : State) (x : Trunk) : (s.setTrunk x).ports = s.ports := rfl
@[simp] theorem State.setTrunk_trunk (s : State) (x : Trunk) : (s.setTrunk x).trunk = x := rfl
@[simp] theorem State.setTrunk_mgmt (s : State) (x : Trunk) : (s.setTrunk x).mgmt = s.mgmt := rfl
@[simp] theorem State.setTrunk_records (s : State) (x : Trunk) : (s.setTrunk x).records = s.records := rfl
@[simp] theorem State.setTrunk_logOut (s : State) (x : Trunk) : (s.setTrunk x).logOut = s.logOut := rfl
@[simp] theorem State.setTrunk_freeReads (s : State) (x : Trunk) : (s.setTrunk x).freeReads = s.freeReads := rfl
@[simp] theorem State.setTrunk_slot (s : State) (x : Trunk) (i : Fin 64) : (s.setTrunk x).slot i = s.slot i := rfl
@[simp] theorem State.setTrunk_hold (s : State) (x : Trunk) (i : Fin 4) : (s.setTrunk x).hold i = s.hold i := rfl
@[simp] theorem State.setTrunk_group (s : State) (x : Trunk) (i : Fin 16) : (s.setTrunk x).group i = s.group i := rfl
@[simp] theorem State.setTrunk_member (s : State) (x : Trunk) (i : Fin 64) : (s.setTrunk x).member i = s.member i := rfl
@[simp] theorem State.setTrunk_port (s : State) (x : Trunk) (i : Fin 4) : (s.setTrunk x).port i = s.port i := rfl

/-! ### State.setMgmt -/

@[simp] theorem State.setMgmt_pending (s : State) (x : Management) : (s.setMgmt x).pending = s.pending := rfl
@[simp] theorem State.setMgmt_resetAsserted (s : State) (x : Management) : (s.setMgmt x).resetAsserted = s.resetAsserted := rfl
@[simp] theorem State.setMgmt_time (s : State) (x : Management) : (s.setMgmt x).time = s.time := rfl
@[simp] theorem State.setMgmt_slots (s : State) (x : Management) : (s.setMgmt x).slots = s.slots := rfl
@[simp] theorem State.setMgmt_holds (s : State) (x : Management) : (s.setMgmt x).holds = s.holds := rfl
@[simp] theorem State.setMgmt_groups (s : State) (x : Management) : (s.setMgmt x).groups = s.groups := rfl
@[simp] theorem State.setMgmt_members (s : State) (x : Management) : (s.setMgmt x).members = s.members := rfl
@[simp] theorem State.setMgmt_tables (s : State) (x : Management) : (s.setMgmt x).tables = s.tables := rfl
@[simp] theorem State.setMgmt_store (s : State) (x : Management) : (s.setMgmt x).store = s.store := rfl
@[simp] theorem State.setMgmt_ports (s : State) (x : Management) : (s.setMgmt x).ports = s.ports := rfl
@[simp] theorem State.setMgmt_trunk (s : State) (x : Management) : (s.setMgmt x).trunk = s.trunk := rfl
@[simp] theorem State.setMgmt_mgmt (s : State) (x : Management) : (s.setMgmt x).mgmt = x := rfl
@[simp] theorem State.setMgmt_records (s : State) (x : Management) : (s.setMgmt x).records = s.records := rfl
@[simp] theorem State.setMgmt_logOut (s : State) (x : Management) : (s.setMgmt x).logOut = s.logOut := rfl
@[simp] theorem State.setMgmt_freeReads (s : State) (x : Management) : (s.setMgmt x).freeReads = s.freeReads := rfl
@[simp] theorem State.setMgmt_slot (s : State) (x : Management) (i : Fin 64) : (s.setMgmt x).slot i = s.slot i := rfl
@[simp] theorem State.setMgmt_hold (s : State) (x : Management) (i : Fin 4) : (s.setMgmt x).hold i = s.hold i := rfl
@[simp] theorem State.setMgmt_group (s : State) (x : Management) (i : Fin 16) : (s.setMgmt x).group i = s.group i := rfl
@[simp] theorem State.setMgmt_member (s : State) (x : Management) (i : Fin 64) : (s.setMgmt x).member i = s.member i := rfl
@[simp] theorem State.setMgmt_port (s : State) (x : Management) (i : Fin 4) : (s.setMgmt x).port i = s.port i := rfl

/-! ### State.setRecords -/

@[simp] theorem State.setRecords_pending (s : State) (x : RecordUnit) : (s.setRecords x).pending = s.pending := rfl
@[simp] theorem State.setRecords_resetAsserted (s : State) (x : RecordUnit) : (s.setRecords x).resetAsserted = s.resetAsserted := rfl
@[simp] theorem State.setRecords_time (s : State) (x : RecordUnit) : (s.setRecords x).time = s.time := rfl
@[simp] theorem State.setRecords_slots (s : State) (x : RecordUnit) : (s.setRecords x).slots = s.slots := rfl
@[simp] theorem State.setRecords_holds (s : State) (x : RecordUnit) : (s.setRecords x).holds = s.holds := rfl
@[simp] theorem State.setRecords_groups (s : State) (x : RecordUnit) : (s.setRecords x).groups = s.groups := rfl
@[simp] theorem State.setRecords_members (s : State) (x : RecordUnit) : (s.setRecords x).members = s.members := rfl
@[simp] theorem State.setRecords_tables (s : State) (x : RecordUnit) : (s.setRecords x).tables = s.tables := rfl
@[simp] theorem State.setRecords_store (s : State) (x : RecordUnit) : (s.setRecords x).store = s.store := rfl
@[simp] theorem State.setRecords_ports (s : State) (x : RecordUnit) : (s.setRecords x).ports = s.ports := rfl
@[simp] theorem State.setRecords_trunk (s : State) (x : RecordUnit) : (s.setRecords x).trunk = s.trunk := rfl
@[simp] theorem State.setRecords_mgmt (s : State) (x : RecordUnit) : (s.setRecords x).mgmt = s.mgmt := rfl
@[simp] theorem State.setRecords_records (s : State) (x : RecordUnit) : (s.setRecords x).records = x := rfl
@[simp] theorem State.setRecords_logOut (s : State) (x : RecordUnit) : (s.setRecords x).logOut = s.logOut := rfl
@[simp] theorem State.setRecords_freeReads (s : State) (x : RecordUnit) : (s.setRecords x).freeReads = s.freeReads := rfl
@[simp] theorem State.setRecords_slot (s : State) (x : RecordUnit) (i : Fin 64) : (s.setRecords x).slot i = s.slot i := rfl
@[simp] theorem State.setRecords_hold (s : State) (x : RecordUnit) (i : Fin 4) : (s.setRecords x).hold i = s.hold i := rfl
@[simp] theorem State.setRecords_group (s : State) (x : RecordUnit) (i : Fin 16) : (s.setRecords x).group i = s.group i := rfl
@[simp] theorem State.setRecords_member (s : State) (x : RecordUnit) (i : Fin 64) : (s.setRecords x).member i = s.member i := rfl
@[simp] theorem State.setRecords_port (s : State) (x : RecordUnit) (i : Fin 4) : (s.setRecords x).port i = s.port i := rfl

/-! ### State.setLogOut -/

@[simp] theorem State.setLogOut_pending (s : State) (x : Option LogOut) : (s.setLogOut x).pending = s.pending := rfl
@[simp] theorem State.setLogOut_resetAsserted (s : State) (x : Option LogOut) : (s.setLogOut x).resetAsserted = s.resetAsserted := rfl
@[simp] theorem State.setLogOut_time (s : State) (x : Option LogOut) : (s.setLogOut x).time = s.time := rfl
@[simp] theorem State.setLogOut_slots (s : State) (x : Option LogOut) : (s.setLogOut x).slots = s.slots := rfl
@[simp] theorem State.setLogOut_holds (s : State) (x : Option LogOut) : (s.setLogOut x).holds = s.holds := rfl
@[simp] theorem State.setLogOut_groups (s : State) (x : Option LogOut) : (s.setLogOut x).groups = s.groups := rfl
@[simp] theorem State.setLogOut_members (s : State) (x : Option LogOut) : (s.setLogOut x).members = s.members := rfl
@[simp] theorem State.setLogOut_tables (s : State) (x : Option LogOut) : (s.setLogOut x).tables = s.tables := rfl
@[simp] theorem State.setLogOut_store (s : State) (x : Option LogOut) : (s.setLogOut x).store = s.store := rfl
@[simp] theorem State.setLogOut_ports (s : State) (x : Option LogOut) : (s.setLogOut x).ports = s.ports := rfl
@[simp] theorem State.setLogOut_trunk (s : State) (x : Option LogOut) : (s.setLogOut x).trunk = s.trunk := rfl
@[simp] theorem State.setLogOut_mgmt (s : State) (x : Option LogOut) : (s.setLogOut x).mgmt = s.mgmt := rfl
@[simp] theorem State.setLogOut_records (s : State) (x : Option LogOut) : (s.setLogOut x).records = s.records := rfl
@[simp] theorem State.setLogOut_logOut (s : State) (x : Option LogOut) : (s.setLogOut x).logOut = x := rfl
@[simp] theorem State.setLogOut_freeReads (s : State) (x : Option LogOut) : (s.setLogOut x).freeReads = s.freeReads := rfl
@[simp] theorem State.setLogOut_slot (s : State) (x : Option LogOut) (i : Fin 64) : (s.setLogOut x).slot i = s.slot i := rfl
@[simp] theorem State.setLogOut_hold (s : State) (x : Option LogOut) (i : Fin 4) : (s.setLogOut x).hold i = s.hold i := rfl
@[simp] theorem State.setLogOut_group (s : State) (x : Option LogOut) (i : Fin 16) : (s.setLogOut x).group i = s.group i := rfl
@[simp] theorem State.setLogOut_member (s : State) (x : Option LogOut) (i : Fin 64) : (s.setLogOut x).member i = s.member i := rfl
@[simp] theorem State.setLogOut_port (s : State) (x : Option LogOut) (i : Fin 4) : (s.setLogOut x).port i = s.port i := rfl

/-! ### State.setFreeReads -/

@[simp] theorem State.setFreeReads_pending (s : State) (x : Nat) : (s.setFreeReads x).pending = s.pending := rfl
@[simp] theorem State.setFreeReads_resetAsserted (s : State) (x : Nat) : (s.setFreeReads x).resetAsserted = s.resetAsserted := rfl
@[simp] theorem State.setFreeReads_time (s : State) (x : Nat) : (s.setFreeReads x).time = s.time := rfl
@[simp] theorem State.setFreeReads_slots (s : State) (x : Nat) : (s.setFreeReads x).slots = s.slots := rfl
@[simp] theorem State.setFreeReads_holds (s : State) (x : Nat) : (s.setFreeReads x).holds = s.holds := rfl
@[simp] theorem State.setFreeReads_groups (s : State) (x : Nat) : (s.setFreeReads x).groups = s.groups := rfl
@[simp] theorem State.setFreeReads_members (s : State) (x : Nat) : (s.setFreeReads x).members = s.members := rfl
@[simp] theorem State.setFreeReads_tables (s : State) (x : Nat) : (s.setFreeReads x).tables = s.tables := rfl
@[simp] theorem State.setFreeReads_store (s : State) (x : Nat) : (s.setFreeReads x).store = s.store := rfl
@[simp] theorem State.setFreeReads_ports (s : State) (x : Nat) : (s.setFreeReads x).ports = s.ports := rfl
@[simp] theorem State.setFreeReads_trunk (s : State) (x : Nat) : (s.setFreeReads x).trunk = s.trunk := rfl
@[simp] theorem State.setFreeReads_mgmt (s : State) (x : Nat) : (s.setFreeReads x).mgmt = s.mgmt := rfl
@[simp] theorem State.setFreeReads_records (s : State) (x : Nat) : (s.setFreeReads x).records = s.records := rfl
@[simp] theorem State.setFreeReads_logOut (s : State) (x : Nat) : (s.setFreeReads x).logOut = s.logOut := rfl
@[simp] theorem State.setFreeReads_freeReads (s : State) (x : Nat) : (s.setFreeReads x).freeReads = x := rfl
@[simp] theorem State.setFreeReads_slot (s : State) (x : Nat) (i : Fin 64) : (s.setFreeReads x).slot i = s.slot i := rfl
@[simp] theorem State.setFreeReads_hold (s : State) (x : Nat) (i : Fin 4) : (s.setFreeReads x).hold i = s.hold i := rfl
@[simp] theorem State.setFreeReads_group (s : State) (x : Nat) (i : Fin 16) : (s.setFreeReads x).group i = s.group i := rfl
@[simp] theorem State.setFreeReads_member (s : State) (x : Nat) (i : Fin 64) : (s.setFreeReads x).member i = s.member i := rfl
@[simp] theorem State.setFreeReads_port (s : State) (x : Nat) (i : Fin 4) : (s.setFreeReads x).port i = s.port i := rfl

/-! ### State.setSlot -/

@[simp] theorem State.setSlot_pending (s : State) (i : Fin 64) (x : Slot) : (s.setSlot i x).pending = s.pending := rfl
@[simp] theorem State.setSlot_resetAsserted (s : State) (i : Fin 64) (x : Slot) : (s.setSlot i x).resetAsserted = s.resetAsserted := rfl
@[simp] theorem State.setSlot_time (s : State) (i : Fin 64) (x : Slot) : (s.setSlot i x).time = s.time := rfl
@[simp] theorem State.setSlot_holds (s : State) (i : Fin 64) (x : Slot) : (s.setSlot i x).holds = s.holds := rfl
@[simp] theorem State.setSlot_groups (s : State) (i : Fin 64) (x : Slot) : (s.setSlot i x).groups = s.groups := rfl
@[simp] theorem State.setSlot_members (s : State) (i : Fin 64) (x : Slot) : (s.setSlot i x).members = s.members := rfl
@[simp] theorem State.setSlot_tables (s : State) (i : Fin 64) (x : Slot) : (s.setSlot i x).tables = s.tables := rfl
@[simp] theorem State.setSlot_store (s : State) (i : Fin 64) (x : Slot) : (s.setSlot i x).store = s.store := rfl
@[simp] theorem State.setSlot_ports (s : State) (i : Fin 64) (x : Slot) : (s.setSlot i x).ports = s.ports := rfl
@[simp] theorem State.setSlot_trunk (s : State) (i : Fin 64) (x : Slot) : (s.setSlot i x).trunk = s.trunk := rfl
@[simp] theorem State.setSlot_mgmt (s : State) (i : Fin 64) (x : Slot) : (s.setSlot i x).mgmt = s.mgmt := rfl
@[simp] theorem State.setSlot_records (s : State) (i : Fin 64) (x : Slot) : (s.setSlot i x).records = s.records := rfl
@[simp] theorem State.setSlot_logOut (s : State) (i : Fin 64) (x : Slot) : (s.setSlot i x).logOut = s.logOut := rfl
@[simp] theorem State.setSlot_freeReads (s : State) (i : Fin 64) (x : Slot) : (s.setSlot i x).freeReads = s.freeReads := rfl
@[simp] theorem State.setSlot_hold (s : State) (i : Fin 64) (x : Slot) (j : Fin 4) : (s.setSlot i x).hold j = s.hold j := rfl
@[simp] theorem State.setSlot_group (s : State) (i : Fin 64) (x : Slot) (j : Fin 16) : (s.setSlot i x).group j = s.group j := rfl
@[simp] theorem State.setSlot_member (s : State) (i : Fin 64) (x : Slot) (j : Fin 64) : (s.setSlot i x).member j = s.member j := rfl
@[simp] theorem State.setSlot_port (s : State) (i : Fin 64) (x : Slot) (j : Fin 4) : (s.setSlot i x).port j = s.port j := rfl
@[simp] theorem State.setSlot_slot_same (s : State) (i : Fin 64) (x : Slot) : (s.setSlot i x).slot i = x :=
  Vector.getElem_set_self i.isLt
theorem State.setSlot_slot (s : State) (i j : Fin 64) (x : Slot) :
    (s.setSlot i x).slot j = if i = j then x else s.slot j := by
  show (s.slots.set i.val x i.isLt)[j.val] = if i = j then x else s.slots[j.val]
  simp only [Vector.getElem_set, Fin.ext_iff]
theorem State.setSlot_slot_ne (s : State) (i j : Fin 64) (x : Slot) (h : i ≠ j) :
    (s.setSlot i x).slot j = s.slot j := by
  simp [State.setSlot_slot, h]

/-! ### State.setHold -/

@[simp] theorem State.setHold_pending (s : State) (i : Fin 4) (x : HoldLine) : (s.setHold i x).pending = s.pending := rfl
@[simp] theorem State.setHold_resetAsserted (s : State) (i : Fin 4) (x : HoldLine) : (s.setHold i x).resetAsserted = s.resetAsserted := rfl
@[simp] theorem State.setHold_time (s : State) (i : Fin 4) (x : HoldLine) : (s.setHold i x).time = s.time := rfl
@[simp] theorem State.setHold_slots (s : State) (i : Fin 4) (x : HoldLine) : (s.setHold i x).slots = s.slots := rfl
@[simp] theorem State.setHold_groups (s : State) (i : Fin 4) (x : HoldLine) : (s.setHold i x).groups = s.groups := rfl
@[simp] theorem State.setHold_members (s : State) (i : Fin 4) (x : HoldLine) : (s.setHold i x).members = s.members := rfl
@[simp] theorem State.setHold_tables (s : State) (i : Fin 4) (x : HoldLine) : (s.setHold i x).tables = s.tables := rfl
@[simp] theorem State.setHold_store (s : State) (i : Fin 4) (x : HoldLine) : (s.setHold i x).store = s.store := rfl
@[simp] theorem State.setHold_ports (s : State) (i : Fin 4) (x : HoldLine) : (s.setHold i x).ports = s.ports := rfl
@[simp] theorem State.setHold_trunk (s : State) (i : Fin 4) (x : HoldLine) : (s.setHold i x).trunk = s.trunk := rfl
@[simp] theorem State.setHold_mgmt (s : State) (i : Fin 4) (x : HoldLine) : (s.setHold i x).mgmt = s.mgmt := rfl
@[simp] theorem State.setHold_records (s : State) (i : Fin 4) (x : HoldLine) : (s.setHold i x).records = s.records := rfl
@[simp] theorem State.setHold_logOut (s : State) (i : Fin 4) (x : HoldLine) : (s.setHold i x).logOut = s.logOut := rfl
@[simp] theorem State.setHold_freeReads (s : State) (i : Fin 4) (x : HoldLine) : (s.setHold i x).freeReads = s.freeReads := rfl
@[simp] theorem State.setHold_slot (s : State) (i : Fin 4) (x : HoldLine) (j : Fin 64) : (s.setHold i x).slot j = s.slot j := rfl
@[simp] theorem State.setHold_group (s : State) (i : Fin 4) (x : HoldLine) (j : Fin 16) : (s.setHold i x).group j = s.group j := rfl
@[simp] theorem State.setHold_member (s : State) (i : Fin 4) (x : HoldLine) (j : Fin 64) : (s.setHold i x).member j = s.member j := rfl
@[simp] theorem State.setHold_port (s : State) (i : Fin 4) (x : HoldLine) (j : Fin 4) : (s.setHold i x).port j = s.port j := rfl
@[simp] theorem State.setHold_hold_same (s : State) (i : Fin 4) (x : HoldLine) : (s.setHold i x).hold i = x :=
  Vector.getElem_set_self i.isLt
theorem State.setHold_hold (s : State) (i j : Fin 4) (x : HoldLine) :
    (s.setHold i x).hold j = if i = j then x else s.hold j := by
  show (s.holds.set i.val x i.isLt)[j.val] = if i = j then x else s.holds[j.val]
  simp only [Vector.getElem_set, Fin.ext_iff]
theorem State.setHold_hold_ne (s : State) (i j : Fin 4) (x : HoldLine) (h : i ≠ j) :
    (s.setHold i x).hold j = s.hold j := by
  simp [State.setHold_hold, h]

/-! ### State.setGroup -/

@[simp] theorem State.setGroup_pending (s : State) (i : Fin 16) (x : Group) : (s.setGroup i x).pending = s.pending := rfl
@[simp] theorem State.setGroup_resetAsserted (s : State) (i : Fin 16) (x : Group) : (s.setGroup i x).resetAsserted = s.resetAsserted := rfl
@[simp] theorem State.setGroup_time (s : State) (i : Fin 16) (x : Group) : (s.setGroup i x).time = s.time := rfl
@[simp] theorem State.setGroup_slots (s : State) (i : Fin 16) (x : Group) : (s.setGroup i x).slots = s.slots := rfl
@[simp] theorem State.setGroup_holds (s : State) (i : Fin 16) (x : Group) : (s.setGroup i x).holds = s.holds := rfl
@[simp] theorem State.setGroup_members (s : State) (i : Fin 16) (x : Group) : (s.setGroup i x).members = s.members := rfl
@[simp] theorem State.setGroup_tables (s : State) (i : Fin 16) (x : Group) : (s.setGroup i x).tables = s.tables := rfl
@[simp] theorem State.setGroup_store (s : State) (i : Fin 16) (x : Group) : (s.setGroup i x).store = s.store := rfl
@[simp] theorem State.setGroup_ports (s : State) (i : Fin 16) (x : Group) : (s.setGroup i x).ports = s.ports := rfl
@[simp] theorem State.setGroup_trunk (s : State) (i : Fin 16) (x : Group) : (s.setGroup i x).trunk = s.trunk := rfl
@[simp] theorem State.setGroup_mgmt (s : State) (i : Fin 16) (x : Group) : (s.setGroup i x).mgmt = s.mgmt := rfl
@[simp] theorem State.setGroup_records (s : State) (i : Fin 16) (x : Group) : (s.setGroup i x).records = s.records := rfl
@[simp] theorem State.setGroup_logOut (s : State) (i : Fin 16) (x : Group) : (s.setGroup i x).logOut = s.logOut := rfl
@[simp] theorem State.setGroup_freeReads (s : State) (i : Fin 16) (x : Group) : (s.setGroup i x).freeReads = s.freeReads := rfl
@[simp] theorem State.setGroup_slot (s : State) (i : Fin 16) (x : Group) (j : Fin 64) : (s.setGroup i x).slot j = s.slot j := rfl
@[simp] theorem State.setGroup_hold (s : State) (i : Fin 16) (x : Group) (j : Fin 4) : (s.setGroup i x).hold j = s.hold j := rfl
@[simp] theorem State.setGroup_member (s : State) (i : Fin 16) (x : Group) (j : Fin 64) : (s.setGroup i x).member j = s.member j := rfl
@[simp] theorem State.setGroup_port (s : State) (i : Fin 16) (x : Group) (j : Fin 4) : (s.setGroup i x).port j = s.port j := rfl
@[simp] theorem State.setGroup_group_same (s : State) (i : Fin 16) (x : Group) : (s.setGroup i x).group i = x :=
  Vector.getElem_set_self i.isLt
theorem State.setGroup_group (s : State) (i j : Fin 16) (x : Group) :
    (s.setGroup i x).group j = if i = j then x else s.group j := by
  show (s.groups.set i.val x i.isLt)[j.val] = if i = j then x else s.groups[j.val]
  simp only [Vector.getElem_set, Fin.ext_iff]
theorem State.setGroup_group_ne (s : State) (i j : Fin 16) (x : Group) (h : i ≠ j) :
    (s.setGroup i x).group j = s.group j := by
  simp [State.setGroup_group, h]

/-! ### State.setMember -/

@[simp] theorem State.setMember_pending (s : State) (i : Fin 64) (x : Option Member) : (s.setMember i x).pending = s.pending := rfl
@[simp] theorem State.setMember_resetAsserted (s : State) (i : Fin 64) (x : Option Member) : (s.setMember i x).resetAsserted = s.resetAsserted := rfl
@[simp] theorem State.setMember_time (s : State) (i : Fin 64) (x : Option Member) : (s.setMember i x).time = s.time := rfl
@[simp] theorem State.setMember_slots (s : State) (i : Fin 64) (x : Option Member) : (s.setMember i x).slots = s.slots := rfl
@[simp] theorem State.setMember_holds (s : State) (i : Fin 64) (x : Option Member) : (s.setMember i x).holds = s.holds := rfl
@[simp] theorem State.setMember_groups (s : State) (i : Fin 64) (x : Option Member) : (s.setMember i x).groups = s.groups := rfl
@[simp] theorem State.setMember_tables (s : State) (i : Fin 64) (x : Option Member) : (s.setMember i x).tables = s.tables := rfl
@[simp] theorem State.setMember_store (s : State) (i : Fin 64) (x : Option Member) : (s.setMember i x).store = s.store := rfl
@[simp] theorem State.setMember_ports (s : State) (i : Fin 64) (x : Option Member) : (s.setMember i x).ports = s.ports := rfl
@[simp] theorem State.setMember_trunk (s : State) (i : Fin 64) (x : Option Member) : (s.setMember i x).trunk = s.trunk := rfl
@[simp] theorem State.setMember_mgmt (s : State) (i : Fin 64) (x : Option Member) : (s.setMember i x).mgmt = s.mgmt := rfl
@[simp] theorem State.setMember_records (s : State) (i : Fin 64) (x : Option Member) : (s.setMember i x).records = s.records := rfl
@[simp] theorem State.setMember_logOut (s : State) (i : Fin 64) (x : Option Member) : (s.setMember i x).logOut = s.logOut := rfl
@[simp] theorem State.setMember_freeReads (s : State) (i : Fin 64) (x : Option Member) : (s.setMember i x).freeReads = s.freeReads := rfl
@[simp] theorem State.setMember_slot (s : State) (i : Fin 64) (x : Option Member) (j : Fin 64) : (s.setMember i x).slot j = s.slot j := rfl
@[simp] theorem State.setMember_hold (s : State) (i : Fin 64) (x : Option Member) (j : Fin 4) : (s.setMember i x).hold j = s.hold j := rfl
@[simp] theorem State.setMember_group (s : State) (i : Fin 64) (x : Option Member) (j : Fin 16) : (s.setMember i x).group j = s.group j := rfl
@[simp] theorem State.setMember_port (s : State) (i : Fin 64) (x : Option Member) (j : Fin 4) : (s.setMember i x).port j = s.port j := rfl
@[simp] theorem State.setMember_member_same (s : State) (i : Fin 64) (x : Option Member) : (s.setMember i x).member i = x :=
  Vector.getElem_set_self i.isLt
theorem State.setMember_member (s : State) (i j : Fin 64) (x : Option Member) :
    (s.setMember i x).member j = if i = j then x else s.member j := by
  show (s.members.set i.val x i.isLt)[j.val] = if i = j then x else s.members[j.val]
  simp only [Vector.getElem_set, Fin.ext_iff]
theorem State.setMember_member_ne (s : State) (i j : Fin 64) (x : Option Member) (h : i ≠ j) :
    (s.setMember i x).member j = s.member j := by
  simp [State.setMember_member, h]

/-! ### State.setPort -/

@[simp] theorem State.setPort_pending (s : State) (i : Fin 4) (x : Port) : (s.setPort i x).pending = s.pending := rfl
@[simp] theorem State.setPort_resetAsserted (s : State) (i : Fin 4) (x : Port) : (s.setPort i x).resetAsserted = s.resetAsserted := rfl
@[simp] theorem State.setPort_time (s : State) (i : Fin 4) (x : Port) : (s.setPort i x).time = s.time := rfl
@[simp] theorem State.setPort_slots (s : State) (i : Fin 4) (x : Port) : (s.setPort i x).slots = s.slots := rfl
@[simp] theorem State.setPort_holds (s : State) (i : Fin 4) (x : Port) : (s.setPort i x).holds = s.holds := rfl
@[simp] theorem State.setPort_groups (s : State) (i : Fin 4) (x : Port) : (s.setPort i x).groups = s.groups := rfl
@[simp] theorem State.setPort_members (s : State) (i : Fin 4) (x : Port) : (s.setPort i x).members = s.members := rfl
@[simp] theorem State.setPort_tables (s : State) (i : Fin 4) (x : Port) : (s.setPort i x).tables = s.tables := rfl
@[simp] theorem State.setPort_store (s : State) (i : Fin 4) (x : Port) : (s.setPort i x).store = s.store := rfl
@[simp] theorem State.setPort_trunk (s : State) (i : Fin 4) (x : Port) : (s.setPort i x).trunk = s.trunk := rfl
@[simp] theorem State.setPort_mgmt (s : State) (i : Fin 4) (x : Port) : (s.setPort i x).mgmt = s.mgmt := rfl
@[simp] theorem State.setPort_records (s : State) (i : Fin 4) (x : Port) : (s.setPort i x).records = s.records := rfl
@[simp] theorem State.setPort_logOut (s : State) (i : Fin 4) (x : Port) : (s.setPort i x).logOut = s.logOut := rfl
@[simp] theorem State.setPort_freeReads (s : State) (i : Fin 4) (x : Port) : (s.setPort i x).freeReads = s.freeReads := rfl
@[simp] theorem State.setPort_slot (s : State) (i : Fin 4) (x : Port) (j : Fin 64) : (s.setPort i x).slot j = s.slot j := rfl
@[simp] theorem State.setPort_hold (s : State) (i : Fin 4) (x : Port) (j : Fin 4) : (s.setPort i x).hold j = s.hold j := rfl
@[simp] theorem State.setPort_group (s : State) (i : Fin 4) (x : Port) (j : Fin 16) : (s.setPort i x).group j = s.group j := rfl
@[simp] theorem State.setPort_member (s : State) (i : Fin 4) (x : Port) (j : Fin 64) : (s.setPort i x).member j = s.member j := rfl
@[simp] theorem State.setPort_port_same (s : State) (i : Fin 4) (x : Port) : (s.setPort i x).port i = x :=
  Vector.getElem_set_self i.isLt
theorem State.setPort_port (s : State) (i j : Fin 4) (x : Port) :
    (s.setPort i x).port j = if i = j then x else s.port j := by
  show (s.ports.set i.val x i.isLt)[j.val] = if i = j then x else s.ports[j.val]
  simp only [Vector.getElem_set, Fin.ext_iff]
theorem State.setPort_port_ne (s : State) (i j : Fin 4) (x : Port) (h : i ≠ j) :
    (s.setPort i x).port j = s.port j := by
  simp [State.setPort_port, h]

end Sys2Proof.Machine
end

