-- ==== Sys2Proof/Laws/Frame.lean ====
section
/-! SUPPORT. What each shared operation can change, once for each, as a list of blocks: an operation on a state that differs from
`s` in some blocks only leaves one that differs from `s` in those blocks only, when its own blocks are among them. -/

namespace Sys2Proof.Machine

variable {s t u : State} {bs : List Block}

/-! ### Frames compose -/

@[simp] theorem changesOnly_refl : s.changesOnly s bs := ⟨rfl, rfl, fun b _ => by cases b <;> rfl⟩

theorem agreesOn_trans {b : Block} (h1 : s.agreesOn t b) (h2 : t.agreesOn u b) : s.agreesOn u b := by
  cases b <;> exact Eq.trans h2 h1

theorem changesOnly_trans (h1 : s.changesOnly t bs) (h2 : t.changesOnly u bs) : s.changesOnly u bs :=
  ⟨h2.1.trans h1.1, h2.2.1.trans h1.2.1, fun b hn => agreesOn_trans (h1.2.2 b hn) (h2.2.2 b hn)⟩

theorem changesOnly_mono {cs : List Block} (h : s.changesOnly t bs) (hb : bs ⊆ cs) : s.changesOnly t cs :=
  ⟨h.1, h.2.1, fun b hn => h.2.2 b fun m => hn (hb m)⟩

/-- A fold of steps that each change only some blocks changes only those. -/
theorem changesOnly_foldl {α : Type} (f : State → α → State) (hf : ∀ t a, s.changesOnly t bs → s.changesOnly (f t a) bs)
    (l : List α) : ∀ t, s.changesOnly t bs → s.changesOnly (l.foldl f t) bs := by
  induction l with
  | nil => exact fun t h => h
  | cons a l ih => exact fun t h => ih _ (hf t a h)

@[simp] theorem changesOnly_ite {c : Prop} [Decidable c] :
    s.changesOnly (if c then t else u) bs ↔ (c → s.changesOnly t bs) ∧ (¬c → s.changesOnly u bs) := by
  split <;> simp [*]

/-! ### Setters -/

@[simp] theorem changesOnly_setTime (x : TimeBase) (hb : Block.time ∈ bs) (h : s.changesOnly t bs) :
    s.changesOnly (t.setTime x) bs :=
  changesOnly_trans h ⟨rfl, rfl, fun b hn => by cases b <;> first | rfl | exact absurd hb hn⟩
@[simp] theorem changesOnly_setTables (x : Timetable) (hb : Block.tables ∈ bs) (h : s.changesOnly t bs) :
    s.changesOnly (t.setTables x) bs :=
  changesOnly_trans h ⟨rfl, rfl, fun b hn => by cases b <;> first | rfl | exact absurd hb hn⟩
@[simp] theorem changesOnly_setStore (x : PlanStore) (hb : Block.store ∈ bs) (h : s.changesOnly t bs) :
    s.changesOnly (t.setStore x) bs :=
  changesOnly_trans h ⟨rfl, rfl, fun b hn => by cases b <;> first | rfl | exact absurd hb hn⟩
@[simp] theorem changesOnly_setTrunk (x : Trunk) (hb : Block.trunk ∈ bs) (h : s.changesOnly t bs) :
    s.changesOnly (t.setTrunk x) bs :=
  changesOnly_trans h ⟨rfl, rfl, fun b hn => by cases b <;> first | rfl | exact absurd hb hn⟩
@[simp] theorem changesOnly_setMgmt (x : Management) (hb : Block.mgmt ∈ bs) (h : s.changesOnly t bs) :
    s.changesOnly (t.setMgmt x) bs :=
  changesOnly_trans h ⟨rfl, rfl, fun b hn => by cases b <;> first | rfl | exact absurd hb hn⟩
@[simp] theorem changesOnly_setRecords (x : RecordUnit) (hb : Block.records ∈ bs) (h : s.changesOnly t bs) :
    s.changesOnly (t.setRecords x) bs :=
  changesOnly_trans h ⟨rfl, rfl, fun b hn => by cases b <;> first | rfl | exact absurd hb hn⟩
@[simp] theorem changesOnly_setLogOut (x : Option LogOut) (hb : Block.logOut ∈ bs) (h : s.changesOnly t bs) :
    s.changesOnly (t.setLogOut x) bs :=
  changesOnly_trans h ⟨rfl, rfl, fun b hn => by cases b <;> first | rfl | exact absurd hb hn⟩
@[simp] theorem changesOnly_setFreeReads (x : Nat) (hb : Block.freeReads ∈ bs) (h : s.changesOnly t bs) :
    s.changesOnly (t.setFreeReads x) bs :=
  changesOnly_trans h ⟨rfl, rfl, fun b hn => by cases b <;> first | rfl | exact absurd hb hn⟩
@[simp] theorem changesOnly_setSlot (i : Fin 64) (x : Slot) (hb : Block.slots ∈ bs) (h : s.changesOnly t bs) :
    s.changesOnly (t.setSlot i x) bs :=
  changesOnly_trans h ⟨rfl, rfl, fun b hn => by cases b <;> first | rfl | exact absurd hb hn⟩
@[simp] theorem changesOnly_setHold (i : Fin 4) (x : HoldLine) (hb : Block.holds ∈ bs) (h : s.changesOnly t bs) :
    s.changesOnly (t.setHold i x) bs :=
  changesOnly_trans h ⟨rfl, rfl, fun b hn => by cases b <;> first | rfl | exact absurd hb hn⟩
@[simp] theorem changesOnly_setGroup (i : Fin 16) (x : Group) (hb : Block.groups ∈ bs) (h : s.changesOnly t bs) :
    s.changesOnly (t.setGroup i x) bs :=
  changesOnly_trans h ⟨rfl, rfl, fun b hn => by cases b <;> first | rfl | exact absurd hb hn⟩
@[simp] theorem changesOnly_setMember (i : Fin 64) (x : Option Member) (hb : Block.members ∈ bs) (h : s.changesOnly t bs) :
    s.changesOnly (t.setMember i x) bs :=
  changesOnly_trans h ⟨rfl, rfl, fun b hn => by cases b <;> first | rfl | exact absurd hb hn⟩
@[simp] theorem changesOnly_setPort (i : Fin 4) (x : Port) (hb : Block.ports ∈ bs) (h : s.changesOnly t bs) :
    s.changesOnly (t.setPort i x) bs :=
  changesOnly_trans h ⟨rfl, rfl, fun b hn => by cases b <;> first | rfl | exact absurd hb hn⟩

@[simp] theorem changesOnly_raise (k : Notice) (hb : Block.records ∈ bs) (h : s.changesOnly t bs) : s.changesOnly (t.raise k) bs :=
  changesOnly_setRecords _ hb h

@[simp] theorem changesOnly_takeRecord (r : TransitionRecord) (hb : Block.records ∈ bs) (h : s.changesOnly t bs) :
    s.changesOnly (t.takeRecord r) bs :=
  changesOnly_setRecords _ hb h

/-! ### The group coordinator -/

@[simp] theorem changesOnly_forceImmediate (i : Fin 64) (hb : Block.slots ∈ bs) (h : s.changesOnly t bs) :
    s.changesOnly (t.forceImmediate i) bs :=
  changesOnly_setSlot i _ hb h

@[simp] theorem changesOnly_forceAll (is : List (Fin 64)) (hb : Block.slots ∈ bs) (h : s.changesOnly t bs) :
    s.changesOnly (t.forceAll is) bs :=
  changesOnly_foldl _ (fun _ i ht => changesOnly_forceImmediate i hb ht) is t h

@[simp] theorem changesOnly_settle (g : Fin 16) (c : Bool) (h1 : Block.groups ∈ bs) (h2 : Block.records ∈ bs)
    (h : s.changesOnly t bs) : s.changesOnly (t.settle g c) bs := by
  unfold State.settle
  dsimp only
  split <;> split <;> apply_rules [changesOnly_raise, changesOnly_setGroup]

@[simp] theorem changesOnly_adoptedBy (g : Fin 16) (m : Member) (n : Nat) (h1 : Block.groups ∈ bs) (h : s.changesOnly t bs) :
    s.changesOnly (t.adoptedBy g m n) bs := by
  unfold State.adoptedBy
  simp [*]

/-- What a member event can change. -/
@[simp] theorem changesOnly_takeMember (e : MemberEvent) (h1 : Block.slots ∈ bs) (h2 : Block.groups ∈ bs)
    (h3 : Block.members ∈ bs) (h4 : Block.records ∈ bs) (h : s.changesOnly t bs) : s.changesOnly (t.takeMember e) bs := by
  unfold State.takeMember
  split
  · apply_rules [changesOnly_settle, changesOnly_setMember]
  · exact h
  · dsimp only
    repeat' split
    all_goals apply_rules [changesOnly_forceImmediate, changesOnly_settle, changesOnly_setMember, changesOnly_adoptedBy]

@[simp] theorem changesOnly_takeMembers (es : List MemberEvent) (h1 : Block.slots ∈ bs) (h2 : Block.groups ∈ bs)
    (h3 : Block.members ∈ bs) (h4 : Block.records ∈ bs) (h : s.changesOnly t bs) : s.changesOnly (t.takeMembers es) bs :=
  changesOnly_foldl _ (fun _ e ht => changesOnly_takeMember e h1 h2 h3 h4 ht) es t h

@[simp] theorem changesOnly_checkLimit (g : Fin 16) (h2 : Block.groups ∈ bs) (h4 : Block.records ∈ bs)
    (h : s.changesOnly t bs) : s.changesOnly (t.checkLimit g).1 bs := by
  unfold State.checkLimit
  split <;> apply_rules [changesOnly_raise, changesOnly_setGroup]

@[simp] theorem changesOnly_groupMinute (g : Fin 16) (h2 : Block.groups ∈ bs) (h4 : Block.records ∈ bs)
    (h : s.changesOnly t bs) : s.changesOnly (t.groupMinute g).1 bs := by
  unfold State.groupMinute
  dsimp only
  refine changesOnly_checkLimit g h2 h4 ?_
  split <;> apply_rules [changesOnly_setGroup]

/-! ### The plan store's reads -/

@[simp] theorem changesOnly_readLocation (l : Location) (h1 : Block.store ∈ bs) (h2 : Block.records ∈ bs)
    (h : s.changesOnly t bs) : s.changesOnly (t.readLocation l).1 bs := by
  unfold State.readLocation
  dsimp only
  split <;> simp [*]

@[simp] theorem changesOnly_readRecord (i : Fin 64) (n : Nat) (h1 : Block.store ∈ bs) (h2 : Block.records ∈ bs)
    (h : s.changesOnly t bs) : s.changesOnly (t.readRecord i n).1 bs := by
  unfold State.readRecord
  split
  · exact h
  · rename_i l _
    split
    · exact h
    · have h' := changesOnly_readLocation l h1 h2 h
      split <;> rename_i e <;> rw [e] at h' <;> exact h'

@[simp] theorem changesOnly_scrubVisit (h1 : Block.store ∈ bs) (h2 : Block.records ∈ bs)
    (h : s.changesOnly t bs) : s.changesOnly t.scrubVisit bs := by
  unfold State.scrubVisit
  dsimp only
  split
  · refine changesOnly_setStore _ h1 ?_
    split
    · split <;> simp [*]
    · exact h
  · exact h

/-! ### The slot engine -/

theorem slots_mem (hb : Block.engine ⊆ bs) : Block.slots ∈ bs := hb (by decide)
theorem groups_mem (hb : Block.engine ⊆ bs) : Block.groups ∈ bs := hb (by decide)
theorem members_mem (hb : Block.engine ⊆ bs) : Block.members ∈ bs := hb (by decide)
theorem store_mem (hb : Block.engine ⊆ bs) : Block.store ∈ bs := hb (by decide)
theorem ports_mem (hb : Block.engine ⊆ bs) : Block.ports ∈ bs := hb (by decide)
theorem records_mem (hb : Block.engine ⊆ bs) : Block.records ∈ bs := hb (by decide)

theorem changesOnly_deliver {a : Sent} (hb : Block.engine ⊆ bs) (h : s.changesOnly a.1 bs) : s.changesOnly a.deliver bs :=
  changesOnly_takeMembers _ (slots_mem hb) (groups_mem hb) (members_mem hb) (records_mem hb) h

theorem changesOnly_andThen {a : Sent} {f : State → Sent} (h : s.changesOnly a.1 bs)
    (hf : ∀ t, s.changesOnly t bs → s.changesOnly (f t).1 bs) : s.changesOnly (a.andThen f).1 bs := hf _ h

theorem changesOnly_overSlots {f : State → Fin 64 → Sent} (is : List (Fin 64))
    (hf : ∀ t i, s.changesOnly t bs → s.changesOnly (f t i).1 bs) (h : s.changesOnly t bs) :
    s.changesOnly (overSlots is f t).1 bs := by
  have key : ∀ (l : List (Fin 64)) (a : Sent), s.changesOnly a.1 bs →
      s.changesOnly (l.foldl (fun a i => a.andThen fun s => f s i) a).1 bs := by
    intro l
    induction l with
    | nil => exact fun a ha => ha
    | cons i l ih => exact fun a ha => ih _ (hf _ _ ha)
  exact key is (t, []) h

theorem changesOnly_endTransition (i : Fin 64) (o : RecordOutcome) (hb : Block.engine ⊆ bs) (h : s.changesOnly t bs) :
    s.changesOnly (t.endTransition i o) bs := by
  unfold State.endTransition
  split
  · exact h
  · exact changesOnly_setSlot _ _ (slots_mem hb) (changesOnly_takeRecord _ (records_mem hb) h)

theorem changesOnly_enterOverridden (i : Fin 64) (hb : Block.engine ⊆ bs) (h : s.changesOnly t bs) :
    s.changesOnly (t.enterOverridden i).1 bs :=
  changesOnly_raise _ (records_mem hb) (changesOnly_setSlot _ _ (slots_mem hb) (changesOnly_setPort _ _ (ports_mem hb)
    (changesOnly_endTransition i _ hb h)))

theorem changesOnly_joinCause (i : Fin 64) (c : OverrideCause) (hb : Block.engine ⊆ bs) (h : s.changesOnly t bs) :
    s.changesOnly (t.joinCause i c).1 bs := by
  unfold State.joinCause
  dsimp only
  split
  · exact h
  · split
    · exact changesOnly_setSlot _ _ (slots_mem hb) h
    · exact changesOnly_enterOverridden i hb (changesOnly_setSlot _ _ (slots_mem hb) h)

theorem changesOnly_leaveCause (i : Fin 64) (c : OverrideCause) (hb : Block.engine ⊆ bs) (h : s.changesOnly t bs) :
    s.changesOnly (t.leaveCause i c) bs := changesOnly_setSlot _ _ (slots_mem hb) h

theorem changesOnly_activationEdge (l : Fin 4) (hb : Block.engine ⊆ bs) (hh : Block.holds ∈ bs) (h : s.changesOnly t bs) :
    s.changesOnly (t.activationEdge l).1 bs :=
  changesOnly_overSlots _ (fun _ i ht => changesOnly_joinCause i _ hb ht) (changesOnly_setHold _ _ hh h)

theorem changesOnly_releaseEdge (l : Fin 4) (hb : Block.engine ⊆ bs) (hh : Block.holds ∈ bs) (h : s.changesOnly t bs) :
    s.changesOnly (t.releaseEdge l) bs :=
  changesOnly_foldl _ (fun _ i ht => changesOnly_leaveCause i _ hb ht) _ _ (changesOnly_setHold _ _ hh h)

theorem changesOnly_sampleHolds (pins : PinSample) (hb : Block.engine ⊆ bs) (hh : Block.holds ∈ bs) (h : s.changesOnly t bs) :
    s.changesOnly (t.sampleHolds pins) bs := by
  refine changesOnly_foldl _ (fun u l hu => changesOnly_deliver hb ?_) _ _ h
  unfold State.sampleHold
  split
  · exact changesOnly_activationEdge l hb hh hu
  · exact changesOnly_setHold _ _ hh hu

theorem changesOnly_positionAttempt (i : Fin 64) (hb : Block.engine ⊆ bs) (h : s.changesOnly t bs) :
    s.changesOnly (t.positionAttempt i).1 bs := by
  unfold State.positionAttempt
  dsimp only
  split
  · have h' := changesOnly_readRecord i (t.slot i).target (store_mem hb) (records_mem hb) h
    split
    · rename_i e
      rw [e] at h'
      split
      · exact changesOnly_setSlot _ _ (slots_mem hb) h'
      · exact changesOnly_enterOverridden i hb (changesOnly_setSlot _ _ (slots_mem hb) h')
    · rename_i e
      rw [e] at h'
      exact h'
  · exact h

theorem changesOnly_targetEvent (i : Fin 64) (n : Nat) (c : Option Layer) (m : Option Mode) (hb : Block.engine ⊆ bs)
    (h : s.changesOnly t bs) : s.changesOnly (t.targetEvent i n c m).1 bs := by
  unfold State.targetEvent
  dsimp only
  split
  · exact h
  · exact changesOnly_positionAttempt i hb (changesOnly_setSlot _ _ (slots_mem hb) h)

theorem changesOnly_enterLost (i : Fin 64) (hb : Block.engine ⊆ bs) (h : s.changesOnly t bs) :
    s.changesOnly (t.enterLost i).1 bs :=
  changesOnly_raise _ (records_mem hb) (changesOnly_setSlot _ _ (slots_mem hb) (changesOnly_endTransition i _ hb h))

theorem changesOnly_miss (i : Fin 64) (k : MissKind) (hb : Block.engine ⊆ bs) (h : s.changesOnly t bs) :
    s.changesOnly (t.miss i k).1 bs := by
  unfold State.miss
  dsimp only
  have h' := fun x => changesOnly_setSlot (bs := bs) i x (slots_mem hb) h
  split
  · split
    · exact changesOnly_enterLost i hb (h' _)
    · exact h' _
  · exact h' _

theorem changesOnly_goodOutcome (i : Fin 64) (hb : Block.engine ⊆ bs) (h : s.changesOnly t bs) :
    s.changesOnly (t.goodOutcome i).1 bs := by
  unfold State.goodOutcome
  dsimp only
  have h' := fun x => changesOnly_setSlot (bs := bs) i x (slots_mem hb) h
  split
  · exact changesOnly_takeRecord _ (records_mem hb) (h' _)
  · exact changesOnly_raise _ (records_mem hb) (h' _)
  · exact h' _

theorem changesOnly_takeOverride (i : Fin 64) (o : FieldOverride) (hb : Block.engine ⊆ bs) (h : s.changesOnly t bs) :
    s.changesOnly (t.takeOverride i o).1 bs := by
  unfold State.takeOverride
  have h' := fun x => changesOnly_setSlot (bs := bs) i x (slots_mem hb) h
  dsimp only
  split
  · exact changesOnly_leaveCause i _ hb (h' _)
  · exact changesOnly_joinCause i _ hb (h' _)

/-- What an exchange's outcome can change at its slot. -/
theorem changesOnly_takeOutcome (i : Fin 64) (o : ExchangeOutcome) (r : FieldOverride) (hb : Block.engine ⊆ bs)
    (h : s.changesOnly t bs) : s.changesOnly (t.takeOutcome i o r).1 bs := by
  unfold State.takeOutcome
  dsimp only
  split
  · exact h
  · split
    · exact changesOnly_takeOverride i r hb (changesOnly_goodOutcome i hb h)
    · exact changesOnly_miss i _ hb h
    · exact changesOnly_miss i _ hb h
    · exact changesOnly_takeOverride i r hb (changesOnly_miss i _ hb h)

theorem changesOnly_reportOutcome (x : Exchange) (o : ExchangeOutcome) (r : FieldOverride) (hb : Block.engine ⊆ bs)
    (h : s.changesOnly t bs) : s.changesOnly (t.reportOutcome x o r) bs := by
  unfold State.reportOutcome
  split
  · exact h
  · exact changesOnly_deliver hb (changesOnly_takeOutcome _ _ _ hb h)

/-! ### The boundary -/

theorem changesOnly_exitStep (i : Fin 64) (hb : Block.engine ⊆ bs) (h : s.changesOnly t bs) :
    s.changesOnly (t.exitStep i) bs := by
  unfold State.exitStep
  dsimp only
  split
  · exact changesOnly_raise _ (records_mem hb) (changesOnly_setSlot _ _ (slots_mem hb) h)
  · exact h

theorem changesOnly_adoptionFailed (i : Fin 64) (k : Notice) (hb : Block.engine ⊆ bs) (h : s.changesOnly t bs) :
    s.changesOnly (t.adoptionFailed i k) bs := by
  unfold State.adoptionFailed
  split
  · exact h
  · exact changesOnly_raise _ (records_mem hb) (changesOnly_setSlot _ _ (slots_mem hb) h)

theorem changesOnly_adoptTarget (i : Fin 64) (hb : Block.engine ⊆ bs) (h : s.changesOnly t bs) :
    s.changesOnly (t.adoptTarget i).1 bs := by
  unfold State.adoptTarget
  dsimp only
  split
  · have h' := changesOnly_readRecord i (t.slot i).target (store_mem hb) (records_mem hb) h
    split <;> rename_i e <;> rw [e] at h'
    · exact changesOnly_setSlot _ _ (slots_mem hb) h'
    · exact changesOnly_adoptionFailed i _ hb h'
    · exact changesOnly_adoptionFailed i _ hb h'
  · exact h

theorem changesOnly_shadowStep (i : Fin 64) (n : Nat) (a : Option EvalCause) (hb : Block.engine ⊆ bs)
    (h : s.changesOnly t bs) : s.changesOnly (t.shadowStep i n a).1 bs := by
  unfold State.shadowStep
  dsimp only
  split
  · have h1 := changesOnly_setStore (bs := bs) (t.store.promote i n) (store_mem hb) h
    split
    · exact h1
    · have h' := changesOnly_readRecord i n (store_mem hb) (records_mem hb) h1
      split <;> rename_i e <;> rw [e] at h'
      · exact changesOnly_setSlot _ _ (slots_mem hb) h'
      · exact changesOnly_raise _ (records_mem hb) h'
      · exact changesOnly_raise _ (records_mem hb) h'
  · exact h

theorem changesOnly_adoptionStep (i : Fin 64) (hb : Block.engine ⊆ bs) (h : s.changesOnly t bs) :
    s.changesOnly (t.adoptionStep i).1 bs :=
  changesOnly_shadowStep i _ _ hb (changesOnly_adoptTarget i hb h)

theorem changesOnly_planCycle (i : Fin 64) (hb : Block.engine ⊆ bs) (h : s.changesOnly t bs) :
    s.changesOnly (t.planCycle i) bs := by
  unfold State.planCycle
  dsimp only
  split
  · exact changesOnly_setSlot _ _ (slots_mem hb) h
  · exact h

theorem changesOnly_evaluateCause (i : Fin 64) (c : EvalCause) (hb : Block.engine ⊆ bs) (h : s.changesOnly t bs) :
    s.changesOnly (t.evaluateCause i c) bs := by
  unfold State.evaluateCause
  dsimp only
  split
  · split
    · refine changesOnly_planCycle i hb ?_
      split
      · exact h
      · exact changesOnly_takeRecord _ (records_mem hb) h
    · exact changesOnly_setSlot _ _ (slots_mem hb) h
  · exact h

theorem changesOnly_evaluateCoordinated (i : Fin 64) (a : Option EvalCause) (b : Bool) (hb : Block.engine ⊆ bs)
    (h : s.changesOnly t bs) : s.changesOnly (t.evaluateCoordinated i a b) bs := by
  unfold State.evaluateCoordinated
  dsimp only
  have h' := fun x => changesOnly_setSlot (bs := bs) i x (slots_mem hb) h
  split
  · exact changesOnly_planCycle i hb (h' _)
  · exact changesOnly_evaluateCause i _ hb (h' _)

theorem changesOnly_evaluateTransition (i : Fin 64) (a : Option EvalCause) (b : Bool) (hb : Block.engine ⊆ bs)
    (h : s.changesOnly t bs) : s.changesOnly (t.evaluateTransition i a b) bs := by
  unfold State.evaluateTransition
  dsimp only
  split
  · exact changesOnly_evaluateCoordinated i _ _ hb
      (changesOnly_setSlot _ _ (slots_mem hb) (changesOnly_endTransition i _ hb h))
  · split
    · split
      · exact changesOnly_planCycle i hb (changesOnly_setSlot _ _ (slots_mem hb) (changesOnly_endTransition i _ hb h))
      · exact changesOnly_setSlot _ _ (slots_mem hb) h
    · exact h

theorem changesOnly_evaluateJoining (i : Fin 64) (a : Option EvalCause) (b : Bool) (hb : Block.engine ⊆ bs)
    (h : s.changesOnly t bs) : s.changesOnly (t.evaluateJoining i a b) bs := by
  unfold State.evaluateJoining
  dsimp only
  split
  · split
    · exact changesOnly_setSlot _ _ (slots_mem hb) h
    · exact changesOnly_planCycle i hb h
  · exact h

theorem changesOnly_evaluationStep (i : Fin 64) (a : Option EvalCause) (b : Bool) (hb : Block.engine ⊆ bs)
    (h : s.changesOnly t bs) : s.changesOnly (t.evaluationStep i a b) bs := by
  unfold State.evaluationStep
  split
  · exact changesOnly_evaluateCoordinated i a b hb h
  · exact changesOnly_evaluateTransition i a b hb h
  · exact changesOnly_evaluateJoining i a b hb h
  · exact changesOnly_planCycle i hb (changesOnly_setSlot _ _ (slots_mem hb) h)
  · exact changesOnly_planCycle i hb h
  · exact h

theorem changesOnly_handOverStep (i : Fin 64) (hb : Block.engine ⊆ bs) (h : s.changesOnly t bs) :
    s.changesOnly (t.handOverStep i).1 bs := by
  unfold State.handOverStep
  dsimp only
  have h' := fun p x => changesOnly_setPort (bs := bs) p x (ports_mem hb) h
  split
  · exact h' _ _
  · exact changesOnly_miss i _ hb (h' _ _)

theorem changesOnly_stepAndEvaluate (i : Fin 64) (a : Option EvalCause) (hb : Block.engine ⊆ bs) (h : s.changesOnly t bs) :
    s.changesOnly (t.stepAndEvaluate i a) bs :=
  changesOnly_evaluationStep i _ _ hb (changesOnly_setSlot _ _ (slots_mem hb) h)

theorem changesOnly_boundarySteps (i : Fin 64) (p : Nat) (hb : Block.engine ⊆ bs) (h : s.changesOnly t bs) :
    s.changesOnly (t.boundarySteps i p) bs :=
  changesOnly_stepAndEvaluate i _ hb
    (changesOnly_adoptionStep i hb (changesOnly_exitStep i hb (changesOnly_setSlot _ _ (slots_mem hb) h)))

theorem changesOnly_boundary (i : Fin 64) (p : Nat) (hb : Block.engine ⊆ bs) (h : s.changesOnly t bs) :
    s.changesOnly (t.boundary i p).1 bs := by
  have e : t.boundary i p = Sent.andThen
      (t.boundarySteps i p, changeEvents i (t.slot i) ((t.boundarySteps i p).slot i)) (fun s => s.handOverStep i) := rfl
  rw [e]
  have h5 := changesOnly_boundarySteps i p hb h
  generalize t.boundarySteps i p = u at h5
  exact changesOnly_andThen h5 fun _ h => changesOnly_handOverStep i hb h

/-- What an advance at one slot can change. -/
theorem changesOnly_advanceSlot (i : Fin 64) (k : Nat) (hb : Block.engine ⊆ bs) (h : s.changesOnly t bs) :
    s.changesOnly (t.advanceSlot i k).1 bs := by
  unfold State.advanceSlot
  split
  · exact h
  · split
    · exact changesOnly_setSlot _ _ (slots_mem hb) h
    · exact changesOnly_boundary i _ hb h

/-! ### Evaluations of groups -/

theorem changesOnly_takeSelection (g : Fin 16) (r : Selection) (hb : Block.engine ⊆ bs) (h : s.changesOnly t bs) :
    s.changesOnly (t.takeSelection g r) bs := by
  unfold State.takeSelection
  exact changesOnly_takeMembers _ (slots_mem hb) (groups_mem hb) (members_mem hb) (records_mem hb)
    (changesOnly_settle g _ (groups_mem hb) (records_mem hb)
      (changesOnly_overSlots _ (fun _ i ht => changesOnly_targetEvent i _ _ _ hb ht) (changesOnly_setGroup _ _ (groups_mem hb) h)))

theorem changesOnly_evaluateGroups (gs : List (Fin 16)) (d m : Nat) (hb : Block.engine ⊆ bs) (h : s.changesOnly t bs) :
    s.changesOnly (t.evaluateGroups gs d m) bs :=
  changesOnly_foldl _ (fun _ g ht => changesOnly_takeSelection g _ hb ht) gs t h

/-- What an evaluation of groups can change. -/
theorem changesOnly_evaluateNow (gs : List (Fin 16)) (hb : Block.engine ⊆ bs) (h : s.changesOnly t bs) :
    s.changesOnly (t.evaluateNow gs) bs := by
  unfold State.evaluateNow
  split
  · exact changesOnly_evaluateGroups gs _ _ hb h
  · exact h

theorem changesOnly_timetableMinute (d m : Nat) (hb : Block.engine ⊆ bs) (ht : Block.tables ∈ bs) (h : s.changesOnly t bs) :
    s.changesOnly (t.timetableMinute d m) bs := by
  unfold State.timetableMinute
  split
  · exact changesOnly_evaluateGroups _ _ _ hb (changesOnly_setTables _ ht h)
  · exact h

theorem changesOnly_timetableStep (hb : Block.engine ⊆ bs) (ht : Block.tables ∈ bs) (h : s.changesOnly t bs) :
    s.changesOnly t.timetableStep bs := by
  unfold State.timetableStep
  split
  · exact changesOnly_evaluateNow _ hb (changesOnly_setTables _ ht h)
  · exact h

theorem changesOnly_setStepFlags (is : List (Fin 64)) (hb : Block.slots ∈ bs) (h : s.changesOnly t bs) :
    s.changesOnly (t.setStepFlags is) bs :=
  changesOnly_foldl _ (fun _ _ ht => changesOnly_setSlot _ _ hb ht) is t h

theorem changesOnly_stepEvent (hb : Block.engine ⊆ bs) (ht : Block.tables ∈ bs) (h : s.changesOnly t bs) :
    s.changesOnly t.stepEvent bs :=
  changesOnly_timetableStep hb ht (changesOnly_setStepFlags _ (slots_mem hb) h)

theorem changesOnly_arrive (w : OnWay) (hb : Block.engine ⊆ bs) (h : s.changesOnly t bs) : s.changesOnly (t.arrive w) bs :=
  changesOnly_forceAll _ (slots_mem hb)
    (changesOnly_takeMembers _ (slots_mem hb) (groups_mem hb) (members_mem hb) (records_mem hb) h)

/-- What one event of a tick can change: neither the time base nor the trunk side of the part. -/
theorem changesOnly_tickEvent (k : Nat) (w : Bool) (run : List (Fin 64)) (e : TickEvent) (hb : Block.engine ⊆ bs)
    (ht : Block.tables ∈ bs) (h : s.changesOnly t bs) : s.changesOnly (t.tickEvent k w run e).1 bs := by
  unfold State.tickEvent
  split
  · exact changesOnly_advanceSlot _ _ hb h
  · exact changesOnly_scrubVisit (store_mem hb) (records_mem hb) h
  · exact changesOnly_setStepFlags _ (slots_mem hb) h
  · exact changesOnly_groupMinute _ (groups_mem hb) (records_mem hb) h
  · dsimp only
    split
    · exact changesOnly_timetableStep hb ht h
    · exact changesOnly_timetableMinute _ _ hb ht h
  · exact changesOnly_setPort _ _ (ports_mem hb) h
  · exact h
  · exact h

theorem changesOnly_takeEvents (k : Nat) (w : Bool) (run : List (Fin 64)) (hb : Block.engine ⊆ bs) (ht : Block.tables ∈ bs) :
    ∀ (es : List TickEvent) (v : OnWay) (t : State), s.changesOnly t bs → s.changesOnly (t.takeEvents k w run es v) bs
  | [], _, _, h => h
  | e :: es, _, _, h =>
    changesOnly_takeEvents k w run hb ht es _ _ (changesOnly_arrive _ hb (changesOnly_tickEvent k w run e hb ht h))

/-- What a tick can change. -/
theorem changesOnly_tick (s : State) (order : List TickEvent) :
    s.changesOnly (s.tick order) (.time :: .tables :: Block.engine) := by
  unfold State.tick
  dsimp only
  have hb : Block.engine ⊆ (.time :: .tables :: Block.engine) := by simp
  refine changesOnly_takeEvents _ _ _ hb (by simp) _ _ _ ?_
  have h1 : s.changesOnly ((s.setTime s.time.tick).enterHoldover) (.time :: .tables :: Block.engine) := by
    unfold State.enterHoldover
    have h0 := fun x => changesOnly_setTime (s := s) (t := s) (bs := .time :: .tables :: Block.engine) x (by simp) changesOnly_refl
    split
    · exact changesOnly_raise _ (records_mem hb) (changesOnly_setTime _ (by simp) (h0 _))
    · exact h0 _
  split
  · exact changesOnly_raise _ (records_mem hb) h1
  · exact h1

end Sys2Proof.Machine
end

