-- ==== Sys2Proof/Laws/Overrides.lean ====
section
/-! SUPPORT. What a joining cause and an entry to OVERRIDDEN can do, said once for each (R136, R141 to R143). -/

namespace Sys2Proof.Machine

/-- R136, R141, R143: all that a joining cause can do: nothing, the set and the latch alone, or the set and then the entry. -/
theorem joinCause_cases (s : State) (i : Fin 64) (c : OverrideCause) :
    let x := s.slot i
    let y : Slot := { x with causes := causeJoin x.causes c, latch := x.latch || (x.state == .overridden && x.mode == .latched) }
    ((x.state = .unused ∨ causeIn x.causes c = true) ∧ s.joinCause i c = (s, [])) ∨
    (x.state ≠ .unused ∧ causeIn x.causes c = false ∧ (x.state = .overridden ∨ (x.state = .joining ∧ x.running = false)) ∧
      s.joinCause i c = (s.setSlot i y, [])) ∨
    (x.state ≠ .unused ∧ causeIn x.causes c = false ∧ x.state ≠ .overridden ∧ (x.state = .joining → x.running = true) ∧
      s.joinCause i c = (s.setSlot i y).enterOverridden i) := by
  by_cases h : (s.slot i).state = .unused ∨ causeIn (s.slot i).causes c = true
  · exact .inl ⟨h, if_pos h⟩
  · obtain ⟨h1, h2⟩ := not_or.mp h
    have h2 : causeIn (s.slot i).causes c = false := by simpa using h2
    by_cases k : (s.slot i).state = .overridden ∨ ((s.slot i).state = .joining ∧ !(s.slot i).running)
    · exact .inr (.inl ⟨h1, h2, by simpa using k, by unfold State.joinCause; simp only [if_neg h, if_pos k]⟩)
    · refine .inr (.inr ⟨h1, h2, fun ho => k (.inl ho), fun hj => ?_, by unfold State.joinCause; simp only [if_neg h, if_neg k]⟩)
      cases hr : (s.slot i).running with
      | true => rfl
      | false => exact absurd (.inr ⟨hj, by simp [hr]⟩) k

/-- R141: the slot that an entry to OVERRIDDEN leaves, and the member event it sends. -/
theorem enterOverridden_slot (s : State) (i : Fin 64) :
    (s.enterOverridden i).1.slot i = { s.slot i with
      trans := none, pendingEval := none, state := .overridden, latch := (s.slot i).latch || (s.slot i).mode == .latched } ∧
    (s.enterOverridden i).2 = [memberEvent i .overridden (s.slot i).current] := by
  unfold State.enterOverridden State.endTransition
  cases h : (s.slot i).trans <;> simp [h, State.raise, State.takeRecord]

/-- R142: every other slot stands at an entry. -/
theorem enterOverridden_slot_ne (s : State) {i j : Fin 64} (hj : i ≠ j) : (s.enterOverridden i).1.slot j = s.slot j := by
  unfold State.enterOverridden State.endTransition
  cases h : (s.slot i).trans <;> simp [State.raise, State.takeRecord, State.setSlot_slot_ne, hj]

end Sys2Proof.Machine
end

