-- ==== Sys2Proof/Laws/PerInstr.lean ====
section
/-! SUPPORT. Per-command lemmas: a well-formed request command fits one trunk frame. -/

namespace Sys2Proof.Laws.Carried

open Sys2Proof.Machine

/-- Tables 9-1 and 12-2: the tag, the code and the parameters of a well-formed request command fit one frame body. -/
def Statement (i : Instr) : Prop :=
  i.wellFormed = true → ∀ r, encodeRequest i = some r → bodyFits (halfBytes r.src.tag ++ [r.code] ++ r.params) = true

theorem of_none {i : Instr} (h : encodeRequest i = none) : Statement i := fun _ r hr => by simp [h] at hr

theorem of_short {i : Instr} {r : Request} (h : encodeRequest i = some r) (n : r.params.length ≤ 237) : Statement i :=
  fun _ q hq => by
    obtain rfl : r = q := by simpa [h] using hq
    simp [bodyFits, halfBytes, Config.bodyCap]
    omega

theorem phaseBytes_length (l : List PhaseEntry) : (phaseBytes l).length = 5 * l.length := by
  induction l with
  | nil => rfl
  | cons _ _ ih => simp [phaseBytes, halfBytes, ih]; omega

theorem tick (order : List TickEvent) :
    Statement (.tick order) := of_none rfl

theorem holdoverEntry : Statement .holdoverEntry := of_none rfl

theorem transitionLimitReached (group : Fin 16) :
    Statement (.transitionLimitReached group) := of_none rfl

theorem eventEntryEnd (id : Fin 64) :
    Statement (.eventEntryEnd id) := of_none rfl

theorem cueExpiry (group : Fin 16) :
    Statement (.cueExpiry group) := of_none rfl

theorem directExpiry (group : Fin 16) :
    Statement (.directExpiry group) := of_none rfl

theorem timeMark (station hops : Byte) (body : List Byte) :
    Statement (.timeMark station hops body) := of_none rfl

theorem cue (station hops : Byte) (body : List Byte) :
    Statement (.cue station hops body) := of_none rfl

theorem cueCancel (station hops : Byte) (body : List Byte) :
    Statement (.cueCancel station hops body) := of_none rfl

theorem request (station hops : Byte) (body : List Byte) :
    Statement (.request station hops body) := of_none rfl

theorem trunkFrame (port : TrunkPort) (line : List Byte) :
    Statement (.trunkFrame port line) := of_none rfl

theorem trunkTransmitEnd (port : TrunkPort) :
    Statement (.trunkTransmitEnd port) := of_none rfl

theorem heldReplyPlaced : Statement .heldReplyPlaced := of_none rfl

theorem restartEffect (pins : PinSample) :
    Statement (.restartEffect pins) := of_none rfl

theorem unknownRequestCode (src : Source) (code : Byte) (params : List Byte) :
    Statement (.unknownRequestCode src code params) := by
  intro w
  have w' : params.length + 3 ≤ Config.bodyCap := of_decide_eq_true (Bool.and_eq_true_iff.mp w).1
  refine of_short rfl ?_ w
  simp [Config.bodyCap] at w'
  simpa using w'

theorem readTime (src : Source) :
    Statement (.readTime src) := of_short rfl (Nat.le_of_ble_eq_true rfl)

theorem setDay (src : Source) (day : Half) :
    Statement (.setDay src day) := of_short rfl (Nat.le_of_ble_eq_true rfl)

theorem defineSlot (src : Source) (slot : Byte) (intersection : Half) (port drop group divider mode : Byte) :
    Statement (.defineSlot src slot intersection port drop group divider mode) := of_short rfl (Nat.le_of_ble_eq_true rfl)

theorem releaseSlot (src : Source) (slot : Byte) :
    Statement (.releaseSlot src slot) := of_short rfl (Nat.le_of_ble_eq_true rfl)

theorem readSlot (src : Source) (slot : Byte) :
    Statement (.readSlot src slot) := of_short rfl (Nat.le_of_ble_eq_true rfl)

theorem loadPlan (src : Source) (slot plan : Byte) (cycle offset : Half) (shortPct longPct coord : Byte) (phases : List PhaseEntry) :
    Statement (.loadPlan src slot plan cycle offset shortPct longPct coord phases) := by
  intro w
  have w' : 10 + 5 * phases.length + 3 ≤ Config.bodyCap := of_decide_eq_true w
  refine of_short rfl ?_ w
  simp [halfBytes, phaseBytes_length, Config.bodyCap] at w' ⊢
  omega

theorem dropPlan (src : Source) (slot plan part : Byte) :
    Statement (.dropPlan src slot plan part) := of_short rfl (Nat.le_of_ble_eq_true rfl)

theorem readPlan (src : Source) (slot plan part : Byte) :
    Statement (.readPlan src slot plan part) := of_short rfl (Nat.le_of_ble_eq_true rfl)

theorem setGroup (src : Source) (group defaultPlan policy mode tol limit : Byte) :
    Statement (.setGroup src group defaultPlan policy mode tol limit) := of_short rfl (Nat.le_of_ble_eq_true rfl)

theorem readGroup (src : Source) (group cursor : Byte) :
    Statement (.readGroup src group cursor) := of_short rfl (Nat.le_of_ble_eq_true rfl)

theorem setCalendar (src : Source) (day : Half) (action dayType : Byte) :
    Statement (.setCalendar src day action dayType) := of_short rfl (Nat.le_of_ble_eq_true rfl)

theorem addBase (src : Source) (group mask : Byte) (start : Half) (plan mode : Byte) :
    Statement (.addBase src group mask start plan mode) := of_short rfl (Nat.le_of_ble_eq_true rfl)

theorem addEvent (src : Source) (group : Byte) (startDay startMinute endDay endMinute : Half) (plan priority mode : Byte) :
    Statement (.addEvent src group startDay startMinute endDay endMinute plan priority mode) := of_short rfl (Nat.le_of_ble_eq_true rfl)

theorem cutEntry (src : Source) (kind : Byte) (id : Half) :
    Statement (.cutEntry src kind id) := of_short rfl (Nat.le_of_ble_eq_true rfl)

theorem readTimetable (src : Source) (collection : Byte) (cursor : Half) :
    Statement (.readTimetable src collection cursor) := of_short rfl (Nat.le_of_ble_eq_true rfl)

theorem setCue (src : Source) (cue group plan : Byte) (duration : Half) (priority : Byte) :
    Statement (.setCue src cue group plan duration priority) := of_short rfl (Nat.le_of_ble_eq_true rfl)

theorem cutCue (src : Source) (cue group : Byte) :
    Statement (.cutCue src cue group) := of_short rfl (Nat.le_of_ble_eq_true rfl)

theorem directPlan (src : Source) (group plan : Byte) (duration : Half) :
    Statement (.directPlan src group plan duration) := of_short rfl (Nat.le_of_ble_eq_true rfl)

theorem endDirect (src : Source) (group : Byte) :
    Statement (.endDirect src group) := of_short rfl (Nat.le_of_ble_eq_true rfl)

theorem setPort (src : Source) (port : Byte) (window : Half) (clear : Byte) :
    Statement (.setPort src port window clear) := of_short rfl (Nat.le_of_ble_eq_true rfl)

theorem readPort (src : Source) (port : Byte) :
    Statement (.readPort src port) := of_short rfl (Nat.le_of_ble_eq_true rfl)

theorem setHoldMap (src : Source) (line : Byte) (map : SlotSet) :
    Statement (.setHoldMap src line map) := of_short rfl (Nat.le_of_ble_eq_true rfl)

theorem clearOverride (src : Source) (slot : Byte) :
    Statement (.clearOverride src slot) := of_short rfl (Nat.le_of_ble_eq_true rfl)

theorem readStation (src : Source) (clear : Byte) :
    Statement (.readStation src clear) := of_short rfl (Nat.le_of_ble_eq_true rfl)

theorem restartWarm (src : Source) (pins : PinSample) :
    Statement (.restartWarm src pins) := of_short rfl (Nat.le_of_ble_eq_true rfl)

theorem restartCold (src : Source) :
    Statement (.restartCold src) := of_short rfl (Nat.le_of_ble_eq_true rfl)

theorem setRecording (src : Source) (filter : SlotSet) (reload choice : Byte) :
    Statement (.setRecording src filter reload choice) := of_short rfl (Nat.le_of_ble_eq_true rfl)

theorem readRecords (src : Source) (maximum : Byte) :
    Statement (.readRecords src maximum) := of_short rfl (Nat.le_of_ble_eq_true rfl)

theorem readNotices (src : Source) :
    Statement (.readNotices src) := of_short rfl (Nat.le_of_ble_eq_true rfl)

theorem setNoticeMask (src : Source) (mask : Half) :
    Statement (.setNoticeMask src mask) := of_short rfl (Nat.le_of_ble_eq_true rfl)

theorem checksumPlans (src : Source) (first last sum : Half) :
    Statement (.checksumPlans src first last sum) := of_short rfl (Nat.le_of_ble_eq_true rfl)

theorem testLocation (src : Source) (location : Half) :
    Statement (.testLocation src location) := of_short rfl (Nat.le_of_ble_eq_true rfl)

theorem forceCheck (src : Source) (location : Half) (word bit1 bit2 : Byte) :
    Statement (.forceCheck src location word bit1 bit2) := of_short rfl (Nat.le_of_ble_eq_true rfl)

theorem scrubControl (src : Source) (state : Byte) :
    Statement (.scrubControl src state) := of_short rfl (Nat.le_of_ble_eq_true rfl)

theorem readLogout (src : Source) :
    Statement (.readLogout src) := of_short rfl (Nat.le_of_ble_eq_true rfl)

theorem exchangeStart (port : Fin 4) :
    Statement (.exchangeStart port) := of_none rfl

theorem fieldTransmitEnd (port : Fin 4) (line : LineCondition) :
    Statement (.fieldTransmitEnd port line) := of_none rfl

theorem status (port : Fin 4) (drop : Byte) (intersection : Half) (plan count override : Byte) (elapsed : Nat) (line : LineCondition) :
    Statement (.status port drop intersection plan count override elapsed line) := of_none rfl

theorem badFrame (port : Fin 4) (bytes : List Byte) (elapsed : Nat) (line : LineCondition) :
    Statement (.badFrame port bytes elapsed line) := of_none rfl

theorem responseWindowExpiry (port : Fin 4) (line : LineCondition) :
    Statement (.responseWindowExpiry port line) := of_none rfl

theorem lineBlocked (port : Fin 4) :
    Statement (.lineBlocked port) := of_none rfl

theorem lineFreed (port : Fin 4) :
    Statement (.lineFreed port) := of_none rfl

theorem holdActivationEdge (line : Fin 4) :
    Statement (.holdActivationEdge line) := of_none rfl

theorem holdReleaseEdge (line : Fin 4) :
    Statement (.holdReleaseEdge line) := of_none rfl

theorem countDownZero : Statement .countDownZero := of_none rfl

theorem resetAssert : Statement .resetAssert := of_none rfl

theorem resetRelease (straps : Byte) (pins : PinSample) :
    Statement (.resetRelease straps pins) := of_none rfl

end Sys2Proof.Laws.Carried
end

