-- ==== Sys2Proof/Laws/Ports.lean ====
section
/-! SUPPORT. What the operations of a field port can do, said once for each. -/

namespace Sys2Proof.Machine

variable {q : Port} {line : LineCondition} {i : Fin 64} {frame : Option FieldFrame}

/-- A port that is IDLE on an idle line with a frame queued sends it, and any other port is left (R121). -/
theorem startIfReady_cases (q : Port) :
    (∃ e rest, q.state = .idle ∧ q.line = .idle ∧ q.queue = e :: rest ∧
      q.startIfReady = { q with state := .awaiting, queue := rest, exchange := some (e.exchange q.window),
                                sent := satAdd q.sent 1, wire := e.frame.lineBytes }) ∨
    (¬ (q.state = .idle ∧ q.line = .idle ∧ q.queue ≠ []) ∧ q.startIfReady = q) := by
  unfold Port.startIfReady
  split
  · rename_i e rest h1 h2 h3
    exact .inl ⟨e, rest, h1, h2, h3, rfl⟩
  · rename_i h
    refine .inr ⟨fun ⟨h1, h2, h3⟩ => ?_, rfl⟩
    obtain ⟨e, rest, he⟩ := List.exists_cons_of_ne_nil h3
    exact h e rest h1 h2 he

@[simp] theorem startIfReady_window : q.startIfReady.window = q.window := by
  unfold Port.startIfReady; split <;> rfl
@[simp] theorem startIfReady_line : q.startIfReady.line = q.line := by
  unfold Port.startIfReady; split <;> rfl
@[simp] theorem startIfReady_bad : q.startIfReady.bad = q.bad := by
  unfold Port.startIfReady; split <;> rfl
@[simp] theorem startIfReady_outside : q.startIfReady.outside = q.outside := by
  unfold Port.startIfReady; split <;> rfl
@[simp] theorem startIfReady_otherDrops : q.startIfReady.otherDrops = q.otherDrops := by
  unfold Port.startIfReady; split <;> rfl
@[simp] theorem startIfReady_blockedEntries : q.startIfReady.blockedEntries = q.blockedEntries := by
  unfold Port.startIfReady; split <;> rfl
theorem startIfReady_of_active (h : q.line = .active) : q.startIfReady = q := by
  unfold Port.startIfReady; split
  · simp_all
  · rfl
theorem startIfReady_of_empty (h : q.queue = []) : q.startIfReady = q := by
  unfold Port.startIfReady; split
  · simp_all
  · rfl

/-- A sending port sees nothing of its line; any other one takes the condition, and may send where it is idle (R123). -/
theorem lineSeen_cases (q : Port) (line : LineCondition) :
    (q.sending = true ∧ q.lineSeen line = q) ∨
    (q.sending = false ∧ line = .active ∧ q.lineSeen line = { q with line := .active, idleTimer := 0 }) ∨
    (q.sending = false ∧ line = .idle ∧
      q.lineSeen line = ({ q with line := .idle, blockedTimer := 0 } : Port).startIfReady) := by
  unfold Port.lineSeen
  cases h : q.sending <;> cases line <;> simp

/-- What a slot's previous frame makes of the frame handed over (R119). -/
theorem handOver_cases (q : Port) (i : Fin 64) (frame : Option FieldFrame) :
    (q.finding i = .gone ∧ q.handOver i frame =
      ((frame.elim q fun f => ({ q with queue := q.queue ++ [⟨i, f⟩] } : Port).startIfReady), .gone)) ∨
    (q.finding i = .queued ∧ q.handOver i frame =
      ((frame.elim (q.removeEntry i) fun f => { q with queue := q.queue.map fun e => if e.slot == i then ⟨i, f⟩ else e }),
        .queued)) ∨
    (q.finding i = .inFlight ∧ q.handOver i frame = (q, .inFlight)) := by
  unfold Port.handOver
  cases h : q.finding i <;> cases frame <;> simp

/-! ### Receptions (R123, R185) -/

/-- Line bytes without a break are one reception. -/
theorem splitAtBreaks_of_no_break : ∀ bytes : List Byte, ¬[escapeByte, delimiter] <:+: bytes → splitAtBreaks bytes = (bytes, [])
  | [], _ => rfl
  | [_], _ => rfl
  | b :: c :: bs, h => by
    have tail : ¬[escapeByte, delimiter] <:+: c :: bs := fun hi => h (hi.trans (List.infix_cons (List.infix_refl _)))
    unfold splitAtBreaks
    split
    · rename_i hb
      have hc : c ≠ delimiter := fun hc => h ⟨[], bs, by simp [hb, hc]⟩
      simp [hc, splitAtBreaks_of_no_break bs fun hi => tail (hi.trans (List.infix_cons (List.infix_refl _)))]
    · simp [splitAtBreaks_of_no_break (c :: bs) tail]

/-- Escaped bytes stay together in front of what follows them. -/
theorem splitAtBreaks_escape (a b : List Byte) :
    splitAtBreaks (escape a ++ b) = (escape a ++ (splitAtBreaks b).1, (splitAtBreaks b).2) := by
  induction a with
  | nil => rfl
  | cons x xs ih =>
    by_cases hx : x = delimiter ∨ x = escapeByte
    · have hd : x ^^^ 0x20#8 ≠ delimiter := by rcases hx with rfl | rfl <;> decide
      simp [escape, hx, splitAtBreaks, hd, ih]
    · obtain ⟨h1, h2⟩ := not_or.mp hx
      have he : escape (x :: xs) = x :: escape xs := if_neg hx
      rw [he, List.cons_append, List.cons_append]
      revert ih
      generalize escape xs ++ b = ys
      intro ih
      cases ys with
      | nil =>
        obtain ⟨h3, h4⟩ := Prod.mk.inj ih
        simp [splitAtBreaks, ← h3, ← h4]
      | cons y ys =>
        rw [show splitAtBreaks (x :: y :: ys) = (x :: (splitAtBreaks (y :: ys)).1, (splitAtBreaks (y :: ys)).2) from if_neg h2, ih]

/-- A break behind escaped bytes ends their reception and begins the next. -/
theorem fieldRuns_break (a b : List Byte) : fieldRuns (escape a ++ [escapeByte, delimiter] ++ b) = escape a :: fieldRuns b := by
  simp [fieldRuns, List.append_assoc, splitAtBreaks_escape, splitAtBreaks]

end Sys2Proof.Machine
end

