-- ==== Sys2Proof/Laws/Requests.lean ====
section
/-! SUPPORT. What carrying a request out does besides what its owner does, said once. -/

namespace Sys2Proof.Machine

variable {s : State} {i : Instr} {r : Request}

/-- A reply placed at once: the reply at the tail of A-out, the engine IDLE, and its next request taken. -/
theorem placeReply_room (hb : r.src.broadcast = false) (hq : s.trunk.aOut.frames.length < 8) (f : TrunkFrame) :
    s.placeReply r f =
      (s.setTrunk { s.trunk with aOut := { s.trunk.aOut with frames := s.trunk.aOut.frames ++ [f] } }).setMgmt
        ({ s.mgmt with engine := .idle } : Management).takeNext := by
  have h : s.trunk.aOut.hasRoom = true := decide_eq_true hq
  simp [State.placeReply, hb, h, State.engineDone, OutQueue.place]

/-- The reply that is built in a state is the reply with that state's pending set. -/
theorem buildReply_eq (s : State) (r : Request) (o : RequestOutcome) (fs : List Byte) :
    s.buildReply r o fs = s.replyTo r o s.records.notices fs := by
  simp [State.buildReply, State.replyTo, replyBody, num1]

/-- A request carried out now and answered at once: whatever its owner does, it is answered with the owner's outcome and
fields, and nothing but the trunk interface and the engine differs from the state that the owner left. -/
theorem carryOut_ready (h : s.readyFor i r) (owner : State → Answer) (ht : (owner s).state.trunk = s.trunk)
    (hm : (owner s).state.mgmt = s.mgmt) :
    s.answered (carryOut i owner s) r (owner s).outcome (owner s).fields ∧
      (owner s).state.changesOnly (carryOut i owner s) [.trunk, .mgmt] := by
  obtain ⟨he, hc, hb, hq⟩ := h
  have hd : discarded r = false := by simp [discarded, hb]
  have hq' : (owner s).state.trunk.aOut.frames.length < 8 := by rw [ht]; exact hq
  have e : carryOut i owner s =
      (owner s).state.placeReply r ((owner s).state.buildReply r (owner s).outcome (owner s).fields) := by
    simp [carryOut, he, hc, hd]
  rw [e, placeReply_room hb hq', buildReply_eq]
  refine ⟨⟨?_, ?_⟩, ?_⟩
  · simp [ht, hb, State.replyTo]
  · simp [hm]
  · exact changesOnly_setMgmt _ (by simp) (changesOnly_setTrunk _ (by simp) changesOnly_refl)

/-- A request carried out now while A-out is full (R158, section 9.6): its owner has done what it does, and the reply is held. -/
theorem carryOut_full (he : encodeRequest i = some r) (hc : s.carries r = true) (hb : r.src.broadcast = false)
    (hq : 8 ≤ s.trunk.aOut.frames.length) (owner : State → Answer) (ht : (owner s).state.trunk.aOut = s.trunk.aOut) :
    carryOut i owner s = (owner s).state.setMgmt { (owner s).state.mgmt with
      engine := .replyWait r ((owner s).state.replyTo r (owner s).outcome (owner s).state.records.notices (owner s).fields) } := by
  have hd : discarded r = false := by simp [discarded, hb]
  have hr : (owner s).state.trunk.aOut.hasRoom = false := by rw [ht]; exact decide_eq_false (Nat.not_lt.mpr hq)
  simp [carryOut, he, hc, hd, State.placeReply, hb, hr, buildReply_eq]

/-- A refused request is answered with its outcome, and nothing else changes. -/
theorem carryOut_refuse (h : s.readyFor i r) (owner : State → Answer) (o : RequestOutcome) (ho : owner s = refuse o s) :
    s.refusedWith (carryOut i owner s) r o := by
  have e := carryOut_ready h owner (by rw [ho]; rfl) (by rw [ho]; rfl)
  rw [ho] at e
  exact e

/-- A request that the engine does not carry out now changes nothing (log entry 1). -/
theorem carryOut_waits (owner : State → Answer) (h : ∀ r, encodeRequest i = some r → s.carries r = false) :
    carryOut i owner s = s := by
  unfold carryOut
  split
  · rfl
  · rename_i r he
    simp [h r he]

/-- While RESET is asserted the engine carries out no request (R163). -/
theorem carries_reset (h : s.resetAsserted = true) (r : Request) : s.carries r = false := by simp [State.carries, h]

end Sys2Proof.Machine
end

