-- ==== Sys2Proof/Laws/Store.lean ====
section
/-! SUPPORT. The plan store: the form of its list is kept by every operation, and what its reads and writes give. -/

namespace Sys2Proof.Machine

variable {st : PlanStore} {l m : Location} {ms : List Location} {n : Nat} {i : Fin 64} {plan : Nat}

/-! ### The form of the list -/

theorem PlanStore.wf_iff : st.wf = true ↔
    (st.held.Pairwise fun a b => a.num < b.num) ∧ ∀ l ∈ st.held, l.num < 1024 ∧ l.words.length = 32 := by
  simp only [PlanStore.wf, Bool.and_eq_true, decide_eq_true_eq, List.all_eq_true, beq_iff_eq]
  exact Iff.rfl

theorem PlanStore.wf_of_filter (h : st.wf = true) (p : Location → Bool) :
    ({ st with held := st.held.filter p } : PlanStore).wf = true := by
  rw [PlanStore.wf_iff] at h ⊢
  exact ⟨h.1.filter p, fun l hl => h.2 l (List.mem_filter.mp hl).1⟩

theorem PlanStore.free_wf (h : st.wf = true) (n : Nat) : (st.free n).wf = true := PlanStore.wf_of_filter h _

theorem PlanStore.freeSlot_wf (h : st.wf = true) (i : Fin 64) : (st.freeSlot i).wf = true := PlanStore.wf_of_filter h _

theorem PlanStore.cold_wf (stuck : List StuckBit) : (PlanStore.cold stuck).wf = true := rfl

theorem PlanStore.reset_wf : State.reset.store.wf = true := rfl

/-! ### Placing a location -/

theorem mem_insertLocation_self : l ∈ insertLocation l ms := by
  induction ms with
  | nil => exact List.mem_singleton.mpr rfl
  | cons m ms ih =>
    unfold insertLocation
    split
    · exact List.mem_cons_self
    · split
      · exact List.mem_cons_self
      · exact List.mem_cons_of_mem _ ih

theorem of_mem_insertLocation (h : m ∈ insertLocation l ms) : m = l ∨ m ∈ ms := by
  induction ms with
  | nil => simpa [insertLocation] using h
  | cons k ms ih =>
    unfold insertLocation at h
    split at h
    · simpa using h
    · split at h
      · rcases List.mem_cons.mp h with h | h
        · exact .inl h
        · exact .inr (List.mem_cons_of_mem _ h)
      · rcases List.mem_cons.mp h with h | h
        · exact .inr (h ▸ List.mem_cons_self)
        · exact (ih h).imp id (List.mem_cons_of_mem _)

theorem insertLocation_pairwise (h : ms.Pairwise fun a b => a.num < b.num) :
    (insertLocation l ms).Pairwise fun a b => a.num < b.num := by
  induction ms with
  | nil => exact List.pairwise_singleton _ _
  | cons k ms ih =>
    obtain ⟨hk, hms⟩ := List.pairwise_cons.mp h
    unfold insertLocation
    split
    next lt =>
      refine List.pairwise_cons.mpr ⟨fun b hb => ?_, h⟩
      rcases List.mem_cons.mp hb with rfl | hb
      · exact lt
      · exact lt.trans (hk b hb)
    next ge =>
      split
      next eq => exact List.pairwise_cons.mpr ⟨fun b hb => eq ▸ hk b hb, hms⟩
      next ne =>
        refine List.pairwise_cons.mpr ⟨fun b hb => ?_, ih hms⟩
        rcases of_mem_insertLocation hb with rfl | hb
        · omega
        · exact hk b hb

/-- Two entries of one number are one entry. -/
theorem eq_of_num_of_pairwise (h : ms.Pairwise fun a b => a.num < b.num) (hl : l ∈ ms) (hm : m ∈ ms) (e : l.num = m.num) :
    l = m := by
  induction ms with
  | nil => cases hl
  | cons k ms ih =>
    obtain ⟨hk, hms⟩ := List.pairwise_cons.mp h
    rcases List.mem_cons.mp hl with hl | hl <;> rcases List.mem_cons.mp hm with hm | hm
    · exact hl.trans hm.symm
    · have := hk m hm; subst hl; omega
    · have := hk l hl; subst hm; omega
    · exact ih hms hl hm

/-- A location placed stands in the list, and every location of another number stands as before. -/
theorem mem_insertLocation (h : ms.Pairwise fun a b => a.num < b.num) :
    m ∈ insertLocation l ms ↔ m = l ∨ (m.num ≠ l.num ∧ m ∈ ms) := by
  constructor
  · intro hm
    by_cases e : m.num = l.num
    · exact .inl (eq_of_num_of_pairwise (insertLocation_pairwise h) hm mem_insertLocation_self e)
    · exact (of_mem_insertLocation hm).imp id fun h => ⟨e, h⟩
  · rintro (rfl | ⟨ne, hm⟩)
    · exact mem_insertLocation_self
    · clear h
      induction ms with
      | nil => cases hm
      | cons k ms ih =>
        unfold insertLocation
        split
        · exact List.mem_cons_of_mem _ hm
        · split
          next eq =>
            rcases List.mem_cons.mp hm with rfl | hm
            · exact absurd eq.symm ne
            · exact List.mem_cons_of_mem _ hm
          · rcases List.mem_cons.mp hm with rfl | hm
            · exact List.mem_cons_self
            · exact List.mem_cons_of_mem _ (ih hm)

theorem PlanStore.put_wf (h : st.wf = true) (hn : l.num < 1024) (hw : l.words.length = 32) : (st.put l).wf = true := by
  rw [PlanStore.wf_iff] at h ⊢
  refine ⟨insertLocation_pairwise h.1, fun k hk => ?_⟩
  rcases of_mem_insertLocation hk with rfl | hk
  · exact ⟨hn, hw⟩
  · exact h.2 k hk

theorem PlanStore.mem_put (h : st.wf = true) : m ∈ (st.put l).held ↔ m = l ∨ (m.num ≠ l.num ∧ m ∈ st.held) :=
  mem_insertLocation (PlanStore.wf_iff.mp h).1

theorem PlanStore.mem_free : m ∈ (st.free n).held ↔ m ∈ st.held ∧ m.num ≠ n := by simp [PlanStore.free]

theorem insertLocation_self (h : ms.Pairwise fun a b => a.num < b.num) (hl : l ∈ ms) : insertLocation l ms = ms := by
  induction ms with
  | nil => cases hl
  | cons k ms ih =>
    obtain ⟨hk, hms⟩ := List.pairwise_cons.mp h
    rcases List.mem_cons.mp hl with rfl | hl
    · simp [insertLocation]
    · have := hk l hl
      rw [insertLocation, if_neg (by omega), if_neg (by omega), ih hms hl]

theorem PlanStore.put_self (h : st.wf = true) (hl : l ∈ st.held) : st.put l = st := by
  simp [PlanStore.put, insertLocation_self (PlanStore.wf_iff.mp h).1 hl]

/-- Two held locations of one number are one location. -/
theorem PlanStore.eq_of_num (h : st.wf = true) (hl : l ∈ st.held) (hm : m ∈ st.held) (e : l.num = m.num) : l = m :=
  eq_of_num_of_pairwise (PlanStore.wf_iff.mp h).1 hl hm e

/-! ### Finding locations -/

theorem PlanStore.at?_some (h : st.at? n = some l) : l ∈ st.held ∧ l.num = n :=
  ⟨List.mem_of_find?_eq_some h, by simpa using List.find?_some h⟩

theorem PlanStore.at?_iff (h : st.wf = true) : st.at? n = some l ↔ l ∈ st.held ∧ l.num = n := by
  refine ⟨PlanStore.at?_some, fun ⟨hl, hn⟩ => ?_⟩
  cases e : st.at? n with
  | none => exact absurd (by simpa using hn) (List.find?_eq_none.mp e l hl)
  | some m =>
    obtain ⟨hm, hm'⟩ := PlanStore.at?_some e
    rw [PlanStore.eq_of_num h hl hm (hn.trans hm'.symm)]

theorem PlanStore.at?_none : st.at? n = none ↔ ∀ l ∈ st.held, l.num ≠ n := by
  simp [PlanStore.at?, List.find?_eq_none]

/-- A read after a write to the same location gives what was written. -/
theorem PlanStore.at?_put (h : st.wf = true) (hn : l.num < 1024) (hw : l.words.length = 32) :
    (st.put l).at? l.num = some l :=
  (PlanStore.at?_iff (PlanStore.put_wf h hn hw)).mpr ⟨mem_insertLocation_self, rfl⟩

theorem PlanStore.recordOf_some (h : st.recordOf i plan = some l) :
    l ∈ st.held ∧ l.occupancy = .record ∧ l.slot = i ∧ l.plan = plan := by
  have p := List.find?_some h
  simp only [Bool.and_eq_true, beq_iff_eq] at p
  exact ⟨List.mem_of_find?_eq_some h, p.1.1, p.1.2, p.2⟩

theorem PlanStore.recordOf_none :
    st.recordOf i plan = none ↔ ∀ l ∈ st.held, l.occupancy = .record → l.slot = i → l.plan ≠ plan := by
  simp [PlanStore.recordOf, List.find?_eq_none]

theorem PlanStore.shadowOf_some (h : st.shadowOf i plan = some l) :
    l ∈ st.held ∧ l.occupancy = .shadow ∧ ∃ r, st.recordOf i plan = some r ∧ r.link = some l.num := by
  simp only [PlanStore.shadowOf, Option.bind_eq_some_iff, Option.filter_eq_some_iff, beq_iff_eq] at h
  obtain ⟨n, ⟨r, hr, hn⟩, hl, hs⟩ := h
  obtain ⟨mem, num⟩ := PlanStore.at?_some hl
  exact ⟨mem, hs, r, hr, num ▸ hn⟩

/-! ### The lowest free location -/

theorem lowestFreeFrom_spec (n : Nat) (ms : List Location) (h : ms.Pairwise fun a b => a.num < b.num)
    (low : ∀ l ∈ ms, n ≤ l.num) :
    n ≤ lowestFreeFrom n ms ∧ (∀ l ∈ ms, l.num ≠ lowestFreeFrom n ms) ∧
      ∀ k, n ≤ k → k < lowestFreeFrom n ms → ∃ l ∈ ms, l.num = k := by
  induction ms generalizing n with
  | nil => exact ⟨Nat.le_refl _, fun _ h => (List.not_mem_nil h).elim, fun k a b => absurd b (Nat.not_lt.mpr a)⟩
  | cons x ms ih =>
    obtain ⟨hx, hms⟩ := List.pairwise_cons.mp h
    by_cases e : x.num = n
    · obtain ⟨a, b, c⟩ := ih (n + 1) hms fun l hl => by have := hx l hl; omega
      rw [lowestFreeFrom, if_pos e]
      refine ⟨by omega, fun l hl => ?_, fun k k1 k2 => ?_⟩
      · rcases List.mem_cons.mp hl with rfl | hl
        · omega
        · exact b l hl
      · by_cases q : k = n
        · exact ⟨x, List.mem_cons_self, e.trans q.symm⟩
        · obtain ⟨l, hl, hk⟩ := c k (by omega) k2
          exact ⟨l, List.mem_cons_of_mem _ hl, hk⟩
    · rw [lowestFreeFrom, if_neg e]
      refine ⟨Nat.le_refl _, fun l hl => ?_, fun k a b => absurd b (Nat.not_lt.mpr a)⟩
      have := low x List.mem_cons_self
      rcases List.mem_cons.mp hl with rfl | hl
      · exact e
      · have := hx l hl; omega

theorem PlanStore.lowestFree_some (h : st.wf = true) (e : st.lowestFree = some n) :
    n < 1024 ∧ (∀ l ∈ st.held, l.num ≠ n) ∧ ∀ m, m < n → ∃ l ∈ st.held, l.num = m := by
  obtain ⟨-, b, c⟩ := lowestFreeFrom_spec 0 st.held (PlanStore.wf_iff.mp h).1 fun _ _ => Nat.zero_le _
  simp only [PlanStore.lowestFree, Option.ite_none_right_eq_some, Option.some.injEq] at e
  obtain ⟨lt, rfl⟩ := e
  exact ⟨lt, b, fun m hm => c m (Nat.zero_le _) hm⟩

theorem PlanStore.lowestFree_none (h : st.wf = true) (e : st.lowestFree = none) :
    ∀ m, m < 1024 → ∃ l ∈ st.held, l.num = m := by
  obtain ⟨-, -, c⟩ := lowestFreeFrom_spec 0 st.held (PlanStore.wf_iff.mp h).1 fun _ _ => Nat.zero_le _
  have ge : ¬lowestFreeFrom 0 st.held < 1024 := fun lt => by simp [PlanStore.lowestFree, Config.locations, lt] at e
  exact fun m hm => c m (Nat.zero_le _) (by omega)

/-! ### Images and reads -/

theorem phases_flatten_length (ps : List Phase) : ((ps.map phaseWords).flatten).length = 3 * ps.length := by
  induction ps with
  | nil => rfl
  | cons _ _ ih => simp [phaseWords, ih]; omega

theorem planImage_length (p : Plan) (k num : Nat) : (planImage i k p num).length = 32 := by
  have h := phases_flatten_length (p.phases.take 8)
  have : (p.phases.take 8).length ≤ 8 := by simp
  simp only [planImage, List.length_append, List.length_cons, List.length_nil, List.length_replicate, h]
  omega

theorem PlanStore.writeImage_length (num : Nat) (ws : List Half) : (st.writeImage num ws).length = ws.length := by
  simp [PlanStore.writeImage, PlanStore.writeWords]

/-- Without stuck cells a location holds what is written to it. -/
theorem PlanStore.writeImage_eq (h : st.stuck = []) (num : Nat) (ws : List Half) :
    st.writeImage num ws = ws.map CodeWord.fresh := by
  simp [PlanStore.writeImage, PlanStore.writeWords, PlanStore.cellsOf, h, List.mapIdx_eq_zipIdx_map]

theorem CodeWord.isCorrected_of_clean {w : CodeWord} (h : w.finding = .clean) : w.isCorrected = false := by
  unfold CodeWord.isCorrected
  generalize w.finding = f at h
  subst h
  rfl

theorem CodeWord.readData_of_clean {w : CodeWord} (h : w.finding = .clean) : w.readData = w.data := by
  unfold CodeWord.readData
  generalize w.finding = f at h
  subst h
  rfl

theorem PlanStore.read_wf (h : st.wf = true) (hl : l ∈ st.held) : (st.read l).store.wf = true := by
  obtain ⟨hn, hw⟩ := (PlanStore.wf_iff.mp h).2 l hl
  unfold PlanStore.read
  split
  · exact PlanStore.put_wf h hn hw
  · exact PlanStore.put_wf h hn (by simpa using hw)

theorem PlanStore.read_uncorrectable (h : ∃ w ∈ l.words, w.finding = .uncorrectable) :
    st.read l = ⟨st.put { l with faulted := true }, none, 0⟩ := by
  rw [PlanStore.read, if_pos]
  simpa using h

/-! ### Promotion and restart -/

theorem PlanStore.promote_wf (h : st.wf = true) (i : Fin 64) (plan : Nat) : (st.promote i plan).wf = true := by
  unfold PlanStore.promote
  split
  next r sh hr hs =>
    obtain ⟨hn, hw⟩ := (PlanStore.wf_iff.mp h).2 sh (PlanStore.shadowOf_some hs).1
    exact PlanStore.put_wf (PlanStore.free_wf h _) hn hw
  next => exact h

theorem PlanStore.promoteAll_wf (h : st.wf = true) : st.promoteAll.wf = true := by
  unfold PlanStore.promoteAll
  generalize st.held = ls
  induction ls generalizing st with
  | nil => exact h
  | cons l ls ih =>
    refine ih ?_
    dsimp only
    split
    · exact PlanStore.promote_wf h _ _
    · exact h

theorem PlanStore.warm_wf (h : st.wf = true) : st.warm.wf = true := PlanStore.promoteAll_wf h

theorem PlanStore.scrubOnward_wf (h : st.wf = true) : st.scrubOnward.wf = true := by
  unfold PlanStore.scrubOnward
  split <;> exact h

end Sys2Proof.Machine
end

