-- ==== Sys2Proof/Laws/Time.lean ====
section
/-! SUPPORT. What the events of a tick send, and when it arrives (R47, R81, R90, R91). -/

namespace Sys2Proof.Machine

@[simp] theorem OnWay.none_and (w : OnWay) : OnWay.none.and w = w := rfl

@[simp] theorem OnWay.later_none (es : List TickEvent) : OnWay.none.later es = .none := rfl

@[simp] theorem OnWay.now_none (es : List TickEvent) : OnWay.none.now es = .none := rfl

/-- What is on its way arrives now or later. -/
theorem OnWay.mem_members (w : OnWay) (es : List TickEvent) (e : MemberEvent) :
    e ∈ w.members ↔ e ∈ (w.now es).members ∨ e ∈ (w.later es).members := by
  by_cases h : TickEvent.memberArrives e.slot ∈ es <;> simp [OnWay.now, OnWay.later, h]

theorem OnWay.mem_forced (w : OnWay) (es : List TickEvent) (i : Fin 64) :
    i ∈ w.forced ↔ i ∈ (w.now es).forced ∨ i ∈ (w.later es).forced := by
  by_cases h : TickEvent.forcedArrives i ∈ es <;> simp [OnWay.now, OnWay.later, h]

/-- At the end of an order everything arrives. -/
@[simp] theorem OnWay.now_nil (w : OnWay) : w.now [] = w := by simp [OnWay.now]

@[simp] theorem OnWay.later_nil (w : OnWay) : w.later [] = .none := by simp [OnWay.later, OnWay.none]

/-- The event names no arrival. -/
def noArrival : TickEvent → Prop
  | .memberArrives _ | .forcedArrives _ => False
  | .slot _ | .scrub | .stepFlags | .groupMinute _ | .timetable | .lineSeen _ _ => True

/-- An order that names no arrival has everything arrive with the event that sends it. -/
theorem OnWay.now_of_noArrival (w : OnWay) {es : List TickEvent} (h : ∀ e ∈ es, noArrival e) : w.now es = w := by
  have hm (i) : TickEvent.memberArrives i ∉ es := fun hi => h _ hi
  have hf (i) : TickEvent.forcedArrives i ∉ es := fun hi => h _ hi
  simp [OnWay.now, hm, hf]

theorem OnWay.later_of_noArrival (w : OnWay) {es : List TickEvent} (h : ∀ e ∈ es, noArrival e) : w.later es = .none := by
  have hm (i) : TickEvent.memberArrives i ∉ es := fun hi => h _ hi
  have hf (i) : TickEvent.forcedArrives i ∉ es := fun hi => h _ hi
  simp [OnWay.later, OnWay.none, hm, hf]

@[simp] theorem arrive_none (s : State) : s.arrive .none = s := rfl

/-- Events that name no arrival are taken one after another, each with all that it sends. -/
theorem takeEvents_of_noArrival (k : Nat) (w : Bool) (run : List (Fin 64)) :
    ∀ (es : List TickEvent) (s : State), (∀ e ∈ es, noArrival e) →
      s.takeEvents k w run es .none = es.foldl (fun s e => (s.tickEvent k w run e).1.arrive (s.tickEvent k w run e).2) s
  | [], _, _ => rfl
  | e :: es, s, h => by
    have ht : ∀ e ∈ es, noArrival e := fun e he => h e (List.mem_cons_of_mem _ he)
    simp only [State.takeEvents, OnWay.none_and, OnWay.now_of_noArrival _ ht, OnWay.later_of_noArrival _ ht, List.foldl_cons]
    exact takeEvents_of_noArrival k w run es _ ht

/-- The events that an advance raises name no arrival. -/
theorem noArrival_of_raised {e : TickEvent} (h : e.raised = true) : noArrival e := by
  cases e <;> simp_all [TickEvent.raised, noArrival]

/-- A group record stored where it stands changes nothing, and of two records stored in one place the second stands. -/
theorem setGroup_self (s : State) (g : Fin 16) : s.setGroup g (s.group g) = s := by
  simp only [State.setGroup, State.group]
  congr 1
  ext i hi
  simp [Vector.getElem_set]
  rintro rfl
  rfl

theorem setGroup_setGroup (s : State) (g : Fin 16) (x y : Group) : (s.setGroup g x).setGroup g y = s.setGroup g y := by
  simp [State.setGroup]

/-- R90, R91: all that a minute event at a group does: it counts, reports a limit reached, and names the members to force. -/
theorem groupMinute_eq (s : State) (g : Fin 16) :
    let r := s.group g
    let q := if r.state = .steady then r else { r with elapsed := min 255 (r.elapsed + 1) }
    s.groupMinute g =
      if q.atLimit then ((s.setGroup g { q with reported := true }).raise .groupLimit, s.inTransition g) else (s.setGroup g q, []) := by
  dsimp only
  unfold State.groupMinute State.checkLimit
  by_cases h : (s.group g).state = .steady
  · simp only [h, if_true, setGroup_self]
  · simp only [h, if_false, State.setGroup_group_same, setGroup_setGroup]
    rfl

end Sys2Proof.Machine
end

