-- ==== Sys2Proof/Tests/Slice0.lean ====
section
/-! SUPPORT. Tests with expected results from the spec's rules, tables and worked examples, and a witness for the
hypotheses of each statement. -/

set_option maxRecDepth 20000

namespace Sys2Proof.Tests

open Machine

/-! ### States -/

/-- The part released from RESET at station 41, time unset. -/
def up : State := { State.reset with resetAsserted := false, trunk := .cold 41#8 }

/-- A time base in a discipline state on day 817. -/
def timeAt (nt : Nat) (disc : Discipline) : TimeBase := { TimeBase.cold with nt := nt, day := 817, disc := disc, phase := nt % 10 }

/-- LOCKED on day 817, 12:30:23.0 (section 3.10). -/
def lit : State := up.setTime (timeAt 450230 .locked)

def phases24 : List PhaseEntry :=
  [⟨1#8, 400#16, 200#16⟩, ⟨2#8, 150#16, 80#16⟩, ⟨3#8, 250#16, 100#16⟩, ⟨4#8, 200#16, 90#16⟩]

/-- Plan 44 of section 3.10; plan 24 of section 4.10 has the same cycle, offset and phases. -/
def plan44 : Plan :=
  { cycle := 1000, offset := 350, shortPct := 20, longPct := 30, coord := 1
    phases := [⟨1, 400, 200⟩, ⟨2, 150, 80⟩, ⟨3, 250, 100⟩, ⟨4, 200, 90⟩] }

/-- Plan 61 of section 3.14. -/
def plan61 : Plan :=
  { cycle := 600, offset := 100, shortPct := 25, longPct := 10, coord := 2
    phases := [⟨1, 150, 100⟩, ⟨2, 250, 150⟩, ⟨3, 120, 90⟩, ⟨4, 80, 60⟩] }

/-- Slot 40 of section 3.10, COORDINATED on plan 44 at position p. -/
def slot40 (p : Nat) : Slot :=
  { Slot.unused with
    intersection := 2210, port := 2, drop := 5, group := 5, divider := 1, mode := .perCycle, state := .coordinated
    joined := true, current := 44, copy := some plan44, target := 44, run := some (planRun plan44 p) }

/-- The record of (40, 44) at location 0. -/
def loc0 : Location := ⟨0, .record, 40, 44, false, none, (planImage 40 44 plan44 0).map CodeWord.fresh⟩

/-- The part with slot 40 as given, its member and its record. -/
def withSlot (x : Slot) : State :=
  ((lit.setSlot 40 x).setMember 40 (some ⟨x.group, x.state, x.current⟩)).setStore { lit.store with held := [loc0] }

/-- Slot 40 running at position 999, one decisecond before its boundary. -/
def running : State := withSlot (slot40 999)

/-- Slot 40 OVERRIDDEN in LATCHED mode by HOLD2. -/
def overridden : State := withSlot { slot40 10 with mode := .latched, state := .overridden, latch := true, causes := 8#5 }

/-- Slot 40 with a plan 7 that is neither current nor target. -/
def spare : State := running.setStore { running.store with held := [{ loc0 with plan := 7 }] }

def sync40 : FieldFrame := .sync 5 2210 44 3 1000 false false false 1 [400, 550, 800, 1000]

/-- The exchange of slot 40's SYNC. -/
def xchg (phase : ExchangePhase) : Exchange :=
  { slot := 40, detached := false, isSync := true, drop := 5, intersection := 2210, plan := 44, count := 3, window := 60
    phase := phase, elapsed := 0, badSeen := false }

/-- Port 2 with a queue and an exchange. -/
def withPort (s : State) (queue : List QueueEntry) (exchange : Option Exchange) : State :=
  s.setPort 2 { Port.cold with state := if exchange.isSome then .awaiting else .idle, queue := queue, exchange := exchange }

def src : Source := ⟨0x0201#16, false⟩

def pins : PinSample := ⟨Vector.replicate 4 .inactive, Vector.replicate 4 .idle⟩

def someFrame : TrunkFrame := .make 0x11#8 7#8 9#8 [1#8, 2#8, 3#8, 4#8, 5#8, 6#8]

/-- A-out holding eight frames. -/
def fullA : State := lit.setTrunk { lit.trunk with aOut := ⟨List.replicate 8 someFrame, 0, 0⟩ }

/-- The test holds of the next state. -/
def gives (c : Instr) (s : State) (test : State → Bool) : Bool :=
  match exec c s with
  | .next t => test t
  | _ => false

/-- The body of the last frame in A-out. -/
def reply (t : State) : List Byte := (t.trunk.aOut.frames.getLast?.map TrunkFrame.body).getD []

/-- The reply's outcome code and fields (Table 12-2). -/
def outcome (t : State) : Option Byte × List Byte := ((reply t)[3]?, (reply t).drop 6)

/-! ### Well-formedness -/

theorem test_body_too_long : (Instr.timeMark 0#8 1#8 (List.replicate 241 0#8)).wellFormed = false := by decide
theorem test_cue_body_too_long : (Instr.cue 0#8 1#8 (List.replicate 241 0#8)).wellFormed = false := by decide
theorem test_cancel_body_too_long : (Instr.cueCancel 0#8 1#8 (List.replicate 241 0#8)).wellFormed = false := by decide
theorem test_request_body_too_long : (Instr.request 0#8 1#8 (List.replicate 241 0#8)).wellFormed = false := by decide
theorem test_params_too_long : (Instr.unknownRequestCode src 0x99#8 (List.replicate 238 0#8)).wellFormed = false := by decide
theorem test_known_request_is_not_unknown : (Instr.unknownRequestCode src 0x01#8 []).wellFormed = false := by decide
theorem test_too_many_phases :
    (Instr.loadPlan src 0#8 1#8 0#16 0#16 0#8 0#8 1#8 (List.replicate 46 ⟨1#8, 40#16, 40#16⟩)).wellFormed = false := by decide
theorem test_status_drop_17 : (Instr.status 0 17#8 1#16 1#8 1#8 0#8 0 .idle).wellFormed = false := by decide
theorem test_status_intersection_4096 : (Instr.status 0 1#8 4096#16 1#8 1#8 0#8 0 .idle).wellFormed = false := by decide
theorem test_status_plan_251 : (Instr.status 0 1#8 1#16 251#8 1#8 0#8 0 .idle).wellFormed = false := by decide
theorem test_status_override_4 : (Instr.status 0 1#8 1#16 1#8 1#8 4#8 0 .idle).wellFormed = false := by decide
theorem test_status_too_late : (Instr.status 0 1#8 1#16 1#8 1#8 0#8 201 .idle).wellFormed = false := by decide
theorem test_bad_frame_too_late : (Instr.badFrame 0 [] 201 .idle).wellFormed = false := by decide
theorem test_status_well_formed : (Instr.status 0 16#8 4095#16 250#8 255#8 3#8 200 .active).wellFormed = true := by decide

/-! ### Encodings (Tables 12-5 to 12-8) -/

theorem test_no_table_bits : decodeTableWord 8 0x5A = none := by decide

theorem test_read_time_parameters : decodeRequest pins ⟨src, 0x01#8, []⟩ = .readTime src := by decide
theorem test_set_day_parameters : decodeRequest pins ⟨src, 0x02#8, [0x03#8, 0x31#8]⟩ = .setDay src 817#16 := by decide
theorem test_define_slot_parameters :
    decodeRequest pins ⟨src, 0x10#8, [12#8, 0x04#8, 0xB7#8, 1#8, 5#8, 3#8, 4#8, 1#8]⟩ =
      .defineSlot src 12#8 1207#16 1#8 5#8 3#8 4#8 1#8 := by decide
theorem test_load_plan_parameters :
    decodeRequest pins ⟨src, 0x20#8, [12#8, 24#8, 0x03#8, 0xE8#8, 0x01#8, 0x5E#8, 25#8, 30#8, 1#8, 2#8, 1#8, 0x01#8, 0x90#8, 0#8,
      0xC8#8, 2#8, 0x02#8, 0x58#8, 0#8, 0x50#8]⟩ =
      .loadPlan src 12#8 24#8 1000#16 350#16 25#8 30#8 1#8 [⟨1#8, 400#16, 200#16⟩, ⟨2#8, 600#16, 80#16⟩] := by decide
theorem test_set_group_parameters :
    decodeRequest pins ⟨src, 0x30#8, [7#8, 12#8, 0#8, 0#8, 3#8, 10#8]⟩ = .setGroup src 7#8 12#8 0#8 0#8 3#8 10#8 := by decide
theorem test_add_event_parameters :
    decodeRequest pins ⟨src, 0x42#8, [3#8, 0x03#8, 0x31#8, 0x04#8, 0x92#8, 0x03#8, 0x31#8, 0x05#8, 0x64#8, 31#8, 4#8, 0xFF#8]⟩ =
      .addEvent src 3#8 817#16 1170#16 817#16 1380#16 31#8 4#8 0xFF#8 := by decide
theorem test_set_port_parameters :
    decodeRequest pins ⟨src, 0x50#8, [1#8, 0#8, 60#8, 1#8]⟩ = .setPort src 1#8 60#16 1#8 := by decide
theorem test_set_hold_map_parameters :
    decodeRequest pins ⟨src, 0x60#8, [2#8, 0#8, 0#8, 0#8, 0#8, 0x40#8, 0#8, 0#8, 0#8]⟩ = .setHoldMap src 2#8 (1#64 <<< 30) := by
  decide
theorem test_restart_parameters :
    decodeRequest pins ⟨src, 0x71#8, [0#8]⟩ = .restartWarm src pins ∧ decodeRequest pins ⟨src, 0x71#8, [1#8]⟩ = .restartCold src ∧
      decodeRequest pins ⟨src, 0x71#8, [2#8]⟩ = .unknownRequestCode src 0x71#8 [2#8] := by decide
theorem test_set_recording_parameters :
    decodeRequest pins ⟨src, 0x80#8, [0x80#8, 0#8, 0#8, 0#8, 0#8, 0#8, 0#8, 1#8, 3#8, 1#8]⟩ =
      .setRecording src 0x8000000000000001#64 3#8 1#8 := by decide
theorem test_checksum_parameters :
    decodeRequest pins ⟨src, 0x90#8, [0#8, 64#8, 0x03#8, 0xFF#8, 0xC3#8, 0x50#8]⟩ = .checksumPlans src 64#16 1023#16 50000#16 := by
  decide
theorem test_short_parameters : decodeRequest pins ⟨src, 0x02#8, [1#8]⟩ = .unknownRequestCode src 0x02#8 [1#8] := by decide

/-- R185: 0x7E and 0x7D are sent as 0x7D and the byte exclusive-ORed with 0x20. -/
theorem test_escape : escape [0x7E#8, 1#8, 0x7D#8] = [0x7D#8, 0x5E#8, 1#8, 0x7D#8, 0x5D#8] := by decide

/-- R185, by hand: 0xFFFF taken through the bits of 0x01. -/
theorem test_crc : crc16 [1#8] = 0xF1D1#16 := by decide

/-- Section 12.5: the words of plan 24 of slot 12. -/
theorem test_plan_image : (planImage 12 24 { plan44 with shortPct := 25, longPct := 30 } 3).take 5 =
    [3096#16, 1000#16, 350#16, 6430#16, 260#16] := by decide

/-- R188: a zero word has zero check bits; bit 0 stands at position 3, so in checks 0 and 1. -/
theorem test_check_bits : checkBits 0#16 = 0#6 ∧ checkBits 1#16 = 0b100011#6 := by decide

/-- Table 12-6 and R187: a SYNC of n phases has 14 + 2n bytes. -/
theorem test_sync_bytes : (sync40.bytes.take 12 = [0x21#8, 5#8, 0x08#8, 0xA2#8, 44#8, 3#8, 0x03#8, 0xE8#8, 0#8, 1#8, 4#8, 0x01#8]) ∧
    sync40.lineBytes.length = 14 + 2 * 4 := by decide

/-- Section 12.6: the record of section 3.10 as returned. -/
theorem test_record_bytes :
    TransitionRecord.fields ⟨40, 2210, 42, 44, .event, ⟨817, 450230⟩, ⟨817, 451350⟩, 1, some .lengthen, 120, .completed, false, false,
      false⟩ =
      [40#8, 0x08#8, 0xA2#8, 42#8, 44#8, 2#8, 0x03#8, 0x31#8, 0#8, 0x06#8, 0xDE#8, 0xB6#8, 0x03#8, 0x31#8, 0#8, 0x06#8, 0xE3#8,
        0x16#8, 1#8, 2#8, 0#8, 120#8, 0#8, 0#8] := by decide

/-! ### The arithmetic of chapter 3 -/

/-- Section 3.10: the error, the limits and the cycle. -/
theorem test_lengthening : planError 706338230 0 plan44 = 880 ∧ plan44.avail = 330 ∧ plan44.usable = 200 ∧ plan44.longLimit = 300 ∧
    correctedRun plan44 0 880 .lengthen = ⟨0, 1120, [520, 150, 250, 200]⟩ := by decide

/-- Section 3.10: the force-off points. -/
theorem test_points : forceOffPoints [520, 150, 250, 200] = [520, 670, 920, 1120] := by decide

/-- Table 3-5. -/
theorem test_shortening : correctedRun plan44 0 880 .shorten = ⟨0, 800, [400, 80, 120, 200]⟩ ∧
    correctedRun plan44 0 80 .shorten = ⟨0, 920, [400, 80, 240, 200]⟩ := by decide

/-- Section 3.12. -/
theorem test_forced_immediate : chooseDirection plan44 280 true (some .shorten) = .immediate ∧
    correctedRun plan44 0 280 .immediate = ⟨0, 720, [400, 80, 100, 140]⟩ := by decide

/-- Table 3-6. -/
theorem test_best : ([3, 100, 300].map fun e => chooseDirection plan44 e false (some .best)) = List.replicate 3 .shorten ∧
    ([400, 500, 880, 997].map fun e => chooseDirection plan44 e false (some .best)) = List.replicate 4 .lengthen := by decide

/-- Table 3-6: 2 and 998 are in step at tol 2; 3 and 997 are not. -/
theorem test_in_step : ([2, 998, 3, 997].map (inStep plan44 2)) = [true, true, false, false] := by decide

/-- Section 3.14: the limits, the choice and the cycle that starts after the coordinated phase and wraps. -/
theorem test_middle_coordinated : plan61.avail = 100 ∧ plan61.usable = 100 ∧ plan61.longLimit = 60 ∧
    chooseDirection plan61 204 false (some .best) = .shorten ∧
    correctedRun plan61 0 204 .shorten = ⟨0, 500, [100, 250, 90, 60]⟩ := by decide

/-! ### One step of each command -/

/-- Table 1-5, tick 2: the inserted decisecond takes NT past midnight. -/
theorem test_tick_midnight :
    gives (.tick []) (lit.setTime { timeAt 863998 .locked with phase := 9, slew := 1 }) (fun t =>
      t.time.nt == 0 && t.time.day == 818 && t.time.slew == 0) = true := by decide

/-- Section 2.10: a boundary at p = L; the cycle count rises. -/
theorem test_tick_boundary : gives (.tick []) running (fun t =>
    (t.slot 40).count == 1 && (t.slot 40).run.map CycleRun.p == some 0) = true := by decide

/-- R11: mark age 60 in LOCKED; TIME_HOLDOVER is bit 2. -/
theorem test_holdover : gives .holdoverEntry (up.setTime { timeAt 0 .locked with age := 60, slew := 4 }) (fun t =>
    t.time.disc == .holdover && t.time.slew == 0 && t.records.notices == 4#15) = true := by decide

/-- R91, section 5.7: the member in TRANSITION is forced. -/
def atLimit : State :=
  (withSlot { slot40 10 with state := .transition, trans := some ⟨.shorten, .event, 42, ⟨817, 450230⟩, 1, 200, false, false, false⟩ }).setGroup
    5 { Group.cold with state := .transition, target := 44, elapsed := 15 }

theorem test_limit : gives (.transitionLimitReached 5) atLimit (fun t =>
    (t.slot 40).trans.map Transition.forced == some true && t.records.notices == 16#15) = true := by decide

/-- Plan 44 with the offset that has its cycle begin at 450,600. -/
def plan600 : Plan := { plan44 with offset := 600 }

/-- The last decisecond of a minute in UNSET: slot 40 is one before the boundary that completes its transition, and group 5 one
minute from its limit. -/
def limitMinute : State :=
  (((withSlot { slot40 999 with
    copy := some plan600, state := .transition
    trans := some ⟨.shorten, .event, 42, ⟨817, 450230⟩, 1, 200, false, false, false⟩ }).setGroup
    5 { Group.cold with state := .transition, target := 44, elapsed := 14 }).setTime (timeAt 450599 .unset)).setRecords { RecordUnit.cold with filter := 1#64 <<< 40 }

/-- R47: the forced-immediate event and the boundary arrive together. The boundary taken first completes the transition without
the flag; the event taken first has the record carry it. -/
theorem test_tick_forced_arrives :
    gives (.tick [.groupMinute 5, .slot 40, .forcedArrives 40]) limitMinute (fun t =>
      t.records.ring.map TransitionRecord.forced == [false] && noticeIn t.records.notices .groupLimit) = true ∧
    gives (.tick [.groupMinute 5, .slot 40]) limitMinute (fun t =>
      t.records.ring.map TransitionRecord.forced == [true] && noticeIn t.records.notices .groupLimit) = true := by decide

/-- Slot 40 is one before the boundary at which it adopts plan 44 in step, and the minute selects plan 50 for its group. -/
def adoptionMinute : State :=
  (((withSlot { slot40 999 with current := 42 }).setStore
    { lit.store with held := [{ loc0 with words := (planImage 40 44 plan600 0).map CodeWord.fresh }] }).setGroup
    5 { Group.cold with state := .pending, target := 44, defaultPlan := 50 }).setTime (timeAt 450599 .locked)

/-- R84: the member event of an adoption and a new selection arrive together. The selection taken first leaves the group PENDING
with its flag clear, and the old plan settles nothing; the event taken first makes the group STEADY on the old plan. -/
theorem test_tick_member_arrives :
    gives (.tick [.slot 40, .timetable, .memberArrives 40]) adoptionMinute (fun t =>
      (t.group 5).state == .pending && (t.group 5).adopted == false && !noticeIn t.records.notices .groupSteady &&
        (t.slot 40).current == 44) = true ∧
    gives (.tick [.slot 40, .timetable]) adoptionMinute (fun t =>
      (t.group 5).state == .pending && (t.group 5).adopted == false && noticeIn t.records.notices .groupSteady) = true := by decide

/-- Table 6-2, minute 1380: the event's end. -/
def eventEnds : State := (up.setTime (timeAt 828000 .locked)).setTables
  { Timetable.cold with events := [⟨0, 3, 817, 1170, 817, 1380, 31, 4, none⟩] }

theorem test_event_end : gives (.eventEntryEnd 0) eventEnds (fun t => t.tables.events == []) = true := by decide

/-- Table 6-2: the cue stands at minute 1347 and has ended at minute 1348. -/
def cueAt (nt : Nat) : State := (up.setTime (timeAt nt .locked)).setTables
  { Timetable.cold with active := Timetable.cold.active.set 3 (some ⟨17, 35, 6, 706696320⟩) }

theorem test_cue_stands : gives (.cueExpiry 3) (cueAt 808200) (fun t => (t.tables.active.get 3).isSome) = true := by decide
theorem test_cue_ends : gives (.cueExpiry 3) (cueAt 808800) (fun t => t.tables.active.get 3 == none) = true := by decide

/-- R109: a direct selection ends at its end R. -/
def directAt : State := (up.setTime (timeAt 808800 .locked)).setTables
  { Timetable.cold with direct := Timetable.cold.direct.set 3 (some ⟨9, some 706696800⟩) }

theorem test_direct_ends : gives (.directExpiry 3) directAt (fun t => t.tables.direct.get 3 == none) = true := by decide

/-- Table 1-4, step 1. -/
theorem test_first_mark :
    gives (.timeMark 0#8 5#8 [0#8, 0x06#8, 0xDE#8, 0x98#8, 0x03#8, 0x31#8]) (up.setTime { TimeBase.cold with nt := 37, phase := 7 })
      (fun t => t.time.nt == 450200 && t.time.day == 817 && t.time.phase == 0 && t.time.disc == .acquire && t.time.lastDiff == some 32767) = true := by decide

/-- Table 1-4, step 4: the third agreement. -/
theorem test_third_agreement :
    gives (.timeMark 0#8 5#8 [0#8, 0x06#8, 0xDF#8, 0xC8#8, 0x03#8, 0x31#8]) (up.setTime { timeAt 450504 .acquire with agree := 2 })
      (fun t => t.time.disc == .locked && t.time.nt == 450504 && t.time.agree == 0 && t.records.notices == 1#15) = true := by
  decide

/-- Table 6-2: CUE 17 at NT 784,320 sets end R 706,696,320, and CUE 9 is ignored then. -/
def cueTable : State := (up.setTime (timeAt 784320 .locked)).setTables
  { Timetable.cold with cues := [⟨9, 3, 33, 30, 3⟩, ⟨17, 3, 35, 40, 6⟩] }

theorem test_cue : gives (.cue 0#8 5#8 [17#8]) cueTable (fun t =>
    t.tables.active.get 3 == some ⟨17, 35, 6, 706696320⟩ && (t.group 3).target == 35) = true := by decide
theorem test_cue_ignored :
    gives (.cue 0#8 5#8 [9#8]) (cueTable.setTables { cueTable.tables with active := (cueAt 0).tables.active }) (fun t =>
      t.tables.active.get 3 == some ⟨17, 35, 6, 706696320⟩ && t.records.notices == 0x2000#15) = true := by decide
theorem test_cue_cancel : gives (.cueCancel 0#8 5#8 [17#8]) (cueAt 800000) (fun t =>
    t.tables.active.get 3 == none && t.trunk.bOut.frames == [.make 0x03#8 0#8 4#8 [17#8]]) = true := by decide

/-- R157: a request to the own station is taken by the IDLE engine; one to another is passed on. -/
theorem test_request_taken : gives (.request 41#8 5#8 [2#8, 1#8, 0x01#8]) lit (fun t =>
    t.mgmt.engine == .carrying ⟨src, 0x01#8, []⟩ && t.trunk.bOut.frames == []) = true := by decide
theorem test_request_passed : gives (.request 42#8 5#8 [2#8, 1#8, 0x01#8]) lit (fun t =>
    t.mgmt.engine == .idle && t.trunk.bOut.frames == [.make 0x10#8 42#8 4#8 [2#8, 1#8, 0x01#8]]) = true := by decide

/-- R150, R155: a frame of bad check is dropped and counted. -/
theorem test_bad_crc : gives (.trunkFrame .a [0x7E#8, 1#8, 0#8, 5#8, 0#8, 0#8, 0#8]) lit (fun t =>
    t.trunk.countsA == ⟨0, 1, 0, 0⟩) = true := by decide
theorem test_frame_from_b : gives (.trunkFrame .b someFrame.lineBytes) lit (fun t =>
    t.trunk.aOut.frames == [{ TrunkFrame.make 0x11#8 7#8 8#8 someFrame.body with kind := 0x11#8 }]) = true := by decide

/-- Table 9-7: a reply held while A-out is full, and placed after a transmission end. -/
theorem test_transmit_end : gives (.trunkTransmitEnd .a) fullA (fun t =>
    t.trunk.aOut.frames.length == 7 && t.trunk.aOut.sent == 1) = true := by decide
theorem test_reply_held : gives (.readTime src) fullA (fun t =>
    t.trunk.aOut.frames.length == 8 && (match t.mgmt.engine with | .replyWait _ _ => true | _ => false)) = true := by decide
def held : State := lit.setMgmt { Management.cold with engine := .replyWait ⟨src, 0x01#8, []⟩ someFrame }
theorem test_reply_placed : gives .heldReplyPlaced held (fun t =>
    t.trunk.aOut.frames == [someFrame] && t.mgmt.engine == .idle) = true := by decide

/-- R162: a COLD restart empties the store, and a WARM one keeps the slot in JOINING. -/
theorem test_cold_effect : gives (.restartEffect pins) (running.setMgmt { Management.cold with restart := some (.cold, someFrame) })
    (fun t => t.store.held == [] && t.slot 40 == .unused && t.time.disc == .unset && t.trunk.strap == 41#8) = true := by decide
theorem test_warm_effect : gives (.restartEffect pins) (running.setMgmt { Management.cold with restart := some (.warm, someFrame) })
    (fun t => t.store.held == [loc0] && (t.slot 40).state == .joining && (t.slot 40).run == none && t.time.disc == .acquire) = true := by
  decide
theorem test_restart_answered : gives (.restartCold src) running (fun t =>
    outcome t == (some 0#8, []) && t.store.held == [loc0]) = true := by decide
theorem test_restart_warm_broadcast : gives (.restartWarm { src with broadcast := true } pins) running (fun t =>
    (t.slot 40).state == .joining && t.trunk.aOut.frames == []) = true := by decide

theorem test_unknown_code : gives (.unknownRequestCode src 0x99#8 []) lit (fun t => outcome t == (some 7#8, [])) = true := by decide

/-- R14: LOCKED, day 817, NT 450,230, no agreements, outliers, slew, age or last difference. -/
theorem test_read_time : gives (.readTime src) lit (fun t => outcome t ==
    (some 0#8, [2#8, 0x03#8, 0x31#8, 0#8, 0x06#8, 0xDE#8, 0xB6#8, 0#8, 0#8, 0#8, 0#8, 0#8, 0#8, 0#8, 0#8])) = true := by decide
theorem test_set_day : gives (.setDay src 818#16) running (fun t =>
    t.time.day == 818 && t.time.nt == 450230 && (t.slot 40).stepFlag && t.records.notices == 2#15) = true := by decide

/-- R35: intersection 2210 is held by slot 40, and port 2 with drop 5 too. -/
theorem test_define : gives (.defineSlot src 12#8 1207#16 1#8 5#8 3#8 0#8 1#8) running (fun t =>
    outcome t == (some 0#8, []) && (t.slot 12).state == .joining && (t.slot 12).divider == 1 && t.member 12 == some ⟨3, .joining, 0⟩) =
      true := by decide
theorem test_define_duplicate : gives (.defineSlot src 12#8 1207#16 2#8 5#8 3#8 4#8 1#8) running (fun t =>
    outcome t == (some 5#8, [])) = true := by decide
theorem test_release : gives (.releaseSlot src 40#8) running (fun t =>
    t.slot 40 == .unused && t.store.held == [] && t.member 40 == none) = true := by decide
theorem test_read_slot : gives (.readSlot src 40#8) running (fun t =>
    outcome t |>.2.take 5 |> (· == [0x08#8, 0xA2#8, 2#8, 5#8, 5#8])) = true := by decide
theorem test_read_unused_slot : gives (.readSlot src 12#8) running (fun t => outcome t == (some 0#8, [0#8])) = true := by decide

/-- R65: the lowest-numbered free location, here 1; R66, R67: an overwrite in place, and a shadow of the current plan. -/
theorem test_load_new : gives (.loadPlan src 40#8 24#8 1000#16 350#16 30#8 60#8 1#8 phases24) running (fun t =>
    outcome t == (some 0#8, [0#8, 1#8, 0#8, 25#8, 50#8, 0#8]) && t.store.held.map Location.num == [0, 1]) = true := by decide
theorem test_load_shadow : gives (.loadPlan src 40#8 44#8 1000#16 350#16 25#8 30#8 1#8 phases24) running (fun t =>
    outcome t == (some 0#8, [0#8, 1#8, 1#8, 25#8, 30#8, 7#8]) && t.store.held.map Location.link == [some 1, none]) = true := by decide
theorem test_bad_plan : gives (.loadPlan src 40#8 24#8 1001#16 350#16 30#8 60#8 1#8 phases24) running (fun t =>
    outcome t == (some 8#8, [])) = true := by decide
theorem test_drop_pinned : gives (.dropPlan src 40#8 44#8 0#8) running (fun t => outcome t == (some 6#8, [])) = true := by decide
theorem test_drop_unpinned : gives (.dropPlan src 40#8 7#8 0#8) spare (fun t => t.store.held == []) = true := by decide
theorem test_read_plan_absent : gives (.readPlan src 40#8 24#8 0#8) running (fun t =>
    outcome t |>.1 |> (· == some 4#8)) = true := by decide

/-- R92: tol above 20 and a limit of 0 are clamped. -/
theorem test_set_group : gives (.setGroup src 7#8 12#8 0#8 3#8 21#8 0#8) lit (fun t =>
    outcome t == (some 0#8, [12#8, 0#8, 3#8, 20#8, 1#8]) && (t.group 7).target == 12) = true := by decide
theorem test_read_group : gives (.readGroup src 5#8 0#8) running (fun t =>
    (outcome t).2.reverse.take 4 == [0#8, 44#8, 2#8, 40#8] || (outcome t).2.reverse.take 4 == [1#8, 44#8, 2#8, 40#8]) = true := by decide

/-- R97, R98, R100, R103. -/
theorem test_set_calendar : gives (.setCalendar src 817#16 0#8 7#8) lit (fun t => t.tables.calendar == [⟨817, 7⟩]) = true := by decide
def base3 : State := lit.setTables { Timetable.cold with base := [⟨0, 3, 0x60#8, 360, 21, none⟩] }
theorem test_add_base : gives (.addBase src 3#8 0x20#8 600#16 24#8 0xFF#8) base3 (fun t =>
    outcome t == (some 0#8, [0#8, 1#8]) && (t.group 3).target == 24) = true := by decide
theorem test_add_base_duplicate : gives (.addBase src 3#8 0x20#8 360#16 24#8 0xFF#8) base3 (fun t =>
    outcome t == (some 5#8, [])) = true := by decide
theorem test_add_event : gives (.addEvent src 3#8 817#16 700#16 817#16 760#16 31#8 4#8 0xFF#8) base3 (fun t =>
    (t.group 3).target == 31 && (t.group 3).layer == some .event) = true := by decide
theorem test_add_event_past : gives (.addEvent src 3#8 817#16 700#16 817#16 750#16 31#8 4#8 0xFF#8) base3 (fun t =>
    outcome t == (some 9#8, [])) = true := by decide
theorem test_cut_entry : gives (.cutEntry src 0#8 0#16) base3 (fun t =>
    t.tables.base == [] && (t.group 3).layer == some .default) = true := by decide
theorem test_read_timetable : gives (.readTimetable src 1#8 0#16) base3 (fun t =>
    (outcome t).2.take 9 == [1#8, 0#8, 0#8, 3#8, 0x60#8, 0x01#8, 0x68#8, 21#8, 0xFF#8]) = true := by decide

/-- R114: every reply gives the counts, a BAD_VALUE too: one base entry, day types 5 and 4 of days 817 and 816, minute 750. -/
theorem test_read_timetable_range : gives (.readTimetable src 5#8 0#16) base3 (fun t =>
    outcome t == (some 7#8, [0#8, 0#8, 1#8, 0#8, 0#8, 1#8, 5#8, 1#8, 4#8, 1#8, 0x02#8, 0xEE#8])) = true := by decide

/-- R104: a duration is clamped to 720 minutes. -/
theorem test_set_cue : gives (.setCue src 17#8 3#8 35#8 721#16 6#8) lit (fun t =>
    outcome t == (some 0#8, [0x02#8, 0xD0#8]) && t.tables.cues == [⟨17, 3, 35, 720, 6⟩]) = true := by decide
theorem test_cut_cue : gives (.cutCue src 17#8 3#8) cueTable (fun t => t.tables.cues == [⟨9, 3, 33, 30, 3⟩]) = true := by decide
theorem test_direct_plan : gives (.directPlan src 3#8 9#8 0#16) base3 (fun t =>
    t.tables.direct.get 3 == some ⟨9, none⟩ && (t.group 3).layer == some .direct) = true := by decide
theorem test_direct_needs_time : gives (.directPlan src 3#8 9#8 1#16) up (fun t => outcome t == (some 9#8, [])) = true := by decide
theorem test_end_direct : gives (.endDirect src 3#8) directAt (fun t => t.tables.direct.get 3 == none) = true := by decide

/-- R131, R132. -/
theorem test_set_port : gives (.setPort src 1#8 19#16 1#8) lit (fun t =>
    outcome t == (some 0#8, [0#8, 20#8]) && (t.port 1).window == 20) = true := by decide
theorem test_read_port : gives (.readPort src 0#8) lit (fun t =>
    (outcome t).2.take 5 == [0#8, 0#8, 0#8, 60#8, 0#8] && (outcome t).2.length == 25) = true := by decide

/-- R121 to R130, Table 7-5. -/
theorem test_exchange_start : gives (.exchangeStart 2) (withPort running [⟨40, sync40⟩] none) (fun t =>
    (t.port 2).state == .awaiting && (t.port 2).queue == [] && (t.port 2).sent == 1) = true := by decide
theorem test_field_transmit_end : gives (.fieldTransmitEnd 2 .idle) (withPort running [] (some (xchg .sending))) (fun t =>
    (t.port 2).exchange.map Exchange.phase == some .window) = true := by decide
theorem test_status_good : gives (.status 2 5#8 2210#16 44#8 3#8 0#8 31 .idle)
    (withPort (running.setSlot 40 { slot40 10 with missRun := 2 }) [] (some (xchg .window))) (fun t =>
      (t.slot 40).missRun == 0 && (t.port 2).state == .idle) = true := by decide
theorem test_status_preempt : gives (.status 2 5#8 2210#16 44#8 3#8 1#8 31 .idle) (withPort running [] (some (xchg .window)))
    (fun t => (t.slot 40).state == .overridden && causeIn (t.slot 40).causes .field && t.records.notices &&& 0x80#15 == 0x80#15) =
      true := by decide
theorem test_bad_frame : gives (.badFrame 2 [0x23#8] 40 .idle) (withPort running [] (some (xchg .window))) (fun t =>
    (t.port 2).bad == 1 && (t.port 2).exchange.map Exchange.badSeen == some true) = true := by decide
theorem test_window_expiry : gives (.responseWindowExpiry 2 .idle) (withPort running [] (some (xchg .window))) (fun t =>
    (t.slot 40).timeouts == 1 && (t.slot 40).missRun == 1 && (t.port 2).state == .idle) = true := by decide
theorem test_line_blocked : gives (.lineBlocked 2) (withPort running [⟨40, sync40⟩] none) (fun t =>
    (t.port 2).state == .blocked && (t.port 2).blockedEntries == 1 && (t.port 2).queue.length == 1) = true := by decide

/-- R121: the line reported idle in a TICK lets an IDLE port send its head frame, whose bytes stand on the line; reported active, it keeps it. -/
theorem test_tick_line_idle : gives (.tick [.lineSeen 2 .idle]) (withPort lit [⟨40, sync40⟩] none) (fun t =>
    (t.port 2).state == .awaiting && (t.port 2).wire == sync40.lineBytes) = true := by decide
theorem test_tick_line_active : gives (.tick [.lineSeen 2 .active]) (withPort lit [⟨40, sync40⟩] none) (fun t =>
    (t.port 2).state == .idle && (t.port 2).line == .active && (t.port 2).queue.length == 1) = true := by decide

/-- R185: a break, 0x7D 0x7E, begins a new frame: the STATUS of Table 7-5's form after it is taken. -/
def statusBytes : List Byte :=
  let bytes := [0x23#8, 5#8, 0x08#8, 0xA2#8, 44#8, 3#8, 0#8]
  escape (bytes ++ halfBytes (crc16 bytes))
theorem test_break_begins_frame : gives (.badFrame 2 ([0x23#8, 0x7D#8, 0x7E#8] ++ statusBytes) 31 .idle)
    (withPort (running.setSlot 40 { slot40 10 with missRun := 2 }) [] (some (xchg .window))) (fun t =>
      (t.port 2).bad == 1 && (t.slot 40).missRun == 0 && (t.port 2).exchange == none) = true := by decide
/-- R123: a delimiter right behind a complete STATUS stands on a line that is not idle, so no second STATUS begins with it: none is
counted outside a window, and no frame is bad. -/
theorem test_lone_delimiter : gives (.badFrame 2 (statusBytes ++ [0x7E#8] ++ statusBytes) 31 .idle)
    (withPort (running.setSlot 40 { slot40 10 with missRun := 2 }) [] (some (xchg .window))) (fun t =>
      (t.slot 40).missRun == 0 && (t.port 2).outside == 0 && (t.port 2).bad == 0) = true := by decide
def blocked : State := running.setPort 2 { Port.cold with state := .blocked, queue := [⟨40, sync40⟩] }
theorem test_line_freed : gives (.lineFreed 2) blocked (fun t =>
    (t.port 2).state == .awaiting && (t.port 2).queue == []) = true := by decide

/-- Table 8-3 and R138, R139, R146, R147. -/
def mapped : State := running.setHold 2 ⟨.inactive, 1#64 <<< 40⟩
theorem test_hold_edge : gives (.holdActivationEdge 2) mapped (fun t =>
    (t.slot 40).state == .overridden && (t.slot 40).causes == 8#5) = true := by decide
theorem test_hold_release : gives (.holdReleaseEdge 2) (overridden.setHold 2 ⟨.active, 1#64 <<< 40⟩) (fun t =>
    (t.slot 40).causes == 0#5 && (t.slot 40).state == .overridden) = true := by decide
theorem test_set_hold_map : gives (.setHoldMap src 2#8 (1#64 <<< 40)) (running.setHold 2 ⟨.active, 0#64⟩) (fun t =>
    (t.slot 40).causes == 8#5 && (t.hold 2).map == 1#64 <<< 40) = true := by decide
theorem test_clear_override : gives (.clearOverride src 40#8) overridden (fun t =>
    !(t.slot 40).latch && outcome t == (some 0#8, [8#8, 0#8, 0#8])) = true := by decide
theorem test_clear_override_state : gives (.clearOverride src 40#8) running (fun t => outcome t == (some 9#8, [])) = true := by decide

/-- R161, section 12.2: strap, station, family and part codes. -/
theorem test_read_station : gives (.readStation src 1#8) lit (fun t =>
    (outcome t).2.take 5 == [41#8, 41#8, 0x1C#8, 0x04#8, 0x16#8]) = true := by decide

/-- Section 10.6: the filter, the count-down and the full ring. -/
def rec40 : TransitionRecord :=
  ⟨40, 2210, 42, 44, .event, ⟨817, 450230⟩, ⟨817, 451350⟩, 1, some .lengthen, 120, .completed, false, false, false⟩
def station41 : RecordUnit := { RecordUnit.cold with filter := 3#64 <<< 40, reload := 3, countDown := 1, notices := 8#15 }
theorem test_record_counted : (station41.take rec40).countDown = 3 ∧ (station41.take rec40).notices = 0x808#15 := by decide
theorem test_record_filtered : station41.take { rec40 with slot := 12 } = station41 := by decide
theorem test_set_recording : gives (.setRecording src (1#64 <<< 40) 3#8 0#8) running (fun t =>
    (t.slot 40).recording && t.records.countDown == 3) = true := by decide
theorem test_read_records :
    gives (.readRecords src 1#8) (lit.setRecords { RecordUnit.cold with ring := [rec40, rec40] }) (fun t =>
      t.records.ring == [rec40] && (outcome t).1 == some 1#8 && (outcome t).2.length == 5 + 24) = true := by decide
theorem test_read_notices : gives (.readNotices src) (lit.setRecords { RecordUnit.cold with notices := 0x1800#15 }) (fun t =>
    outcome t == (some 0#8, [0x18#8, 0#8]) && t.records.notices == 0#15) = true := by decide
theorem test_notice_mask : gives (.setNoticeMask src 0x8008#16) (lit.setRecords { RecordUnit.cold with notices := 0x1808#15 }) (fun t =>
    t.records.mask == 8#15 && t.records.notices == 0x1800#15) = true := by decide
theorem test_count_down_zero : gives .countDownZero (lit.setRecords { RecordUnit.cold with reload := 3 }) (fun t =>
    t.records.countDown == 3 && t.records.notices == 0x800#15) = true := by decide

/-- R176, R177: words of location 0 summed; the sum carried in is added modulo 65,536. -/
def one : Location := ⟨0, .record, 40, 44, false, none, (0xFFFF#16 :: List.replicate 31 0#16).map CodeWord.fresh⟩
theorem test_checksum : gives (.checksumPlans src 0#16 1023#16 2#16) (running.setStore { running.store with held := [one] }) (fun t =>
    outcome t == (some 1#8, [0#8, 1#8, 0#8, 64#8, 64#8, 1#8, 0#8, 0#8, 0#8])) = true := by decide

/-- Table 11-1, TEST LOCATION 700: bit 6 of word 13 is stuck high. -/
theorem test_location_fails :
    gives (.testLocation src 700#16) (running.setStore { running.store with stuck := [⟨700, 13, 6, true⟩] }) (fun t =>
      t.logOut == some ⟨700, .data, 2, 13, 0x0040#16, 0#6, ⟨817, 450230⟩⟩) = true := by decide
theorem test_location_pinned : gives (.testLocation src 0#16) running (fun t => outcome t == (some 6#8, [])) = true := by decide

/-- R181: two inverted check bits of a word are uncorrectable at the next read. -/
theorem test_force_check : gives (.forceCheck src 0#16 7#8 1#8 4#8) running (fun t =>
    !t.store.scrubOn && (t.store.held.map fun l => (l.words.map CodeWord.finding)[7]?) == [some .uncorrectable]) = true := by decide
theorem test_scrub_control : gives (.scrubControl src 1#8) lit (fun t => !t.store.scrubOn) = true := by decide
theorem test_read_logout : gives (.readLogout src) lit (fun t => outcome t == (some 0#8, List.replicate 15 0#8)) = true := by decide

theorem test_reset_assert : gives .resetAssert running (fun t =>
    t.resetAsserted && t.slot 40 == .unused && t.store.held == [] && t.trunk.strap == 41#8) = true := by decide
theorem test_reset_release : gives (.resetRelease 41#8 pins) State.reset (fun t => t == up) = true := by decide

/-! ### Witnesses: states and operands that meet the hypotheses of each statement, clause by clause -/

/-- The engine carries the request of a command out now, with room for its reply. -/
def asks (s : State) (c : Instr) : Prop := ∃ r, s.readyFor c r

def asksNow (s : State) (c : Instr) : Bool :=
  match encodeRequest c with
  | some r => s.carries r && !r.src.broadcast && decide (s.trunk.aOut.frames.length < 8)
  | none => false

theorem asks_iff {s : State} {c : Instr} : asks s c ↔ asksNow s c = true := by
  unfold asks State.readyFor asksNow
  cases encodeRequest c <;> simp [and_assoc]

/-- The same, with a broadcast request too. -/
def asksAny (s : State) (c : Instr) : Prop := ∃ r, s.readyForAny c r ∧ r.src.broadcast = true

def asksAnyNow (s : State) (c : Instr) : Bool :=
  match encodeRequest c with
  | some r => s.carries r && r.src.broadcast
  | none => false

theorem asksAny_iff {s : State} {c : Instr} : asksAny s c ↔ asksAnyNow s c = true := by
  unfold asksAny State.readyForAny asksAnyNow
  cases encodeRequest c with
  | none => simp
  | some q =>
    simp only [Option.some.injEq, Bool.and_eq_true]
    constructor
    · rintro ⟨r, ⟨rfl, hc, -⟩, hb⟩
      exact ⟨hc, hb⟩
    · rintro ⟨hc, hb⟩
      exact ⟨q, ⟨rfl, hc, by simp [hb]⟩, hb⟩

/-- The source of a broadcast request. -/
def all : Source := { src with broadcast := true }

theorem test_witness_StepTakesFront :
    (lit.setPending [.holdoverEntry]).pending = .holdoverEntry :: [] ∧ lit.pending = [] := ⟨rfl, rfl⟩

theorem test_witness_ResetLineStopsAndSamples :
    State.reset.resetAsserted = true ∧ Instr.holdoverEntry ≠ .resetAssert ∧ (∀ straps pins, Instr.holdoverEntry ≠ .resetRelease straps pins) ∧
      (∀ l, (State.reset.hold l).map = 0#64) ∧ lit.resetAsserted = false :=
  ⟨rfl, by decide, nofun, by decide, rfl⟩

/-- A second tick with mark age 59 in LOCKED; one with slew 20 and one with slew -20. -/
theorem test_witness_TickMovesTime :
    (lit.resetAsserted = false ∧ lit.time.inRange ∧ lit.time.phase ≠ 9) ∧
    ((lit.setTime { timeAt 863999 .locked with age := 59 }).time.inRange ∧ (timeAt 863999 .locked).phase = 9) ∧
    { timeAt 9 .holdover with slew := 20 }.inRange ∧ { timeAt 9 .acquire with slew := -20 }.inRange := by
  simp [lit, TimeBase.inRange, timeAt, TimeBase.cold, State.setTime]
  rfl

/-- Slot 40 one tick before its boundary, two before it, with its previous frame gone, queued and in flight, and before its third miss. -/
theorem test_witness_TickMovesSlots :
    (running.resetAsserted = false ∧ (running.slot 40).run = some (planRun plan44 999) ∧ running.time.phase ≠ 9 ∧ plan44.cycle ≤ 999 + 1) ∧
    (((withSlot (slot40 998)).slot 40).run = some (planRun plan44 998) ∧ 998 + 1 < plan44.cycle) ∧ running.sameMinute ∧
    ((running.slot 40).copy = some plan44 ∧ (running.slot 40).count % 1 = 0) ∧
    ((running.port 2).queue = [] ∧ (running.port 2).exchange = none) ∧
    (∃ e ∈ ((withPort running [⟨40, sync40⟩] none).port 2).queue, e.slot = 40) ∧
    (((withPort running [] (some (xchg .window))).port 2).exchange = some (xchg .window) ∧ (xchg .window).slot = 40 ∧
      (xchg .window).detached = false) := by
  simp only [State.sameMinute]; decide

/-- Slots 12 and 40 run, one decisecond before their boundaries. -/
def twoRun : State := running.setSlot 12 { slot40 999 with intersection := 2211, drop := 6 }

theorem test_witness_TickMovesSlots_arrivals :
    twoRun.resetAsserted = false ∧ twoRun.sameMinute ∧ (40 : Fin 64) ≠ 12 ∧ ∀ l, (twoRun.slot l).run.isSome ↔ l = 40 ∨ l = 12 := by
  simp only [State.sameMinute]; decide

/-- Location 0 with two inverted check bits in word 7. -/
def brokenLoc : Location :=
  { loc0 with words := loc0.words.modify 7 fun w => { w with check := w.check ^^^ 18#6 } }

def broken : State := running.setStore { running.store with held := [brokenLoc] }

/-- Location 0 with one inverted data bit in word 7, which a read corrects. -/
def flippedLoc : Location := { loc0 with words := loc0.words.modify 7 fun w => { w with data := w.data ^^^ 2#16 } }

def flipped : State := running.setStore { running.store with held := [flippedLoc] }

/-- Time unset, no slot running, and one location held. -/
def parked (l : Location) : State := up.setStore { up.store with held := [l] }

theorem test_witness_TickMovesScrubber :
    let last := lit.setStore { lit.store with scrubPos := 1023 }
    let off := lit.setStore { lit.store with scrubOn := false }
    (lit.store.scrubPos < 1024 ∧ lit.store.scrubOn = true) ∧ (last.resetAsserted = false ∧ last.store.scrubPos = 1023) ∧
      (off.store.scrubPos < 1024 ∧ off.store.scrubOn = false) ∧
      ((parked loc0).store.wf = true ∧ (parked loc0).time.disc = .unset ∧ (∀ i, ((parked loc0).slot i).run = none) ∧
        (parked loc0).store.corrected ≤ 65535 ∧ (parked loc0).store.stuck = [] ∧ loc0.num = (parked loc0).store.scrubPos) ∧
      ((parked flippedLoc).store.wf = true ∧ flippedLoc.sound ∧ flippedLoc.fixed = 1 ∧ flippedLoc.faulted = false) ∧
      ((parked brokenLoc).store.wf = true ∧ (∃ w ∈ brokenLoc.words, w.finding = .uncorrectable) ∧ brokenLoc.faulted = false) ∧
      ((parked { loc0 with faulted := true }).store.wf = true ∧ (parked { loc0 with num := 1 }).store.wf = true) := by
  simp only [Location.sound]; decide

/-- Differences 5, 6, 20 and 21 from day 817, NT 450,230, in each discipline state; marks without a day on the local day, the day after and the
day before, and at equal distances. -/
theorem test_witness_MarksSteerTime :
    (lit.resetAsserted = false ∧ lit.trunk.station.isSome ∧ lit.time.disc = .locked ∧ up.time.disc = .unset) ∧
    (863999 < 864000 ∧ 65535 < 65536 ∧ 864000 < 4294967296) ∧ ((64#8).toNat % 64 = 0 ∧ 0 < (1#8).toNat % 64 ∧ lit.trunk.bOut.frames.length < 8) ∧
    ([5, 6, 20, 21].map fun x => (((817 * 864000 + (450230 + x) : Nat) : Int) - ((lit.time.day * 864000 + lit.time.nt : Nat) : Int)).natAbs) =
      [5, 6, 20, 21] ∧
    (∀ d : Discipline, ∀ n : Fin 3, (lit.setTime { timeAt 450230 d with agree := n, outliers := n }).trunk.station.isSome) ∧
    (lit.time.markReads 450235 (some 817) 5 817 ∧ up.time.markReads 863999 none 863999 0 ∧ lit.time.markReads 450235 none 5 817 ∧
      (timeAt 863999 .locked).markReads 1 none 2 818 ∧ (timeAt 0 .locked).markReads 863999 none (-1) 816 ∧
      (timeAt 0 .locked).markReads 432000 none 432000 817) := by
  refine ⟨by decide, by decide, by decide, by decide, fun _ _ => rfl, ?_⟩
  simp only [TimeBase.markReads]
  refine ⟨?_, ?_, ?_, ?_, ?_, ?_⟩ <;> decide

theorem test_witness_SetDaySteps :
    asks running (.setDay src 818#16) ∧ running.time.disc ≠ .unset ∧ running.time.day ≠ (818#16).toNat ∧
      noticeIn running.records.mask .timeStep = false ∧ (running.slot 40).run.isSome ∧ asks up (.setDay src 1#16) ∧ up.time.disc = .unset ∧
      asksAny running (.setDay all 818#16) := by
  simp only [asks_iff, asksAny_iff]; decide

theorem test_witness_TimeAndSlotsAreRead :
    asks lit (.readTime src) ∧ asks running (.readSlot src 40#8) ∧ (running.slot 40).state ≠ .unused ∧ asks running (.readSlot src 63#8) ∧
      (running.slot 63).state = .unused ∧ asks running (.readSlot src 64#8) := by
  simp only [asks_iff]; decide

/-- Group 15 has target 44, of which slot 63 has the record given; hold line 2, which may be ACTIVE, is mapped to it. -/
def placing (level : Level) (l : Location) : State :=
  (((lit.setGroup 15 { lit.group 15 with target := 44, layer := some .event }).setStore { lit.store with held := [{ l with slot := 63 }] }).setHold 2
    ⟨level, 1#64 <<< 63⟩)

/-- Slot 63, intersection 4,095, port 3, drop 16, group 15. -/
theorem test_witness_DefineSlotDefines :
    asks running (.defineSlot src 63#8 4095#16 3#8 16#8 15#8 0#8 1#8) ∧ (running.slot 63).state = .unused ∧
    (∀ k, k ≠ 63 → (running.slot k).state ≠ .unused →
      (running.slot k).intersection ≠ 4095 ∧ ((running.slot k).port ≠ 3 ∨ (running.slot k).drop ≠ 16)) ∧ (running.group 15).target = 0 ∧
    (asks (placing .inactive loc0) (.defineSlot src 63#8 4095#16 3#8 16#8 15#8 0#8 1#8) ∧ ((placing .inactive loc0).slot 63).state = .unused ∧
      (placing .inactive loc0).time.disc ≠ .unset ∧ ((placing .inactive loc0).group 15).target = 44 ∧ (placing .inactive loc0).store.wf = true ∧
      (placing .inactive loc0).store.recordOf 63 44 = some { loc0 with slot := 63 } ∧ (∀ w ∈ loc0.words, w.finding = .clean)) ∧
    (asks (placing .active loc0) (.defineSlot src 63#8 4095#16 3#8 16#8 15#8 0#8 1#8) ∧ ((placing .active loc0).hold 2).level = .active ∧
      slotIn ((placing .active loc0).hold 2).map 63 = true) ∧
    (asks (placing .inactive { loc0 with faulted := true }) (.defineSlot src 63#8 4095#16 3#8 16#8 15#8 0#8 1#8) ∧
      (placing .inactive loc0).store.recordOf 63 45 = none) ∧
    (((placing .inactive loc0).setSlot 63 { Slot.unused with state := .joining }).slot 63).run = none := by
  simp only [asks_iff]; decide

theorem test_witness_ChecksComeInOrder :
    asks running (.defineSlot src 64#8 4096#16 4#8 17#8 16#8 0#8 2#8) ∧ asks running (.defineSlot src 40#8 1#16 0#8 1#8 0#8 0#8 0#8) ∧
    (running.slot 40).state ≠ .unused ∧ asks running (.defineSlot src 12#8 2210#16 0#8 1#8 0#8 0#8 0#8) ∧
    (running.slot 40).intersection = 2210 ∧ asks running (.loadPlan src 64#8 251#8 299#16 299#16 0#8 0#8 0#8 []) ∧
    asks running (.loadPlan src 12#8 1#8 1001#16 350#16 0#8 0#8 1#8 phases24) ∧ legalPlan 1001#16 350#16 1#8 phases24 ∧
    ¬splitsSum 1001#16 phases24 ∧ splitsSum 1000#16 phases24 ∧ (running.slot 12).state = .unused := by
  simp only [asks_iff, legalPlan, splitsSum, phases24]; decide

/-- A slot in TRANSITION, recorded, with an exchange in flight. -/
def releasable : State :=
  (withPort (withSlot { slot40 10 with
      state := .transition, trans := some ⟨.shorten, .event, 42, ⟨817, 450230⟩, 1, 200, false, false, false⟩ }) []
    (some (xchg .window))).setRecords { RecordUnit.cold with filter := 1#64 <<< 40 }

theorem test_witness_ReleaseSlotReleases :
    asks releasable (.releaseSlot src 40#8) ∧ (releasable.slot 40).state ≠ .unused ∧ (releasable.slot 40).trans.isSome ∧
    slotIn releasable.records.filter 40 ∧ releasable.records.ring.length < 128 ∧ (releasable.port 2).exchange.isSome ∧
    (asks running (.releaseSlot src 40#8) ∧ (running.slot 40).trans = none ∧ releasable.records.ring.length + 1 ≤ 128) ∧
    asks releasable (.releaseSlot src 64#8) ∧ asks releasable (.releaseSlot src 63#8) ∧ (releasable.slot 63).state = .unused := by
  simp only [asks_iff]; decide

theorem test_witness_LengtheningGoesToCoordinatedPhase :
    1 ≤ plan44.coord ∧ plan44.coord ≤ plan44.phases.length ∧ (plan44.phases.map Phase.split).sum = plan44.cycle ∧
      (cycleAmount plan44 880 .immediate).1 = false := by decide

theorem test_witness_FixedModesKeepTheirSense :
    0 < plan44.longLimit ∧ 0 < plan44.usable ∧ { plan44 with longPct := 0 }.longLimit = 0 ∧ { plan44 with shortPct := 0 }.usable = 0 ∧
    (plan44.usable = 200 ∧ plan44.longLimit = 300 ∧ 400 ≤ 2 * 200 ∧ (∀ m, m < 2 → m * 200 < 400) ∧ 1000 - 400 ≤ 2 * 300 ∧
      (∀ m, m < 2 → m * 300 < 1000 - 400)) ∧ plan44.phases[plan44.coord - 1]? = some ⟨1, 400, 200⟩ := by decide

/-- Errors 1 and 999; the phases but the coordinated one hold 330 above their minimums. -/
theorem test_witness_CorrectedCyclesAreSound :
    legalPlan 1000#16 350#16 1#8 phases24 ∧ splitsSum 1000#16 phases24 ∧ 999 < (1000#16).toNat ∧ plan44.avail = 330 := by
  simp only [legalPlan, splitsSum, phases24]; decide

/-- Location 1 is the lowest free; plan 250 has no record. -/
theorem test_witness_LoadPlanWritesRecord :
    asks running (.loadPlan src 40#8 250#8 1000#16 350#16 20#8 30#8 1#8 phases24) ∧ legalPlan 1000#16 350#16 1#8 phases24 ∧
    splitsSum 1000#16 phases24 ∧ (running.slot 40).state ≠ .unused ∧ running.store.recordOf 40 250 = none ∧ running.store.wf = true ∧
    running.store.stuck = [] ∧ (∀ l ∈ running.store.held, l.num ≠ 1) ∧ (∀ m, m < 1 → ∃ l ∈ running.store.held, l.num = m) := by
  simp only [asks_iff, legalPlan, splitsSum, phases24]; decide

/-- The shadow of (40, 44) at location 1. -/
def shadow1 : Location := { loc0 with num := 1, occupancy := .shadow }

def shadowed : State := running.setStore { running.store with held := [{ loc0 with link := some 1 }, shadow1] }

/-- The current plan without and with a shadow, and a plan that is not current. -/
theorem test_witness_LoadPlanReplaces :
    asks running (.loadPlan src 40#8 44#8 1000#16 350#16 20#8 30#8 1#8 phases24) ∧ (running.store.recordOf 40 44) = some loc0 ∧
    (running.slot 40).current = 44 ∧ running.store.shadowOf 40 44 = none ∧ running.store.wf = true ∧
    asks spare (.loadPlan src 40#8 7#8 1000#16 350#16 20#8 30#8 1#8 phases24) ∧ spare.store.recordOf 40 7 = some { loc0 with plan := 7 } ∧
    (spare.slot 40).current ≠ 7 ∧ asks shadowed (.loadPlan src 40#8 44#8 1000#16 350#16 20#8 30#8 1#8 phases24) ∧
    shadowed.store.wf = true ∧ shadowed.store.shadowOf 40 44 = some shadow1 := by
  simp only [asks_iff]; decide

theorem shadowed_keyed : shadowed.store.keyed := by
  refine ⟨?_, ?_, ?_⟩
  · simp only [Location.sameKey]; decide
  · simp only [Location.sameKey]; decide
  · intro r hr ho n hn
    have h : r = { loc0 with link := some 1 } ∨ r = shadow1 := by simpa [shadowed, State.setStore] using hr
    rcases h with rfl | rfl
    · exact ⟨shadow1, by decide, rfl, by simpa [shadow1] using hn, rfl, rfl⟩
    · cases ho

theorem test_witness_DropPlanDrops :
    asks running (.dropPlan src 40#8 44#8 0#8) ∧ running.store.wf = true ∧ asks spare (.dropPlan src 40#8 7#8 0#8) ∧ spare.store.wf = true ∧
    (spare.slot 40).target ≠ 7 ∧ asks shadowed (.dropPlan src 40#8 44#8 1#8) ∧ asks running (.dropPlan src 40#8 250#8 1#8) ∧
    running.store.shadowOf 40 250 = none ∧ asks running (.dropPlan src 64#8 251#8 2#8) := by
  simp only [asks_iff]; decide

theorem test_witness_ReadPlanReads :
    asks running (.readPlan src 40#8 44#8 0#8) ∧ running.store.wf = true ∧ running.store.corrected ≤ 65535 ∧ loc0.faulted = false ∧
    (∀ w ∈ loc0.words, w.finding = .clean) ∧ asks running (.readPlan src 63#8 0#8 1#8) ∧ asks running (.readPlan src 40#8 250#8 0#8) ∧
    running.store.recordOf 40 250 = none ∧ asks running (.readPlan src 64#8 251#8 2#8) ∧
    asks broken (.readPlan src 40#8 44#8 0#8) ∧ broken.store.recordOf 40 44 = some brokenLoc ∧ broken.store.wf = true ∧
    (∃ w ∈ brokenLoc.words, w.finding = .uncorrectable) ∧ asks flipped (.readPlan src 40#8 44#8 0#8) ∧
    flipped.store.recordOf 40 44 = some flippedLoc ∧ flippedLoc.sound ∧ flippedLoc.fixed = 1 ∧ flipped.store.stuck = [] ∧
    asks shadowed (.readPlan src 40#8 44#8 1#8) ∧ shadowed.store.keyed ∧ shadowed.store.shadowOf 40 44 = some shadow1 ∧
    running.store.shadowOf 40 44 = none := by
  have h := shadowed_keyed
  simp only [asks_iff, h, Location.sound, true_and]; decide

theorem test_witness_PlanImageRoundTrip :
    1 ≤ 250 ∧ 1023 < 1024 ∧ legalPlan 1000#16 350#16 1#8 phases24 := by
  simp only [legalPlan, phases24]; decide

/-- Ranges of 64 and of 65 locations, the last location, and an empty range. -/
theorem test_witness_ChecksumSums :
    asks running (.checksumPlans src 0#16 63#16 0#16) ∧ asks running (.checksumPlans src 0#16 64#16 0#16) ∧
    asks running (.checksumPlans src 1023#16 1023#16 0#16) ∧ asks running (.checksumPlans src 1#16 0#16 0#16) ∧ running.store.wf = true ∧
    loc0 ∈ running.store.held ∧ loc0.faulted = false ∧ (∀ w ∈ loc0.words, w.finding = .clean) ∧ running.store.stuck = [] ∧
    asks flipped (.checksumPlans src 0#16 63#16 0#16) ∧ flipped.store.wf = true ∧ flipped.store.stuck = [] ∧
    asks broken (.checksumPlans src 0#16 63#16 0#16) ∧ broken.store.held = [brokenLoc] := by
  simp only [asks_iff]; decide

/-- Bit 15 of word 31 of location 1023 is stuck high. -/
def stuckAt (cells : List StuckBit) : State := running.setStore { running.store with stuck := cells }

def stuck : State := stuckAt [⟨1023, 31, 15, true⟩]

theorem test_witness_TestLocationTests :
    asks stuck (.testLocation src 1023#16) ∧ stuck.store.wf = true ∧ (∀ l ∈ stuck.store.held, l.num ≠ 1023) ∧ (31 < 32 ∧ 15 < 16) ∧
    (asks running (.testLocation src 0#16) ∧ ∀ b ∈ running.store.stuck, b.num ≠ 0) ∧
    (asks (stuckAt [⟨1023, 31, 16, false⟩]) (.testLocation src 1023#16) ∧ (checkBits 0x5555#16).getLsbD 0 = true) ∧
    (asks (stuckAt [⟨1023, 31, 17, true⟩]) (.testLocation src 1023#16) ∧ (checkBits 0x5555#16).getLsbD 1 = true ∧
      (checkBits 0xAAAA#16).getLsbD 1 = false) ∧
    ((checkBits 0x5555#16).getLsbD 0 = true ∧ (checkBits 0xAAAA#16).getLsbD 0 = true ∧
      (asks (stuckAt [⟨1023, 0, 16, true⟩]) (.testLocation src 1023#16) ∧ (checkBits 32736#16).getLsbD 0 = true) ∧
      asks (stuckAt [⟨1023, 1, 16, true⟩]) (.testLocation src 1023#16) ∧ (checkBits 32737#16).getLsbD 0 = false) ∧
    asks (stuckAt [⟨1023, 0, 0, false⟩, ⟨1023, 0, 15, true⟩]) (.testLocation src 1023#16) ∧
    (running.slot 40).current = loc0.plan ∧ asks spare (.testLocation src 0#16) ∧
    (spare.slot 40).target ≠ 7 ∧ asks running (.testLocation src 1024#16) := by
  simp only [asks_iff]; decide

theorem test_witness_ForceCheckFlips :
    asks running (.forceCheck src 0#16 31#8 5#8 0xFF#8) ∧ running.store.wf = true ∧ running.store.stuck = [] ∧ loc0 ∈ running.store.held ∧
    asks running (.forceCheck src 1023#16 0#8 0#8 5#8) ∧ (∀ l ∈ running.store.held, l.num ≠ 1023) ∧
    asks running (.forceCheck src 1024#16 32#8 6#8 6#8) := by
  simp only [asks_iff]; decide

def failed : State := lit.setLogOut (some ⟨700, .data, 2, 13, 0x0040#16, 0#6, ⟨817, 450230⟩⟩)

theorem test_witness_ScrubControlAndLogout :
    asks lit (.scrubControl src 1#8) ∧ asks lit (.scrubControl src 2#8) ∧ asks lit (.readLogout src) ∧ lit.logOut = none ∧
    asks failed (.readLogout src) ∧ failed.logOut = some ⟨700, .data, 2, 13, 0x0040#16, 0#6, ⟨817, 450230⟩⟩ := by
  simp only [asks_iff]; decide

/-- Group 5 is HELD under WAIT by slot 40; slot 12 is in the group too. -/
def waiting : State :=
  (overridden.setGroup 5 { overridden.group 5 with policy := .wait, state := .held, target := 45 }).setSlot 12
    { Slot.unused with group := 5, state := .joining }

theorem test_witness_SetGroupSettles :
    asks running (.setGroup src 15#8 250#8 1#8 3#8 20#8 60#8) ∧ running.time.disc ≠ .unset ∧ asks up (.setGroup src 0#8 0#8 0#8 0#8 0#8 1#8) ∧
    (up.group 0).policy ≠ .wait ∧ up.time.disc = .unset ∧ asks running (.setGroup src 5#8 44#8 1#8 0#8 2#8 15#8) ∧
    (running.member 40).any (fun m => m.group == 5) ∧ (running.slot 40).state ≠ .unused ∧ asks lit (.setGroup src 16#8 251#8 2#8 4#8 0#8 0#8) ∧
    (asks up (.setGroup src 0#8 0#8 1#8 0#8 0#8 1#8) ∧ (up.group 0).policy = .leave) ∧
    (running.member 40 = some ⟨5, .coordinated, 44⟩ ∧ (running.group 5).target = 0 ∧ (running.group 5).state = .steady) ∧
    (let wanting := waiting.setGroup 5 { waiting.group 5 with policy := .leave, adopted := true }
     waiting.member 40 = some ⟨5, .overridden, 44⟩ ∧ (waiting.group 5).policy = .wait ∧ (waiting.group 5).state = .held ∧
       (waiting.slot 12).group = 5 ∧ (wanting.setMember 40 (some ⟨5, .joining, 44⟩)).member 40 = some ⟨5, .joining, 44⟩ ∧
       (wanting.group 5).adopted = true ∧ (waiting.group 5).adopted = false) ∧
    ((atLimit.group 5).state ≠ .steady ∧ ({ atLimit.group 5 with reported := true } : Group).reported = true) ∧
    (∀ i, (running.member i).any (fun m => m.group == 5) → ¬((running.slot i).state = .joining ∧ (running.slot i).run = none)) := by
  simp only [asks_iff]; decide

/-- Every slot is a member of group 5. -/
def crowd : State := { running with members := Vector.replicate 64 (some ⟨5, .joining, 0⟩) }

def nineDays : State := lit.setTables { Timetable.cold with calendar := (List.range 9).map fun d => ⟨d, 0⟩ }

theorem test_witness_GroupsAndTimetablesAreRead :
    asks running (.readGroup src 5#8 0#8) ∧ asks running (.readGroup src 15#8 63#8) ∧ asks running (.readGroup src 16#8 64#8) ∧
    asks base3 (.readTimetable src 1#8 383#16) ∧ asks base3 (.readTimetable src 1#8 384#16) ∧ asks base3 (.readTimetable src 5#8 0#16) ∧
    asks up (.readTimetable src 4#8 15#16) ∧ asks base3 (.readTimetable src 3#8 15#16) ∧ asks base3 (.readTimetable src 3#8 4095#16) ∧
    (asks nineDays (.readTimetable src 0#8 0#16) ∧ (nineDays.tables.calendar.filter fun e => decide (0 ≤ e.day)).length = 9) ∧
    32 < ((List.finRange 64).filter fun i => (crowd.member i).any (fun m => m.group == 5)).length ∧ asks crowd (.readGroup src 5#8 0#8) := by
  simp only [asks_iff]; decide

/-- Group 5 in TRANSITION, one minute below its limit, at the last tick of a minute with time set; its member runs no cycle. -/
def changing : State :=
  ((up.setTime (timeAt 599 .locked)).setGroup 5
    { Group.cold with state := .transition, elapsed := 14, target := 44, adopted := true, defaultPlan := 44 }).setMember 40 (some ⟨5, .transition, 44⟩)

theorem test_witness_LimitForcesTransitions :
    atLimit.resetAsserted = false ∧ (atLimit.group 5).limit ≤ (atLimit.group 5).elapsed ∧ (atLimit.group 5).reported = false ∧
    (atLimit.member 40).any (fun m => m.group == 5 && m.state == .transition) ∧ (atLimit.group 6).elapsed < (atLimit.group 6).limit ∧
    noticeIn atLimit.records.mask .groupLimit = false ∧ ((atLimit.group 5).state ≠ .steady ∧ (atLimit.group 6).state = .steady) ∧
    ((up.setTime (timeAt 599 .unset)).resetAsserted = false ∧ (timeAt 599 .unset).disc = .unset ∧
      (∀ i, ((up.setTime (timeAt 599 .unset)).slot i).run = none) ∧ ¬(up.setTime (timeAt 599 .unset)).sameMinute) ∧
    ((changing.resetAsserted = false ∧ changing.time.disc ≠ .unset ∧ ¬changing.sameMinute) ∧ (∀ i, (changing.slot i).run = none) ∧
      changing.time.wraps changing.time.amount = false ∧
      ((changing.setTime changing.time.tick).timetableMinute 817 1).group 5 =
        { Group.cold with state := .transition, elapsed := 14, target := 44, adopted := true, defaultPlan := 44, layer := some .default, targetMode := some .best }) ∧
    ((limitMinute.resetAsserted = false ∧ limitMinute.time.disc = .unset ∧ ¬limitMinute.sameMinute) ∧
      (∀ j, j ≠ 40 → (limitMinute.slot j).run = none) ∧ limitMinute.member 40 = some ⟨5, .transition, 44⟩ ∧
      40 ∈ ((limitMinute.setTime limitMinute.time.tick).groupMinute 5).2) := by
  simp only [State.sameMinute]; decide

theorem test_witness_ConditionsActWhenTheyStand :
    (lit.setTime { timeAt 0 .locked with age := 60 }).time.age = 60 ∧ (eventEnds.time.disc ≠ .unset ∧ eventEnds.tables.events ≠ []) ∧
    ((cueAt 808800).tables.active.get 3 = some ⟨17, 35, 6, 706696320⟩ ∧ 706696320 ≤ 817 * 864000 + 808800 / 600 * 600) ∧
    706696320 > 817 * 864000 + 808200 / 600 * 600 ∧ directAt.tables.direct.get 3 = some ⟨9, some 706696800⟩ ∧
    706696800 ≤ 817 * 864000 + 808800 / 600 * 600 ∧ directAt.resetAsserted = false ∧ lit.sameMinute ∧
    (¬(cueAt 808799).sameMinute ∧ (cueAt 808799).time.disc ≠ .unset ∧ (cueAt 808799).time.tick.day ≠ 0) ∧
    (let wrapping := lit.setTime { timeAt 863999 .locked with day := 65535 }
     ¬wrapping.sameMinute ∧ wrapping.time.disc ≠ .unset ∧ wrapping.time.day = 65535 ∧ wrapping.time.tick.day = 0) := by
  simp only [State.sameMinute]; decide

def held817 : State := lit.setTables { Timetable.cold with calendar := [⟨817, 7⟩] }

/-- Days 0 to 47. -/
def fullCalendar : State := lit.setTables { Timetable.cold with calendar := (List.range 48).map fun d => ⟨d, 0⟩ }

theorem test_witness_SetCalendarSets :
    asks held817 (.setCalendar src 817#16 0#8 7#8) ∧ held817.tables.ordered ∧ asks held817 (.setCalendar src 65535#16 0#8 7#8) ∧
    asks held817 (.setCalendar src 817#16 1#8 0#8) ∧ asks held817 (.setCalendar src 0#16 2#8 0#8) ∧
    asks held817 (.setCalendar src 0#16 0#8 8#8) ∧ asks fullCalendar (.setCalendar src 48#16 0#8 0#8) ∧ fullCalendar.tables.ordered ∧
    fullCalendar.tables.calendar.length = 48 ∧ asksAny held817 (.setCalendar all 818#16 0#8 7#8) := by
  simp only [asks_iff, asksAny_iff, Timetable.ordered]; decide

theorem test_witness_AddBaseAdds :
    asks base3 (.addBase src 15#8 0xFF#8 1439#16 250#8 0xFF#8) ∧ base3.tables.ordered ∧ knownMode 0xFF#8 ∧ knownMode 3#8 ∧ ¬knownMode 4#8 ∧
    (∀ e ∈ base3.tables.base, e.id ≠ 1) ∧ (∀ m, m < 1 → ∃ e ∈ base3.tables.base, e.id = m) ∧
    asks base3 (.addBase src 3#8 0x40#8 360#16 1#8 0#8) ∧ (∃ e ∈ base3.tables.base, e.group.val = 3 ∧ e.start = 360 ∧ 0x40#8 &&& e.mask ≠ 0#8) ∧
    asks base3 (.addBase src 16#8 0#8 1440#16 0#8 4#8) := by
  simp only [asks_iff, Timetable.ordered, knownMode]; decide

/-- A span of 20,160 minutes, an end in the present minute, and an empty span. -/
theorem test_witness_AddEventAdds :
    asks base3 (.addEvent src 15#8 817#16 750#16 831#16 750#16 250#8 7#8 3#8) ∧ base3.tables.ordered ∧
    (((831 : Int) - 817) * 1440 + (750 - 750) = 20160) ∧ ¬pairAtOrBefore 831 750 base3.time.day (base3.time.nt / 600) ∧
    asks base3 (.addEvent src 3#8 816#16 0#16 817#16 750#16 1#8 0#8 0#8) ∧ pairAtOrBefore 817 750 base3.time.day (base3.time.nt / 600) ∧
    asks base3 (.addEvent src 3#8 817#16 760#16 817#16 760#16 1#8 0#8 0#8) ∧ (∀ e ∈ base3.tables.events, e.id ≠ 0) := by
  simp only [asks_iff, Timetable.ordered, pairAtOrBefore]; decide

theorem test_witness_CutEntryCuts :
    asks base3 (.cutEntry src 0#8 0#16) ∧ base3.tables.ordered ∧ (∃ e ∈ base3.tables.base, e.id = 0) ∧ asks base3 (.cutEntry src 0#8 383#16) ∧
    (∀ e ∈ base3.tables.base, e.id ≠ 383) ∧ asks base3 (.cutEntry src 0#8 384#16) ∧ asks eventEnds (.cutEntry src 1#8 0#16) ∧
    eventEnds.tables.ordered ∧ (∃ e ∈ eventEnds.tables.events, e.id = 0) ∧ asks eventEnds (.cutEntry src 1#8 64#16) ∧
    asks eventEnds (.cutEntry src 2#8 0#16) := by
  simp only [asks_iff, Timetable.ordered]; decide

theorem test_witness_CueTableEdits :
    asks cueTable (.setCue src 255#8 15#8 250#8 721#16 7#8) ∧ cueTable.tables.ordered ∧ asks cueTable (.setCue src 17#8 3#8 1#8 0#16 0#8) ∧
    (∃ e ∈ cueTable.tables.cues, e.number = 17 ∧ e.group.val = 3) ∧ asks cueTable (.setCue src 0#8 16#8 0#8 0#16 8#8) ∧
    asks cueTable (.cutCue src 17#8 3#8) ∧ asks cueTable (.cutCue src 17#8 15#8) ∧ asks cueTable (.cutCue src 0#8 16#8) := by
  simp only [asks_iff, Timetable.ordered]; decide

theorem test_witness_DirectSelectionsMove :
    asks base3 (.directPlan src 15#8 250#8 1440#16) ∧ base3.time.disc ≠ .unset ∧ asks up (.directPlan src 0#8 1#8 0#16) ∧
    asks up (.directPlan src 0#8 1#8 1#16) ∧ up.time.disc = .unset ∧ asks up (.directPlan src 16#8 251#8 0#16) ∧
    asks directAt (.endDirect src 3#8) ∧ directAt.tables.direct.get 3 ≠ none ∧ asks directAt (.endDirect src 15#8) ∧
    directAt.tables.direct.get 15 = none ∧ asks directAt (.endDirect src 16#8) := by
  simp only [asks_iff]; decide

theorem test_witness_CueFramesAct :
    cueTable.resetAsserted = false ∧ cueTable.trunk.station.isSome ∧ cueTable.tables.ordered ∧ cueTable.time.disc ≠ .unset ∧
    (∃ e ∈ cueTable.tables.cues, e.number = 17) ∧ cueTable.tables.active.get 3 = none ∧ 0 < (64 + 1) % 64 ∧
    (cueAt 790000).tables.active.get 3 = some ⟨17, 35, 6, 706696320⟩ ∧ 3 < 6 ∧ up.time.disc = .unset := by
  simp only [Timetable.ordered]; decide

/-- The layers of Table 6-2 at the boundaries of their minutes. -/
theorem test_witness_LayersSelectInOrder :
    (∃ d, directAt.tables.direct.get 3 = some d ∧ d.endR = some 706696800) ∧ 817 * 864000 + 1347 * 600 < 706696800 ∧
    (cueAt 0).tables.active.get 3 = some ⟨17, 35, 6, 706696320⟩ ∧ 817 * 864000 + 1347 * 600 < 706696320 ∧ (cueAt 0).tables.direct.get 3 = none ∧
    eventEnds.tables.eventLayer 3 817 1379 = some ⟨0, 3, 817, 1170, 817, 1380, 31, 4, none⟩ ∧
    eventEnds.tables.eventLayer 3 817 1380 = none ∧ base3.tables.baseLayer 3 817 360 = some ⟨0, 3, 0x60#8, 360, 21, none⟩ ∧
    base3.tables.baseLayer 3 817 359 = none := by
  refine ⟨⟨⟨9, some 706696800⟩, ?_⟩, ?_⟩ <;> decide

theorem test_witness_BaseAndEventLayersSelect :
    base3.tables.ordered ∧ base3.tables.noClash ∧ (∃ e ∈ base3.tables.base, e.group = 3 ∧ e.mask.getLsbD (817 % 7) = true ∧ e.start ≤ 360) ∧
    (¬∃ e ∈ base3.tables.base, e.start ≤ 359) ∧ eventEnds.tables.ordered ∧ pairAtOrBefore 817 1170 817 1170 ∧ ¬pairAtOrBefore 817 1380 817 1379 := by
  simp only [Timetable.ordered, Timetable.noClash, pairAtOrBefore]; decide

theorem test_witness_PortRequests :
    asks lit (.setPort src 3#8 201#16 0#8) ∧ asks lit (.setPort src 0#8 0#16 1#8) ∧ asks lit (.setPort src 4#8 60#16 2#8) ∧
    asks lit (.readPort src 3#8) ∧ (lit.port 3).exchange = none ∧ asks lit (.readPort src 4#8) ∧
    asks (withPort running [] (some (xchg .window))) (.readPort src 2#8) ∧ (xchg .window).elapsed ≤ (xchg .window).window ∧
    asks (withPort running [] (some (xchg .sending))) (.readPort src 2#8) := by
  simp only [asks_iff]; decide

theorem test_witness_ExchangesRun :
    running.resetAsserted = false ∧ (running.port 2).queue = [] ∧ (withPort running [⟨40, sync40⟩] none).resetAsserted = false ∧
    ((withPort running [⟨40, sync40⟩] none).port 2).queue = [⟨40, sync40⟩] ∧ ((withPort running [⟨40, sync40⟩] none).port 2).state = .idle ∧
    (running.port 2).directionAsserted = false ∧ ((withPort running [] (some (xchg .sending))).port 2).exchange = some (xchg .sending) ∧
    (xchg .sending).phase = .sending ∧
    (let s := (withPort lit [⟨40, sync40⟩] none).setStore { lit.store with scrubOn := false }
     s.resetAsserted = false ∧ s.sameMinute ∧ s.store.scrubOn = false ∧ (∀ i, (s.slot i).run = none) ∧
       (s.port 2).directionAsserted = false ∧ (withPort lit [] (some (xchg .sending)) |>.port 2).directionAsserted = true) := by
  simp only [State.sameMinute]; decide

/-- A LOST slot whose SYNC is in flight. -/
def lost : State := withPort (withSlot { slot40 10 with state := .lost, missRun := 3 }) [] (some (xchg .window))

/-- A slot in TRANSITION with two misses, whose SYNC is in flight. -/
def missing : State := withPort (withSlot { slot40 10 with
    state := .transition, missRun := 2, mode := .latched
    trans := some ⟨.shorten, .event, 42, ⟨817, 450230⟩, 1, 200, false, false, false⟩ }) [] (some (xchg .window))

/-- A good STATUS is (5, 2210, 44, 3); others differ in one field. The slot is LOST, JOINING, in TRANSITION before its third miss, or without a
position; the exchange is detached, or open. -/
theorem test_witness_StatusEndsExchange :
    statusInRange 5#8 2210#16 44#8 0#8 = true ∧ statusInRange 16#8 4095#16 250#8 3#8 = true ∧
    ((0#8).toNat = fieldOverrideCode .none ∧ (1#8).toNat = fieldOverrideCode .preempt ∧ (2#8).toNat = fieldOverrideCode .flash ∧
      (3#8).toNat = fieldOverrideCode .localTiming) ∧
    ((withPort running [] (some (xchg .window))).port 2).directionAsserted = false ∧
    ((withPort running [] (some (xchg .window))).port 2).exchange = some (xchg .window) ∧ (xchg .window).drop = 5 ∧
    (xchg .window).detached = false ∧ (running.slot 40).run.isSome ∧ (running.slot 40).state ≠ .unused ∧ (xchg .window).intersection = 2210 ∧
    (xchg .window).plan = 44 ∧ (xchg .window).count = 3 ∧ (running.port 2).exchange = none ∧
    (lost.slot 40).state = .lost ∧ (lost.slot 40).run.isSome ∧ causeIn (lost.slot 40).causes .field = false ∧
    ((missing.slot 40).state = .transition ∧ (missing.slot 40).missRun = 2 ∧ (missing.slot 40).trans.isSome ∧
      (missing.port 2).exchange = some (xchg .window) ∧ (missing.slot 40).mode = .latched) ∧
    ((lit.slot 40).state = .unused ∧ ((withPort lit [] (some (xchg .window))).port 2).exchange = some (xchg .window)) ∧
    ((withSlot { slot40 10 with state := .joining }).slot 40).run.isSome ∧
    { xchg .window with detached := true }.detached = true ∧ (¬[0x7D#8, 0x7E#8] <:+: [0x7E#8]) ∧ receiveField [0x7E#8] = none ∧
    (((withPort running [] (some (xchg .sending))).port 2).directionAsserted = true ∧ running.resetAsserted = false) ∧
    (0x21#8 ≠ 0x23#8 ∧ 16 < (17#8).toNat ∧ 4095 < (4096#16).toNat ∧ 250 < (251#8).toNat ∧ 3 < (4#8).toNat ∧
      0#16 ≠ crc16 [0x23#8, 5#8] ∧ (unescape [0x23#8, 5#8]).length < 9) ∧
    receiveField statusBytes ≠ none ∧ ((withPort overridden [] (some (xchg .window))).slot 40).state = .overridden := by decide

theorem test_witness_WindowsAndLines :
    (running.port 2).exchange = none ∧ lost.resetAsserted = false ∧ (lost.port 2).exchange = some (xchg .window) ∧
    (xchg .window).phase = .window ∧ (xchg .window).detached = false ∧ (lost.slot 40).run.isSome ∧ (lost.slot 40).state ≠ .unused ∧
    (lost.slot 40).state ≠ .joining ∧ ((missing.slot 40).state = .transition ∧ (missing.slot 40).missRun = 2) ∧
    (lit.slot 40).state = .unused ∧ { xchg .window with detached := true }.detached = true ∧
    (lost.port 2).queue = [] ∧ (lost.port 2).directionAsserted = false ∧ (lost.port 2).state ≠ .blocked ∧ blocked.resetAsserted = false ∧
    (blocked.port 2).state = .blocked ∧ (blocked.port 2).queue = [⟨40, sync40⟩] := by decide

theorem test_witness_HoldEdges :
    mapped.resetAsserted = false ∧ (mapped.hold 2).level = .inactive ∧ slotIn (mapped.hold 2).map 40 = true ∧
    (mapped.slot 40).state ≠ .unused ∧ causeIn (mapped.slot 40).causes (.hold 2) = false ∧ (mapped.slot 40).run.isSome ∧
    slotIn (mapped.hold 2).map 63 = false ∧ ((overridden.setHold 2 ⟨.active, 1#64 <<< 40⟩).hold 2).level = .active ∧
    (OverrideCause.field ≠ .hold 2) ∧
    (let moving := (atLimit.setHold 2 ⟨.inactive, 1#64 <<< 40⟩).setRecords { RecordUnit.cold with filter := 1#64 <<< 40 }
     (moving.slot 40).trans.isSome ∧ slotIn moving.records.filter 40 = true ∧ moving.records.ring.length + 64 ≤ 128 ∧
       (moving.slot 40).state ≠ .overridden ∧ (moving.slot 40).run.isSome ∧ moving.resetAsserted = false) ∧
    (let again := overridden.setHold 1 ⟨.inactive, 1#64 <<< 40⟩
     again.resetAsserted = false ∧ (again.slot 40).state = .overridden ∧ causeIn (again.slot 40).causes (.hold 1) = false ∧
       (again.slot 40).mode = .latched) ∧
    (let waits := (lit.setSlot 12 { Slot.unused with state := .joining }).setHold 1 ⟨.inactive, 1#64 <<< 12⟩
     waits.resetAsserted = false ∧ (waits.slot 12).state = .joining ∧ (waits.slot 12).run = none ∧ slotIn (waits.hold 1).map 12 = true) := by
  decide

theorem test_witness_HoldMapsAndLatches :
    asks mapped (.setHoldMap src 3#8 0#64) ∧ (mapped.hold 3).level = .inactive ∧ asks mapped (.setHoldMap src 4#8 0#64) ∧
    asks (running.setHold 2 ⟨.active, 0#64⟩) (.setHoldMap src 2#8 (1#64 <<< 40)) ∧ slotIn (1#64 <<< 40) 40 = true ∧ slotIn 0#64 40 = false ∧
    ((running.slot 40).state ≠ .overridden ∧ (running.slot 40).run.isSome ∧ causeIn (running.slot 40).causes (.hold 2) = false) ∧
    asks (overridden.setHold 2 ⟨.active, 1#64 <<< 40⟩) (.setHoldMap src 2#8 0#64) ∧
    asks overridden (.clearOverride src 40#8) ∧ (overridden.slot 40).state = .overridden ∧ (overridden.slot 40).mode = .latched ∧
    asks running (.clearOverride src 40#8) ∧ (running.slot 40).mode = .perCycle ∧ asks running (.clearOverride src 63#8) ∧
    (running.slot 63).state = .unused ∧ asks running (.clearOverride src 64#8) := by
  simp only [asks_iff]; decide

def busy : State :=
  lit.setMgmt { Management.cold with engine := .carrying ⟨src, 0x01#8, []⟩, queue := List.replicate 4 ⟨src, 0x01#8, []⟩ }

/-- A queue of none and of four requests; requests to stations 41, 0 and 42; a pass-through station; a broadcast READ_TIME; A-out full. -/
theorem test_witness_RequestsQueue :
    lit.resetAsserted = false ∧ lit.trunk.station = some 41#8 ∧ (List.replicate 237 0#8).length ≤ 237 ∧ lit.mgmt.queue.length < 4 ∧
    4 ≤ busy.mgmt.queue.length ∧ busy.trunk.aOut.frames.length < 8 ∧ (42#8 ≠ 41#8 ∧ 42#8 ≠ 0#8) ∧ 0 < (1#8).toNat % 64 ∧
    (let passing := lit.setTrunk { lit.trunk with strap := 251#8 }
     passing.resetAsserted = false ∧ passing.trunk.station = none ∧ passing.trunk.bOut.frames.length < 8) ∧
    (encodeRequest (.readTime src)).isSome ∧ (Instr.readTime all).wellFormed = true ∧ asksAny lit (.readTime all) ∧
    (0x01#8 ≠ 0x02#8 ∧ 0x01#8 ≠ 0x40#8 ∧ 0x01#8 ≠ 0x71#8) ∧ fullA.carries ⟨src, 0x01#8, []⟩ = true ∧
    8 ≤ fullA.trunk.aOut.frames.length ∧ (Instr.readTime src).wellFormed = true ∧ lit.trunk.aOut.frames.length < 8 ∧ 8 ≤ (busy.setTrunk fullA.trunk).trunk.aOut.frames.length := by
  simp only [asksAny_iff]; decide

theorem test_witness_TrunkFramesAreReceived :
    (List.replicate 240 0x7E#8).length ≤ 240 ∧ lit.resetAsserted = false ∧ someFrame.crc + 1#16 ≠ someFrame.crc ∧
    0 < (1#8).toNat % 64 ∧ (64#8).toNat % 64 = 0 ∧ lit.trunk.aOut.frames.length < 8 ∧ 8 ≤ fullA.trunk.aOut.frames.length ∧
    lit.trunk.station = some 41#8 ∧ (0x55#8 ∉ [0x01#8, 0x02#8, 0x03#8, 0x10#8, 0x11#8]) ∧ ([1#8, 2#8] : List Byte).length < 3 := by decide

theorem test_witness_RepliesAndStation :
    fullA.trunk.aOut.frames = someFrame :: List.replicate 7 someFrame ∧ lit.trunk.aOut.frames = [] ∧ lit.trunk.bOut.frames = [] ∧
    (held.mgmt.engine = .replyWait ⟨src, 0x01#8, []⟩ someFrame ∧ held.trunk.aOut.frames.length < 8) ∧ 8 ≤ fullA.trunk.aOut.frames.length ∧
    (encodeRequest (.readStation src 0#8)).any (fun r => fullA.carries r && !r.src.broadcast) ∧
    asks lit (.readStation src 0#8) ∧ asks lit (.readStation src 1#8) ∧ asks lit (.readStation src 2#8) ∧
    asks lit (.unknownRequestCode src 0x99#8 []) ∧ (0x99#8 ≠ 0x20#8) ∧ paramLength 0x99#8 ≠ some 0 ∧
    asks lit (.unknownRequestCode src 0x20#8 (List.replicate 9 2#8)) ∧ asks lit (.unknownRequestCode src 0x20#8 (List.replicate 19 2#8)) ∧
    (List.replicate 19 2#8)[9]? = some 2#8 ∧ 19 ≠ 10 + 5 * 2 ∧ asks lit (.unknownRequestCode src 0x71#8 [2#8]) ∧ lit.mgmt.engine = .idle := by
  simp only [asks_iff]; decide

def restarting : State :=
  (running.setMgmt { Management.cold with restart := some (.cold, someFrame) }).setTrunk
    { running.trunk with aOut := ⟨[{ someFrame with station := 9#8 }, someFrame], 0, 0⟩ }

theorem test_witness_RestartsTakeEffect :
    asks running (.restartWarm src pins) ∧ asks running (.restartCold src) ∧
    (encodeRequest (.restartWarm src pins)).any (fun r => fullA.carries r && !r.src.broadcast && decide (8 ≤ fullA.trunk.aOut.frames.length)) ∧ (running.resetAsserted = false ∧ running.mgmt.restart = none) ∧
    (∃ reply, (running.setMgmt { Management.cold with restart := some (.warm, reply) }).mgmt.restart = some (.warm, reply)) ∧
    (running.slot 40).state ≠ .unused ∧ (running.slot 63).state = .unused ∧ restarting.mgmt.restart = some (.cold, someFrame) ∧
    restarting.mgmt.engine = .idle ∧ restarting.trunk.aOut.frames = { someFrame with station := 9#8 } :: [someFrame] ∧ someFrame ∈ [someFrame] ∧
    (restarting.setTrunk { restarting.trunk with aOut := ⟨[someFrame], 0, 0⟩ }).trunk.aOut.frames = someFrame :: [] ∧ someFrame ∉ ([] : List TrunkFrame) ∧
    asksAny running (.restartWarm all pins) ∧ someFrame ∉ running.trunk.aOut.frames ∧ running.trunk.aOut.frames = [] ∧
    shadowed.store.wf = true ∧ shadowed.store.keyed := by
  have h := shadowed_keyed
  simp only [asks_iff, asksAny_iff, h, and_true]
  refine ⟨?_, ?_, ?_, ?_, ⟨someFrame, rfl⟩, ?_⟩ <;> decide

theorem test_witness_RecordSettings :
    asks running (.setRecording src 1#64 0#8 0#8) ∧ asks running (.setRecording src 1#64 255#8 1#8) ∧
    asks running (.setRecording src 1#64 1#8 0#8) ∧ running.records.countDown = 0 ∧ asks running (.setRecording src 1#64 1#8 2#8) ∧
    (running.setRecords station41).records.countDown = 1 ∧ lit.records.reload = 0 ∧
    (lit.setRecords { RecordUnit.cold with reload := 3 }).records.countDown = 0 := by
  simp only [asks_iff]; decide

theorem test_witness_NoticeMaskReplaced :
    asks running (.setNoticeMask src 0xFFFF#16) ∧ noticeIn ((RecordUnit.cold.setMask 0x800#16).mask) .recordCount = true := by
  simp only [asks_iff]; decide

theorem test_witness_RecordsAreKeptAndRead :
    slotIn station41.filter 12 = false ∧ slotIn station41.filter rec40.slot = true ∧ (List.replicate 127 rec40).length < 128 ∧
    (0 < station41.reload ∧ station41.countDown = 1) ∧ asks lit (.readRecords src 0#8) ∧ asks lit (.readRecords src 7#8) ∧
    asks lit (.readRecords src 1#8) ∧ asks lit (.readRecords src 6#8) ∧ asks lit (.readNotices src) := by
  simp only [asks_iff]; decide

theorem test_witness_RequestsRoundTrip :
    (Instr.readTime src).wellFormed = true ∧ encodeRequest (.readTime src) = some ⟨src, 0x01#8, []⟩ ∧
    (Instr.loadPlan src 40#8 44#8 1000#16 350#16 20#8 30#8 1#8 phases24).wellFormed = true ∧
    (Instr.unknownRequestCode src 0x02#8 []).wellFormed = true := by decide

def ticking : State := running.setPending [.tick []]

/-- Slot 40 is one tick before its boundary. -/
theorem test_witness_RangesKept :
    (∃ t, step ticking = .next t) ∧ ticking.time.inRange ∧ ticking.queuesBounded ∧ ticking.mgmt.settled ∧ ticking.records.sound := by
  refine ⟨⟨_, rfl⟩, ?_, ?_, fun _ _ => rfl, ?_⟩
  · refine ⟨?_, ?_, ?_, ?_, ?_, ?_, ?_, ?_, fun d h => by cases h⟩ <;> decide
  · simp only [State.queuesBounded]; decide
  · simp only [RecordUnit.sound]; decide

theorem test_witness_TablesKept :
    (∃ t, step (base3.setPending [.cutEntry src 0#8 0#16]) = .next t) ∧ base3.tables.ordered ∧ base3.tables.noClash := by
  refine ⟨⟨_, rfl⟩, ?_⟩
  simp only [Timetable.ordered, Timetable.noClash]; decide

theorem test_witness_SlotShapesKept :
    (∃ t, step ticking = .next t) ∧ ∀ i, (ticking.slot i).shaped := by
  refine ⟨⟨_, rfl⟩, ?_⟩
  simp only [Slot.shaped]; decide

theorem test_witness_StoreLawKept :
    (∃ t, step ticking = .next t) ∧ ticking.store.wf = true ∧ ticking.store.keyed ∧ ticking.storeOwned := by
  refine ⟨⟨_, rfl⟩, by decide, ⟨?_, ?_, ?_⟩, ?_⟩
  · simp only [Location.sameKey]; decide
  · simp only [Location.sameKey]; decide
  · rintro r (h | ⟨_, ⟨⟩⟩) _ n e
    cases e
  · simp only [State.storeOwned]; decide

theorem test_witness_GroupsStayDecided :
    (∃ t, step ticking = .next t) ∧ ticking.viewAgrees ∧ ticking.groupsDecided := by
  refine ⟨⟨_, rfl⟩, ?_⟩
  simp only [State.viewAgrees, State.groupsDecided]; decide

theorem test_witness_PortsStaySound :
    (∃ t, step (lost.setPending [.responseWindowExpiry 2 .idle]) = .next t) ∧ ∀ p, (lost.port p).sound := by
  have empty : ∀ p, (lost.port p).queue = [] := by decide
  have quiet : ∀ p, (lost.port p).exchange.all (fun x => x.phase == .window) = true := by decide
  refine ⟨⟨_, rfl⟩, fun p => ⟨?_, ?_, ?_, ?_, ?_, ?_, ?_⟩⟩
  · revert p; decide
  · revert p; decide
  · revert p; decide
  · revert p; decide
  · intro x _ _
    simp [empty p]
  · revert p; decide
  · intro x h hs
    have q := quiet p
    simp [h, hs] at q

/-- Slot 40 on plan 42 with target 44. -/
def adoptable : State := withSlot { slot40 10 with current := 42 }

/-- Slot 40 OVERRIDDEN with no cause and its latch cleared. -/
def leaving : State := withSlot { slot40 10 with mode := .latched, state := .overridden }

/-- Slot 40 in TRANSITION on plan 42, with target 44 from the event layer. -/
def superseded : State := withSlot { slot40 10 with
  current := 42, state := .transition, targetCause := some .event
  trans := some ⟨.shorten, .base, 41, ⟨817, 450230⟩, 1, 200, false, false, false⟩ }

/-- The shadow of the current plan is marked FAULTED. -/
def shadowSpoilt : State :=
  running.setStore { running.store with held := [{ loc0 with link := some 1 }, { shadow1 with faulted := true }] }

theorem shadowSpoilt_keyed : shadowSpoilt.store.keyed := by
  refine ⟨?_, ?_, ?_⟩
  · simp only [Location.sameKey]; decide
  · simp only [Location.sameKey]; decide
  · intro r hr ho n hn
    have h : r = { loc0 with link := some 1 } ∨ r = { shadow1 with faulted := true } := by
      simpa [shadowSpoilt, State.setStore] using hr
    rcases h with rfl | rfl
    · exact ⟨{ shadow1 with faulted := true }, by decide, rfl, by simpa [shadow1] using hn, rfl, rfl⟩
    · simp [shadow1] at ho

/-- R22, R75, R76: a shadow that the scrubber has marked is promoted with its mark, the slot keeps its copy, and PLAN_FAULT (bit 10)
is raised. -/
theorem test_boundary_faulted_shadow :
    (let t := shadowSpoilt.boundarySteps 40 0
     ((t.slot 40).copy == some plan44 && t.records.notices == 1024#15 && t.store.faultedCount == 1 && t.store.shadowOf 40 44 == none)) = true := by
  decide

/-- The running slot in each state, at a boundary in step (p 880 back from the error of section 3.10) and out of step. -/
theorem test_witness_BoundariesEvaluate :
    (running.slot 40).copy = some plan44 ∧ (running.slot 40).run.isSome ∧ (running.slot 40).target = (running.slot 40).current ∧
    running.store.shadowOf 40 44 = none ∧ planError (817 * 864000 + 450230) 0 plan44 = 880 ∧ ¬(880 ≤ 2 ∨ 1000 - 880 ≤ 2) ∧
    planError (817 * 864000 + 450230) 880 plan44 = 0 ∧ (atLimit.slot 40).state = .transition ∧ (atLimit.slot 40).trans.isSome ∧
    (atLimit.slot 40).copy = some plan44 ∧ (lost.slot 40).copy = some plan44 ∧ (overridden.slot 40).causes ≠ 0#5 ∧
    (withSlot { slot40 10 with target := 7 }).store.recordOf 40 7 = none ∧ (withSlot { slot40 10 with target := 7 }).holds? 40 = false ∧
    adoptable.store.recordOf 40 44 = some loc0 ∧ loc0.faulted = false ∧ (∀ w ∈ loc0.words, w.finding = .clean) ∧
    adoptable.store.shadowOf 40 42 = none ∧ adoptable.holds? 40 = false ∧ adoptable.store.wf = true ∧
    ({ slot40 10 with pendingEval := some .recovery } : Slot).pendingEval = some .recovery ∧
    (withSlot { slot40 10 with state := .joining, stepFlag := true }).store.shadowOf 40 44 = none ∧
    ((leaving.slot 40).state = .overridden ∧ (leaving.slot 40).causes = 0#5 ∧ (leaving.slot 40).latch = false ∧
      (leaving.slot 40).joined = true ∧ (leaving.slot 40).copy = some plan44) ∧
    ((shadowed.slot 40).target = (shadowed.slot 40).current ∧ shadowed.store.recordOf 40 44 = some { loc0 with link := some 1 } ∧
      shadowed.store.shadowOf 40 44 = some shadow1 ∧ shadow1.faulted = false ∧ (∀ w ∈ shadow1.words, w.finding = .clean) ∧
      shadowed.store.wf = true ∧ shadowed.store.corrected ≤ 65535) ∧
    (shadowed.store.keyed ∧ shadowSpoilt.store.wf = true ∧ shadowSpoilt.store.recordOf 40 44 = some { loc0 with link := some 1 } ∧
      shadowSpoilt.store.shadowOf 40 44 = some { shadow1 with faulted := true }) ∧
    shadowSpoilt.store.keyed ∧ (superseded.slot 40).trans.isSome ∧ superseded.store.recordOf 40 44 = some loc0 ∧
    superseded.store.shadowOf 40 42 = none ∧ (adoptable.slot 40).targetCause = none ∧ (superseded.slot 40).targetCause = some .event := by
  have h := shadowed_keyed
  have h' := shadowSpoilt_keyed
  simp only [h, h', true_and]; decide

end Sys2Proof.Tests
end

section
/-! PROOFS. The obligations of chapter 3's arithmetic about the direction of a transition (R42 to R48) and about a lengthened
cycle (R53). -/

namespace Sys2Proof.Machine

/-! ### The splits of a lengthened cycle -/

/-- The place of the coordinated phase is its index less 1, so index 0 names no phase. -/
theorem lengthenedSplits_getElem? {pl : Plan} (hc : 1 ≤ pl.coord) (a j : Nat) :
    (lengthenedSplits pl a)[j]? = pl.splits[j]?.map fun x => if j + 1 = pl.coord then x + a else x := by
  have place : pl.coord - 1 = j ↔ j + 1 = pl.coord := by omega
  simp only [lengthenedSplits, List.getElem?_modify, place, Option.map_eq_map]

/-- Any one split is at most the sum of them all, so a more than it is at most a more than that sum. -/
theorem le_sum_add_of_mem_lengthenedSplits {pl : Plan} {a x : Nat} (hc : 1 ≤ pl.coord) (hx : x ∈ lengthenedSplits pl a) :
    x ≤ pl.splits.sum + a := by
  obtain ⟨j, hj⟩ := List.mem_iff_getElem?.mp hx
  rw [lengthenedSplits_getElem? hc, Option.map_eq_some_iff] at hj
  obtain ⟨y, hy, rfl⟩ := hj
  have y_le : y ≤ pl.splits.sum := List.le_sum_of_mem (List.mem_of_getElem? hy)
  split <;> omega

/-- The cycle's splits depend on the direction only by the sense and amount of R49. -/
theorem correctedRun_splits_of_lengthens {pl : Plan} {e : Nat} {d : Direction} (h : (cycleAmount pl e d).1 = false) (p : Nat) :
    (correctedRun pl p e d).splits = lengthenedSplits pl (cycleAmount pl e d).2 := by
  simp [correctedRun, h]

/-- Settles O14, place by place: the list is changed at the coordinated index alone. -/
theorem lengtheningGoesToCoordinatedPhase : Obligations.LengtheningGoesToCoordinatedPhase := by
  intro pl a hc _ hsum
  refine ⟨lengthenedSplits_getElem? hc a, fun p e => ?_, fun x hx => ?_⟩
  · exact ⟨rfl, correctedRun_splits_of_lengthens rfl p, fun h => correctedRun_splits_of_lengthens h p⟩
  · exact hsum ▸ le_sum_add_of_mem_lengthenedSplits hc hx

/-! ### The number of whole cycles -/

/-- The model's quotient is the library's, whose adjunction with multiplication is used below. -/
theorem ceilDiv_eq_library (a b : Nat) : ceilDiv a b = a ⌈/⌉ b :=
  (Nat.ceilDiv_eq_add_pred_div a b).symm

theorem ceilDiv_le_iff {a b n : Nat} (hb : 0 < b) : ceilDiv a b ≤ n ↔ a ≤ n * b := by
  rw [ceilDiv_eq_library, ceilDiv_le_iff_le_mul hb, Nat.mul_comm]

/-- The ceiling of a quotient is the least number of cycles, of at most b each, that reach a. -/
theorem ceilDiv_eq_of_least {a b n : Nat} (hb : 0 < b) (reach : a ≤ n * b) (least : ∀ m, m < n → m * b < a) :
    ceilDiv a b = n := by
  have covers : a ≤ ceilDiv a b * b := (ceilDiv_le_iff hb).mp le_rfl
  refine le_antisymm ((ceilDiv_le_iff hb).mpr reach) (Nat.le_of_not_lt fun fewer => ?_)
  exact absurd covers (Nat.not_le.mpr (least _ fewer))

/-! ### The direction by mode -/

section
variable (pl : Plan) (e : Nat)

@[simp] theorem chooseDirection_forced (mode : Option Mode) : chooseDirection pl e true mode = .immediate := rfl

@[simp] theorem chooseDirection_absent : chooseDirection pl e false none = bestDirection pl e := rfl

@[simp] theorem chooseDirection_best : chooseDirection pl e false (some .best) = bestDirection pl e := rfl

@[simp] theorem chooseDirection_lengthen :
    chooseDirection pl e false (some .lengthen) = if pl.longLimit = 0 then .immediate else .lengthen := rfl

@[simp] theorem chooseDirection_shorten :
    chooseDirection pl e false (some .shorten) = if pl.usable = 0 then .immediate else .shorten := rfl

@[simp] theorem chooseDirection_immediate : chooseDirection pl e false (some .immediate) = .immediate := rfl

end

/-- R44: with both limits above 0 the numbers of cycles decide. -/
theorem bestDirection_of_least {pl : Plan} {e ns nl : Nat} (hs : 0 < pl.usable) (hl : 0 < pl.longLimit)
    (shortens : e ≤ ns * pl.usable ∧ ∀ m, m < ns → m * pl.usable < e)
    (lengthens : pl.cycle - e ≤ nl * pl.longLimit ∧ ∀ m, m < nl → m * pl.longLimit < pl.cycle - e) :
    bestDirection pl e = if nl ≤ ns then .lengthen else .shorten := by
  have hns : ceilDiv e pl.usable = ns := ceilDiv_eq_of_least hs shortens.1 shortens.2
  have hnl : ceilDiv (pl.cycle - e) pl.longLimit = nl := ceilDiv_eq_of_least hl lengthens.1 lengthens.2
  simp [bestDirection, hns, hnl, hs.ne', hl.ne']

/-! ### The shortening limit -/

/-- The list is the phases before the coordinated one, it, and the phases after it. -/
theorem Plan.avail_add_margin {pl : Plan} {c : Phase} (hc : 1 ≤ pl.coord) (h : pl.phases[pl.coord - 1]? = some c) :
    pl.avail + c.margin = (pl.phases.map Phase.margin).sum := by
  have cut : pl.phases = pl.phases.take (pl.coord - 1) ++ c :: pl.phases.drop pl.coord := by
    obtain ⟨inList, rfl⟩ := List.getElem?_eq_some_iff.mp h
    have rest := List.drop_eq_getElem_cons inList
    rw [Nat.sub_add_cancel hc] at rest
    rw [← rest, List.take_append_drop]
  have total := congrArg (fun l => (l.map Phase.margin).sum) cut
  simp only [List.map_append, List.map_cons, List.sum_append, List.sum_cons] at total
  simp only [Plan.avail, Plan.others, List.map_append, List.sum_append]
  omega

/-- Settles O15, mode by mode: the fixed modes and IMMEDIATE by their equations, BEST by its limits and its numbers of cycles, and
the usable limit by cutting the list of phases at the coordinated one. -/
theorem fixedModesKeepTheirSense : Obligations.FixedModesKeepTheirSense := by
  refine ⟨fun pl e => ⟨?_, ?_, ?_, ?_⟩, fun pl e => ⟨?_, ?_, ?_, ?_⟩, fun pl e mode => ?_, fun pl c hc h => ?_⟩
  · intro hl; simp [hl.ne']
  · intro hl; simp [hl]
  · intro hs; simp [hs.ne']
  · intro hs; simp [hs]
  · intro hs hl; simp [bestDirection, hs, hl]
  · intro hs hl; simp [bestDirection, hs, hl.ne']
  · intro hs hl; simp [bestDirection, hs.ne', hl]
  · intro hs hl ns nl shortens lengthens
    rw [chooseDirection_best, bestDirection_of_least hs hl shortens lengthens]
  · simp
  · exact ⟨rfl, rfl, Plan.avail_add_margin hc h⟩

end Sys2Proof.Machine
end

section
/-! PROOFS. The obligation about CUT ENTRY (R103), and what it shares with every change of the tables: an evaluation at the
present minute leaves each of its groups showing its selection (R85, R111 to R113). -/

namespace Sys2Proof.Machine

/-! ### What a group shows -/

/-- The values of a group record by which it shows a selection: its target, layer and mode, and the defaults that the selection
falls back on (R85, R111). Settlement and adoption concern the record's other values (R83, R84). -/
def Group.shown (x : Group) : Nat × Option Layer × Option Mode × Nat × Mode :=
  (x.target, x.layer, x.targetMode, x.defaultPlan, x.defaultMode)

/-- From `s` to `t` every group shows the same. -/
def State.shownStands (s t : State) : Prop := ∀ g, (t.group g).shown = (s.group g).shown

section
variable {s t u : State}

theorem shownStands_of_groups (h : t.groups = s.groups) : s.shownStands t := fun g => by simp [State.group, h]

theorem shownStands_refl : s.shownStands s := shownStands_of_groups rfl

theorem shownStands_trans (h1 : s.shownStands t) (h2 : t.shownStands u) : s.shownStands u := fun g => (h2 g).trans (h1 g)

theorem shownStands_setGroup (s : State) (i : Fin 16) (x : Group) (h : x.shown = (s.group i).shown) :
    s.shownStands (s.setGroup i x) := by
  intro g
  by_cases hg : i = g
  · subst hg; simpa using h
  · rw [State.setGroup_group_ne s i g x hg]

theorem shownStands_settle (s : State) (i : Fin 16) (change : Bool) : s.shownStands (s.settle i change) := by
  unfold State.settle
  extract_lets _ s1 d _ s2
  have hs1 : s.shownStands s1 := by
    unfold s1
    split
    · exact shownStands_setGroup s i _ rfl
    · exact shownStands_refl
  have hs2 : s.shownStands s2 := shownStands_trans hs1 (shownStands_setGroup s1 i _ rfl)
  split
  · exact shownStands_trans hs2 (shownStands_of_groups rfl)
  · exact hs2

theorem shownStands_adoptedBy (s : State) (i : Fin 16) (old : Member) (n : Nat) : s.shownStands (s.adoptedBy i old n) := by
  unfold State.adoptedBy
  split
  · exact shownStands_setGroup s i _ rfl
  · exact shownStands_refl

/-- A view of a slot stored before the settlement decision. -/
theorem shownStands_setMember_settle (s : State) (i : Fin 64) (m : Option Member) (g : Fin 16) (change : Bool) :
    s.shownStands ((s.setMember i m).settle g change) :=
  shownStands_trans (shownStands_of_groups rfl) (shownStands_settle _ g change)

theorem shownStands_takeMember (s : State) (e : MemberEvent) : s.shownStands (s.takeMember e) := by
  unfold State.takeMember
  split
  · exact shownStands_setMember_settle s _ _ _ _
  · exact shownStands_refl
  · rename_i old _ _
    split
    · exact shownStands_setMember_settle s _ _ _ _
    · extract_lets s1 s2
      have hs2 : s.shownStands s2 :=
        shownStands_trans (shownStands_adoptedBy s old.group old e.current) (shownStands_setMember_settle _ _ _ _ _)
      split
      · exact shownStands_trans hs2 (shownStands_of_groups rfl)
      · exact hs2

theorem shownStands_takeMembers (es : List MemberEvent) : ∀ s : State, s.shownStands (s.takeMembers es) := by
  induction es with
  | nil => exact fun s => shownStands_refl
  | cons e es ih => exact fun s => shownStands_trans (shownStands_takeMember s e) (ih _)

end

/-! ### Target events leave the group records -/

theorem endTransition_groups (s : State) (i : Fin 64) (o : RecordOutcome) : (s.endTransition i o).groups = s.groups := by
  unfold State.endTransition
  split <;> rfl

theorem enterOverridden_groups (s : State) (i : Fin 64) : (s.enterOverridden i).1.groups = s.groups :=
  endTransition_groups s i .overridden

theorem readRecord_groups (s : State) (i : Fin 64) (plan : Nat) : (s.readRecord i plan).1.groups = s.groups := by
  have frame : s.changesOnly (s.readRecord i plan).1 [.store, .records] :=
    changesOnly_readRecord i plan (by simp) (by simp) changesOnly_refl
  exact frame.2.2 .groups (by simp)

theorem positionAttempt_groups (s : State) (i : Fin 64) : (s.positionAttempt i).1.groups = s.groups := by
  have read := readRecord_groups s i (s.slot i).target
  unfold State.positionAttempt
  dsimp only
  split
  · split <;> rename_i found <;> rw [found] at read
    · split
      · exact read
      · exact (enterOverridden_groups _ i).trans read
    · exact read
  · rfl

theorem targetEvent_groups (s : State) (i : Fin 64) (plan : Nat) (cause : Option Layer) (mode : Option Mode) :
    (s.targetEvent i plan cause mode).1.groups = s.groups := by
  unfold State.targetEvent
  dsimp only
  split
  · rfl
  · exact positionAttempt_groups _ i

theorem overSlots_groups {f : State → Fin 64 → Sent} (hf : ∀ s i, (f s i).1.groups = s.groups) (is : List (Fin 64)) (s : State) :
    (overSlots is f s).1.groups = s.groups :=
  List.foldlRecOn (motive := fun a : Sent => a.1.groups = s.groups) is _ rfl fun _ ha i _ => (hf _ i).trans ha

/-! ### Evaluations -/

/-- R85: the group shows the selection it takes, and every other group shows what it did: the target events, the settlement
decision and the members' own events leave that alone. -/
theorem takeSelection_shown (s : State) (g : Fin 16) (r : Selection) :
    (s.setGroup g ((s.group g).select r)).shownStands (s.takeSelection g r) := by
  unfold State.takeSelection
  extract_lets q s1 a
  have events : a.1.groups = s1.groups := overSlots_groups (fun _ _ => targetEvent_groups _ _ _ _ _) _ s1
  exact shownStands_trans (shownStands_of_groups events)
    (shownStands_trans (shownStands_settle a.1 g false) (shownStands_takeMembers a.2 _))

/-- R85: a group record that takes a selection has its plan, its layer and its mode, and keeps its own defaults. -/
theorem Group.select_shown (x : Group) (r : Selection) :
    (x.select r).shown = (r.plan, some r.layer, some (r.mode.getD x.defaultMode), x.defaultPlan, x.defaultMode) := by
  unfold Group.select
  dsimp only
  split <;> simp_all [Group.shown]

/-- Whether a group shows its selection depends on its tables, the time and what it shows. -/
theorem showsSelection_congr {s t : State} {g : Fin 16} (tables : t.tables = s.tables) (time : t.time = s.time)
    (shown : (t.group g).shown = (s.group g).shown) : t.showsSelection g ↔ s.showsSelection g := by
  simp only [Group.shown, Prod.mk.injEq] at shown
  obtain ⟨target, layer, mode, defaultPlan, defaultMode⟩ := shown
  simp only [State.showsSelection, tables, time, target, layer, mode, defaultPlan, defaultMode]

section
variable (s : State)

theorem evaluateGroup_frame (g : Fin 16) (day minute : Nat) : s.changesOnly (s.evaluateGroup g day minute) Block.engine :=
  changesOnly_takeSelection g _ (List.Subset.refl _) changesOnly_refl

theorem evaluateGroup_tables (g : Fin 16) (day minute : Nat) : (s.evaluateGroup g day minute).tables = s.tables :=
  (evaluateGroup_frame s g day minute).2.2 .tables (by decide)

theorem evaluateGroup_time (g : Fin 16) (day minute : Nat) : (s.evaluateGroup g day minute).time = s.time :=
  (evaluateGroup_frame s g day minute).2.2 .time (by decide)

/-- R111: a group evaluated at the present minute shows its selection: it takes the one that its defaults, which stand, give. -/
theorem evaluateGroup_showsSelection (g : Fin 16) :
    (s.evaluateGroup g s.time.day s.time.minute).showsSelection g := by
  have shown := takeSelection_shown s g (s.tables.select g (s.group g).defaultPlan s.time.day s.time.minute) g
  rw [State.setGroup_group_same, Group.select_shown] at shown
  simp only [Group.shown, Prod.mk.injEq] at shown
  obtain ⟨target, layer, mode, defaultPlan, defaultMode⟩ := shown
  simp only [State.showsSelection, evaluateGroup_tables, evaluateGroup_time]
  simp only [State.evaluateGroup, target, layer, mode, defaultPlan, defaultMode]
  exact ⟨rfl, rfl, rfl⟩

/-- A group that shows its selection goes on showing it when another group is evaluated, or itself again. -/
theorem evaluateGroup_keeps_showsSelection (g : Fin 16) {j : Fin 16} (h : s.showsSelection j) :
    (s.evaluateGroup g s.time.day s.time.minute).showsSelection j := by
  by_cases hj : g = j
  · subst hj; exact evaluateGroup_showsSelection s g
  · have shown := takeSelection_shown s g (s.tables.select g (s.group g).defaultPlan s.time.day s.time.minute) j
    rw [State.setGroup_group_ne s g j _ hj] at shown
    exact (showsSelection_congr (evaluateGroup_tables s g _ _) (evaluateGroup_time s g _ _) shown).mpr h

/-- R112: groups evaluated in order at the present minute all show their selections at the end. -/
theorem evaluateGroups_showsSelection (gs : List (Fin 16)) : ∀ (s : State) (j : Fin 16), j ∈ gs ∨ s.showsSelection j →
    (s.evaluateGroups gs s.time.day s.time.minute).showsSelection j := by
  induction gs with
  | nil => exact fun s j h => h.resolve_left List.not_mem_nil
  | cons g gs ih =>
    intro s j h
    have rest := ih (s.evaluateGroup g s.time.day s.time.minute) j
    rw [evaluateGroup_time] at rest
    refine rest ?_
    rcases h with h | h
    · rcases List.mem_cons.mp h with rfl | h
      · exact .inr (evaluateGroup_showsSelection s j)
      · exact .inl h
    · exact .inr (evaluateGroup_keeps_showsSelection s g h)

theorem evaluateNow_of_unset (gs : List (Fin 16)) (h : s.time.disc = .unset) : s.evaluateNow gs = s := by
  simp [State.evaluateNow, TimeBase.isSet, h]

theorem evaluateNow_showsSelection {gs : List (Fin 16)} {g : Fin 16} (h : s.time.disc ≠ .unset) (hg : g ∈ gs) :
    (s.evaluateNow gs).showsSelection g := by
  have timeSet : s.time.isSet = true := by simpa [TimeBase.isSet] using h
  rw [State.evaluateNow, if_pos timeSet]
  exact evaluateGroups_showsSelection gs s g (.inl hg)

theorem evaluateNow_frame (gs : List (Fin 16)) : s.changesOnly (s.evaluateNow gs) Block.engine :=
  changesOnly_evaluateNow gs (List.Subset.refl _) changesOnly_refl

end

/-! ### Requests that change the tables -/

/-- R112, R113: a request that changes the tables and is carried out now is answered DONE, the tables are the changed ones, and
the groups it names are evaluated while time is set. -/
theorem carryOut_changed {s : State} {i : Instr} {r : Request} {owner : State → Answer} {tables : Timetable}
    {gs : List (Fin 16)} {fields : List Byte} (ready : s.readyFor i r) (ho : owner s = changed s tables gs fields) :
    (carryOut i owner s).tables = tables ∧ s.answered (carryOut i owner s) r .done fields ∧
      s.retabled (carryOut i owner s) gs := by
  have engine := evaluateNow_frame (s.setTables tables) gs
  have left : (owner s).state = (s.setTables tables).evaluateNow gs := by rw [ho]; rfl
  obtain ⟨answered, reply⟩ := carryOut_ready ready owner
    (by rw [left]; exact engine.2.2 .trunk (by decide)) (by rw [left]; exact engine.2.2 .mgmt (by decide))
  rw [left] at reply
  rw [ho] at answered
  have stored : s.changesOnly (s.setTables tables) [.tables] := changesOnly_setTables tables (by simp) changesOnly_refl
  refine ⟨?_, answered, fun unset => ?_, fun timeSet => ⟨fun g hg => ?_, ?_⟩⟩
  · exact (reply.2.2 .tables (by decide)).trans (engine.2.2 .tables (by decide))
  · rw [evaluateNow_of_unset (s.setTables tables) gs unset] at reply
    exact changesOnly_trans (changesOnly_mono stored (by simp)) (changesOnly_mono reply (by simp))
  · have shown := shownStands_of_groups (reply.2.2 .groups (by decide)) g
    exact (showsSelection_congr (reply.2.2 .tables (by decide)) (reply.2.2 .time (by decide)) shown).mpr
      (evaluateNow_showsSelection _ timeSet hg)
  · exact changesOnly_trans (changesOnly_mono stored (by simp))
      (changesOnly_trans (changesOnly_mono engine (by decide)) (changesOnly_mono reply (by simp)))

/-! ### CUT ENTRY -/

/-- In a list in ascending order of its keys, an item is the first of its key. -/
theorem find?_key_of_pairwise {α : Type} {key : α → Nat} {l : List α} (h : l.Pairwise fun a b => key a < key b) {a : α}
    (ha : a ∈ l) : l.find? (fun x => key x == key a) = some a := by
  induction h with
  | nil => exact absurd ha List.not_mem_nil
  | @cons x l below _ ih =>
    rcases List.mem_cons.mp ha with rfl | hl
    · simp
    · rw [List.find?_cons_of_neg (by simpa using (below a hl).ne), ih hl]

/-- R103: a request that looks an id up in an ordered collection is refused with NO_SUCH where no item has it, and else changes
the tables for the one item that does. -/
theorem carryOut_cut {α : Type} {key : α → Nat} {group : α → Fin 16} {l : List α} {n : Nat} {s : State} {i : Instr}
    {r : Request} {owner : State → Answer} {tables : Timetable} (ready : s.readyFor i r)
    (ordered : l.Pairwise fun a b => key a < key b)
    (absent : l.find? (fun x => key x == n) = none → owner s = refuse .noSuch s)
    (found : ∀ e, l.find? (fun x => key x == n) = some e → owner s = changed s tables [group e] []) :
    ((∀ e ∈ l, key e ≠ n) → s.refusedWith (carryOut i owner s) r .noSuch) ∧
      ∀ e ∈ l, key e = n →
        (carryOut i owner s).tables = tables ∧ s.answered (carryOut i owner s) r .done [] ∧
          s.retabled (carryOut i owner s) [group e] := by
  refine ⟨fun none_has => ?_, fun e he key_eq => ?_⟩
  · exact carryOut_refuse ready owner _ (absent (by simpa using none_has))
  · subst key_eq
    exact carryOut_changed ready (found e (find?_key_of_pairwise ordered he))

section
variable {s : State} {id : Half}

theorem cutBase_of_absent {n : Nat} (h : s.tables.base.find? (fun e => e.id == n) = none) : cutBase n s = refuse .noSuch s := by
  simp only [cutBase, h]

theorem cutBase_of_found {n : Nat} {e : BaseEntry} (h : s.tables.base.find? (fun e => e.id == n) = some e) :
    cutBase n s = changed s { s.tables with base := s.tables.base.filter fun x => x.id != n } [e.group] [] := by
  simp only [cutBase, h]

theorem cutEvent_of_absent {n : Nat} (h : s.tables.events.find? (fun e => e.id == n) = none) :
    cutEvent n s = refuse .noSuch s := by
  simp only [cutEvent, h]

theorem cutEvent_of_found {n : Nat} {e : EventEntry} (h : s.tables.events.find? (fun e => e.id == n) = some e) :
    cutEvent n s = changed s { s.tables with events := s.tables.events.filter fun x => x.id != n } [e.group] [] := by
  simp only [cutEvent, h]

theorem cutEntry_base (h : id.toNat ≤ 383) : cutEntry 0#8 id s = cutBase id.toNat s := if_pos (Nat.lt_succ_of_le h)

theorem cutEntry_event (h : id.toNat ≤ 63) : cutEntry 1#8 id s = cutEvent id.toNat s := if_pos (Nat.lt_succ_of_le h)

theorem cutEntry_of_bad {kind : Byte}
    (h : 1 < kind.toNat ∨ (kind = 0#8 ∧ 383 < id.toNat) ∨ (kind = 1#8 ∧ 63 < id.toNat)) :
    cutEntry kind id s = refuse .badValue s := by
  rcases h with unknown | ⟨rfl, high⟩ | ⟨rfl, high⟩
  · unfold cutEntry
    split
    · omega
    · omega
    · rfl
  · exact if_neg (Nat.not_lt.mpr high)
  · exact if_neg (Nat.not_lt.mpr high)

end

/-- Settles O34, by the kind: each collection's lookup gives the refusal or the change of the tables, and the ids of the ordered
collections name one entry each. -/
theorem cutEntryCuts : Obligations.CutEntryCuts := by
  rintro s src kind id r ready ⟨-, -, base, -, -, events, -⟩
  refine ⟨carryOut (.cutEntry src kind id) (cutEntry kind id) s, rfl, fun bad => ?_, ?_, ?_⟩
  · exact carryOut_refuse ready _ _ (cutEntry_of_bad bad)
  · rintro rfl inRange
    exact carryOut_cut (group := BaseEntry.group) ready base
      (fun h => (cutEntry_base inRange).trans (cutBase_of_absent h))
      (fun _ h => (cutEntry_base inRange).trans (cutBase_of_found h))
  · rintro rfl inRange
    exact carryOut_cut (group := EventEntry.group) ready events
      (fun h => (cutEntry_event inRange).trans (cutEvent_of_absent h))
      (fun _ h => (cutEntry_event inRange).trans (cutEvent_of_found h))

end Sys2Proof.Machine
end

section
/-! PROOFS. The obligation about SET NOTICE MASK (R173), and the rules of the notice set and of the count-down that it rests on
(R168, R171). -/

namespace Sys2Proof.Machine

/-! ### The notice mask -/

/-- Every kind of Table 10-3 has a bit below bit 15 of the mask field, which is ignored. -/
theorem noticeBit_lt (k : Notice) : noticeBit k < 15 := by cases k <;> decide

/-- The kinds masked are those named by the new field; the old mask does not count. -/
@[simp] theorem noticeIn_setMask_mask (u : RecordUnit) (mask : Half) (k : Notice) :
    noticeIn (u.setMask mask).mask k = mask.getLsbD (noticeBit k) := by
  simp [noticeIn, RecordUnit.setMask, noticeBit_lt k]

/-- A kind is pending after the new mask when it was pending and is not masked now. -/
@[simp] theorem noticeIn_setMask_notices (u : RecordUnit) (mask : Half) (k : Notice) :
    noticeIn (u.setMask mask).notices k = (noticeIn u.notices k && !mask.getLsbD (noticeBit k)) := by
  simp [noticeIn, RecordUnit.setMask, noticeBit_lt k]

/-! ### The count-down -/

section
variable {u : RecordUnit}

/-- R171: a masked kind that is raised is discarded. -/
theorem RecordUnit.raise_of_masked {k : Notice} (h : noticeIn u.mask k = true) : u.raise k = u := if_pos h

/-- R168: what becomes of the count-down at 0 rests on the count and its reload value; the mask has no part in it. -/
theorem RecordUnit.countDownZero_countDown (u : RecordUnit) :
    u.countDownZero.countDown = if 0 < u.reload ∧ u.countDown = 0 then u.reload else u.countDown := by
  unfold RecordUnit.countDownZero
  split <;> rfl

/-- R168: what becomes of the count-down at a record rests on the count and its reload value; the mask has no part in it. -/
theorem RecordUnit.countPlaced_countDown (u : RecordUnit) :
    u.countPlaced.countDown =
      if u.reload = 0 then u.countDown
      else if 0 < u.reload ∧ u.countDown - 1 = 0 then u.reload else u.countDown - 1 := by
  unfold RecordUnit.countPlaced
  split
  · rfl
  · exact RecordUnit.countDownZero_countDown _

/-- R168, R171: with RECORD_COUNT masked the count-down at 0 leaves the pending set. -/
theorem RecordUnit.countDownZero_notices_of_masked (h : noticeIn u.mask .recordCount = true) :
    u.countDownZero.notices = u.notices := by
  unfold RecordUnit.countDownZero
  rw [RecordUnit.raise_of_masked h]
  split <;> rfl

/-- R168, R171: with RECORD_COUNT masked the count at a record leaves the pending set. -/
theorem RecordUnit.countPlaced_notices_of_masked (h : noticeIn u.mask .recordCount = true) :
    u.countPlaced.notices = u.notices := by
  unfold RecordUnit.countPlaced
  split
  · rfl
  · exact RecordUnit.countDownZero_notices_of_masked (u := { u with countDown := u.countDown - 1 }) h

end

/-! ### SET NOTICE MASK -/

/-- R173: SET NOTICE MASK carried out now gives the record unit its new mask, answers with the mask and the pending set as they
then stand, and changes no other block but the trunk interface and the engine. -/
theorem carryOut_setNoticeMask {s : State} {i : Instr} {r : Request} (mask : Half) (ready : s.readyFor i r) :
    (carryOut i (setNoticeMask mask) s).records = s.records.setMask mask ∧
      s.answered (carryOut i (setNoticeMask mask) s) r .done
        (noticeBytes (s.records.setMask mask).mask ++ noticeBytes (s.records.setMask mask).notices) ∧
      s.changesOnly (carryOut i (setNoticeMask mask) s) [.records, .trunk, .mgmt] := by
  obtain ⟨answered, reply⟩ := carryOut_ready ready (setNoticeMask mask) rfl rfl
  have masked : s.changesOnly (setNoticeMask mask s).state [.records] :=
    changesOnly_setRecords (s.records.setMask mask) (by simp) changesOnly_refl
  exact ⟨reply.2.2 .records (by decide), answered,
    changesOnly_trans (changesOnly_mono masked (by simp)) (changesOnly_mono reply (by simp))⟩

/-- Settles O51, in two parts: the request gives the record unit its new mask, by whose rules each kind is read; and the count-down
rests on no mask, while a masked RECORD_COUNT, which the new mask took out of the pending set, does not come back. -/
theorem noticeMaskReplaced : Obligations.NoticeMaskReplaced := by
  refine ⟨fun s src mask r ready => ?_, fun u mask => ⟨?_, fun masked => ?_⟩⟩
  · obtain ⟨records, answered, frame⟩ := carryOut_setNoticeMask mask ready
    refine ⟨carryOut (.setNoticeMask src mask) (setNoticeMask mask) s, rfl, ?_⟩
    rw [records]
    exact ⟨noticeIn_setMask_mask _ mask, noticeIn_setMask_notices _ mask, rfl, answered, frame⟩
  · rw [RecordUnit.countPlaced_countDown, RecordUnit.countPlaced_countDown]
    rfl
  · rw [RecordUnit.countPlaced_notices_of_masked masked, noticeIn_setMask_notices,
      ← noticeIn_setMask_mask u mask .recordCount, masked]
    simp

end Sys2Proof.Machine
end

section
/-! PROOFS. The updates of which the events of the slot engine, and of the group coordinator are made: a property that outlives each kind of
update outlives those events, so that an invariant or a frame has to look at the kinds alone. -/

namespace Sys2Proof.Machine

/-! ### Kinds of update -/

/-- The values of a slot context that DEFINE SLOT and SET RECORDING alone write. -/
def Slot.identity (x : Slot) : Nat × Fin 4 × Nat × Fin 16 × Nat × OverrideMode × Bool :=
  (x.intersection, x.port, x.drop, x.group, x.divider, x.mode, x.recording)

/-- The slot engine writes `y` over `x`: the identity stands, no defined slot becomes UNUSED, and none loses its position. -/
def Slot.engineWrites (x y : Slot) : Prop :=
  y.identity = x.identity ∧ (y.state = .unused → x.state = .unused) ∧ (x.run.isSome = true → y.run.isSome = true)

/-- The notices of the time base (Table 1-3, R6, R11), which no event of the slot engine or of the group coordinator raises. -/
def timeNotice (k : Notice) : Prop := k = .timeLocked ∨ k = .timeStep ∨ k = .timeHoldover

/-- `Q` outlives the updates that the slot engine makes at slot `i`, at its port, at the plan store and at the record unit. -/
structure SlotClosed (i : Fin 64) (Q : State → Prop) : Prop where
  slot : ∀ t x, Q t → (t.slot i).engineWrites x → Q (t.setSlot i x)
  read : ∀ t l, Q t → l ∈ t.store.held → l.faulted = false → Q (t.setStore (t.store.read l).store)
  promote : ∀ t n, Q t → Q (t.setStore (t.store.promote i n))
  removeEntry : ∀ t, Q t → Q (t.setPort (t.slot i).port ((t.port (t.slot i).port).removeEntry i))
  handOver : ∀ t f, Q t → Q (t.setPort (t.slot i).port ((t.port (t.slot i).port).handOver i f).1)
  raise : ∀ t k, ¬timeNotice k → Q t → Q (t.raise k)
  record : ∀ t r, Q t → r.slot = i → Q (t.takeRecord r)

/-- `Q` outlives the updates of the group coordinator. -/
structure GroupClosed (Q : State → Prop) : Prop where
  raise : ∀ t k, ¬timeNotice k → Q t → Q (t.raise k)
  force : ∀ t i, Q t → Q (t.forceImmediate i)
  group : ∀ t g x, Q t → Q (t.setGroup g x)
  member : ∀ t i m, Q t → Q (t.setMember i m)

/-- `Q` outlives the updates of every slot's engine and of the group coordinator. -/
structure EngineClosed (Q : State → Prop) : Prop where
  slots : ∀ i, SlotClosed i Q
  group : ∀ t g x, Q t → Q (t.setGroup g x)
  member : ∀ t i m, Q t → Q (t.setMember i m)

@[simp] theorem Slot.engineWrites_refl (x : Slot) : x.engineWrites x := ⟨rfl, id, id⟩

/-! ### Reads leave the slots -/

theorem readRecord_slots (s : State) (i : Fin 64) (n : Nat) : (s.readRecord i n).1.slots = s.slots := by
  have frame : s.changesOnly (s.readRecord i n).1 [.store, .records] :=
    changesOnly_readRecord i n (by simp) (by simp) changesOnly_refl
  exact frame.2.2 .slots (by simp)

theorem readRecord_slot (s : State) (i : Fin 64) (n : Nat) (j : Fin 64) : (s.readRecord i n).1.slot j = s.slot j := by
  simp [State.slot, readRecord_slots]

/-- R74, R76: all that the slot engine's read of a key can give: no record, a marked one, or what the check of it leaves. -/
theorem readRecord_cases (s : State) (i : Fin 64) (n : Nat) :
    (s.store.recordOf i n = none ∧ s.readRecord i n = (s, .missing)) ∨
    (∃ l, s.store.recordOf i n = some l ∧ l.faulted = true ∧ s.readRecord i n = (s, .faulted)) ∨
    (∃ l, s.store.recordOf i n = some l ∧ l.faulted = false ∧ (s.readRecord i n).1 = (s.readLocation l).1 ∧
      (s.readRecord i n).2 = ((s.readLocation l).2.elim .faulted fun image => .sound (imagePlan image))) := by
  unfold State.readRecord
  split
  · exact .inl ⟨‹_›, rfl⟩
  · rename_i l found
    split
    next marked => exact .inr (.inl ⟨l, found, marked, rfl⟩)
    next normal =>
      refine .inr (.inr ⟨l, found, by simpa using normal, ?_⟩)
      split <;> rename_i e <;> simp [e]

/-! ### The slot engine -/

section
variable {i : Fin 64} {Q : State → Prop} {t : State}

theorem SlotClosed.readLocation (c : SlotClosed i Q) {l : Location} (hl : l ∈ t.store.held) (hf : l.faulted = false) (h : Q t) :
    Q (t.readLocation l).1 := by
  unfold State.readLocation
  dsimp only
  split
  · exact c.raise _ _ (by simp [timeNotice]) (c.read t l h hl hf)
  · exact c.read t l h hl hf

theorem SlotClosed.readRecord (c : SlotClosed i Q) (j : Fin 64) (n : Nat) (h : Q t) : Q (t.readRecord j n).1 := by
  rcases readRecord_cases t j n with ⟨-, e⟩ | ⟨l, -, -, e⟩ | ⟨l, found, sound, e, -⟩
  · rw [e]; exact h
  · rw [e]; exact h
  · rw [e]; exact c.readLocation (PlanStore.recordOf_some found).1 sound h

/-- An update of slot `i` as it stands. -/
theorem SlotClosed.write (c : SlotClosed i Q) {x : Slot} (h : Q t) (hi : x.identity = (t.slot i).identity)
    (hu : x.state = .unused → (t.slot i).state = .unused) (hr : (t.slot i).run.isSome = true → x.run.isSome = true := by simp) :
    Q (t.setSlot i x) := c.slot t x h ⟨hi, hu, hr⟩

theorem SlotClosed.forceImmediate (c : SlotClosed i Q) (h : Q t) : Q (t.forceImmediate i) := c.write h rfl id

theorem SlotClosed.endTransition (c : SlotClosed i Q) (o : RecordOutcome) (h : Q t) : Q (t.endTransition i o) := by
  unfold State.endTransition
  split
  · exact h
  · exact c.write (c.record _ _ h rfl) rfl id

theorem SlotClosed.enterOverridden (c : SlotClosed i Q) (h : Q t) : Q (t.enterOverridden i).1 := by
  unfold State.enterOverridden
  exact c.raise _ _ (by simp [timeNotice]) (c.write (c.removeEntry _ (c.endTransition _ h)) rfl (by simp))

theorem SlotClosed.joinCause (c : SlotClosed i Q) (k : OverrideCause) (h : Q t) : Q (t.joinCause i k).1 := by
  rcases joinCause_cases t i k with ⟨-, e⟩ | ⟨-, -, -, e⟩ | ⟨-, -, -, -, e⟩ <;> rw [e]
  · exact h
  · exact c.write h rfl id
  · exact c.enterOverridden (c.write h rfl id)

theorem SlotClosed.leaveCause (c : SlotClosed i Q) (k : OverrideCause) (h : Q t) : Q (t.leaveCause i k) := c.write h rfl id

theorem SlotClosed.positionAttempt (c : SlotClosed i Q) (h : Q t) : Q (t.positionAttempt i).1 := by
  unfold State.positionAttempt
  dsimp only
  split
  · have slot := readRecord_slot t i (t.slot i).target i
    have read := c.readRecord i (t.slot i).target h
    split <;> rename_i e <;> rw [e] at slot read
    · have placed := fun pl run => c.write (x := { t.slot i with
          copy := some pl, current := (t.slot i).target, run := some run, count := 0, firstCycle := true })
        read (by rw [slot]; rfl) (by rw [slot]; exact id)
      split
      · exact placed _ _
      · exact c.enterOverridden (placed _ _)
    · exact read
  · exact h

theorem SlotClosed.targetEvent (c : SlotClosed i Q) (n : Nat) (k : Option Layer) (m : Option Mode) (h : Q t) :
    Q (t.targetEvent i n k m).1 := by
  unfold State.targetEvent
  dsimp only
  split
  · exact h
  · exact c.positionAttempt (c.write h rfl id)

theorem SlotClosed.enterLost (c : SlotClosed i Q) (h : Q t) : Q (t.enterLost i).1 :=
  c.raise _ _ (by simp [timeNotice]) (c.write (c.endTransition _ h) rfl (by simp))

theorem Slot.countMiss_identity (x : Slot) (k : MissKind) : (x.countMiss k).identity = x.identity := by cases k <;> rfl

theorem Slot.countMiss_state (x : Slot) (k : MissKind) : (x.countMiss k).state = x.state := by cases k <;> rfl

theorem Slot.countMiss_run (x : Slot) (k : MissKind) : (x.countMiss k).run = x.run := by cases k <;> rfl

theorem SlotClosed.miss (c : SlotClosed i Q) (k : MissKind) (h : Q t) : Q (t.miss i k).1 := by
  have kept : ∀ run trans, Q (t.setSlot i { (t.slot i).countMiss k with missRun := run, trans := trans }) := fun run trans =>
    c.write h (Slot.countMiss_identity _ k) (by simp [Slot.countMiss_state]) (by simp [Slot.countMiss_run])
  unfold State.miss
  dsimp only
  split
  · split
    · exact c.enterLost (kept _ _)
    · exact kept _ _
  · exact kept _ _

theorem SlotClosed.goodOutcome (c : SlotClosed i Q) (h : Q t) : Q (t.goodOutcome i).1 := by
  unfold State.goodOutcome
  dsimp only
  split
  · exact c.record _ _ (c.write h rfl (by simp)) rfl
  · exact c.raise _ _ (by simp [timeNotice]) (c.write h rfl (by simp))
  · exact c.write h rfl id

theorem SlotClosed.takeOverride (c : SlotClosed i Q) (o : FieldOverride) (h : Q t) : Q (t.takeOverride i o).1 := by
  unfold State.takeOverride
  dsimp only
  split
  · exact c.leaveCause _ (c.write h rfl id)
  · exact c.joinCause _ (c.write h rfl id)

theorem SlotClosed.takeOutcome (c : SlotClosed i Q) (o : ExchangeOutcome) (r : FieldOverride) (h : Q t) :
    Q (t.takeOutcome i o r).1 := by
  unfold State.takeOutcome
  dsimp only
  split
  · exact h
  · split
    · exact c.takeOverride r (c.goodOutcome h)
    · exact c.miss _ h
    · exact c.miss _ h
    · exact c.takeOverride r (c.miss _ h)

/-! ### The boundary -/

theorem SlotClosed.exitStep (c : SlotClosed i Q) (h : Q t) : Q (t.exitStep i) := by
  unfold State.exitStep
  dsimp only
  split
  · refine c.raise _ _ (by simp [timeNotice]) (c.write h ?_ ?_ ?_) <;> split <;> simp [Slot.identity]
  · exact h

theorem SlotClosed.adoptionFailed (c : SlotClosed i Q) {k : Notice} (engine : ¬timeNotice k) (h : Q t) : Q (t.adoptionFailed i k) := by
  unfold State.adoptionFailed
  split
  · exact h
  · exact c.raise _ _ engine (c.write h rfl id)

theorem SlotClosed.adoptTarget (c : SlotClosed i Q) (h : Q t) : Q (t.adoptTarget i).1 := by
  unfold State.adoptTarget
  dsimp only
  split
  · have slot := readRecord_slot t i (t.slot i).target i
    have read := c.readRecord i (t.slot i).target h
    split <;> rename_i e <;> rw [e] at slot read
    · exact c.write read (by rw [slot]; rfl) (by rw [slot]; exact id) (by rw [slot]; exact id)
    · exact c.adoptionFailed (by simp [timeNotice]) read
    · exact c.adoptionFailed (by simp [timeNotice]) read
  · exact h

theorem SlotClosed.shadowStep (c : SlotClosed i Q) (n : Nat) (a : Option EvalCause) (h : Q t) : Q (t.shadowStep i n a).1 := by
  unfold State.shadowStep
  dsimp only
  split
  · have promoted := c.promote t n h
    split
    · exact promoted
    · have read := c.readRecord i n promoted
      split <;> rename_i e <;> rw [e] at read
      · exact c.write read rfl id
      · exact c.raise _ _ (by simp [timeNotice]) read
      · exact c.raise _ _ (by simp [timeNotice]) read
  · exact h

theorem SlotClosed.adoptionStep (c : SlotClosed i Q) (h : Q t) : Q (t.adoptionStep i).1 := c.shadowStep _ _ (c.adoptTarget h)

theorem SlotClosed.planCycle (c : SlotClosed i Q) (h : Q t) : Q (t.planCycle i) := by
  unfold State.planCycle
  dsimp only
  split
  · exact c.write h rfl id
  · exact h

theorem SlotClosed.transitionCycle (c : SlotClosed i Q) (pl : Plan) (p e : Nat) (r : Transition) (d : Direction) (h : Q t) :
    Q (t.transitionCycle i pl p e r d) := c.write h rfl (by simp)

theorem SlotClosed.evaluateCause (c : SlotClosed i Q) (k : EvalCause) (h : Q t) : Q (t.evaluateCause i k) := by
  unfold State.evaluateCause
  dsimp only
  split
  · split
    · refine c.planCycle ?_
      split
      · exact h
      · exact c.record _ _ h rfl
    · exact c.transitionCycle _ _ _ _ _ h
  · exact h

theorem SlotClosed.evaluateCoordinated (c : SlotClosed i Q) (a : Option EvalCause) (b : Bool) (h : Q t) :
    Q (t.evaluateCoordinated i a b) := by
  unfold State.evaluateCoordinated
  dsimp only
  split
  · exact c.planCycle (c.write h rfl id)
  · exact c.evaluateCause _ (c.write h rfl id)

theorem SlotClosed.evaluateTransition (c : SlotClosed i Q) (a : Option EvalCause) (b : Bool) (h : Q t) :
    Q (t.evaluateTransition i a b) := by
  unfold State.evaluateTransition
  dsimp only
  split
  · exact c.evaluateCoordinated _ _ (c.write (c.endTransition _ h) rfl (by simp))
  · split
    · split
      · exact c.planCycle (c.write (c.endTransition _ h) rfl (by simp))
      · exact c.transitionCycle _ _ _ _ _ h
    · exact h

theorem SlotClosed.evaluateJoining (c : SlotClosed i Q) (a : Option EvalCause) (b : Bool) (h : Q t) :
    Q (t.evaluateJoining i a b) := by
  unfold State.evaluateJoining
  dsimp only
  split
  · split
    · exact c.write h rfl id
    · exact c.planCycle h
  · exact h

theorem SlotClosed.evaluationStep (c : SlotClosed i Q) (a : Option EvalCause) (b : Bool) (h : Q t) :
    Q (t.evaluationStep i a b) := by
  unfold State.evaluationStep
  split
  · exact c.evaluateCoordinated a b h
  · exact c.evaluateTransition a b h
  · exact c.evaluateJoining a b h
  · exact c.planCycle (c.write h rfl id)
  · exact c.planCycle h
  · exact h

theorem SlotClosed.stepAndEvaluate (c : SlotClosed i Q) (a : Option EvalCause) (h : Q t) : Q (t.stepAndEvaluate i a) :=
  c.evaluationStep _ _ (c.write h rfl id)

theorem SlotClosed.boundarySteps (c : SlotClosed i Q) (p : Nat) (h : Q t) : Q (t.boundarySteps i p) :=
  c.stepAndEvaluate _ (c.adoptionStep (c.exitStep (c.write h rfl id (by simp [Slot.beginCycle]))))

theorem SlotClosed.handOverStep (c : SlotClosed i Q) (h : Q t) : Q (t.handOverStep i).1 := by
  unfold State.handOverStep
  dsimp only
  split
  · exact c.handOver t _ h
  · exact c.miss _ (c.handOver t _ h)

theorem boundary_fst (t : State) (i : Fin 64) (p : Nat) : (t.boundary i p).1 = ((t.boundarySteps i p).handOverStep i).1 := by
  have e : t.boundary i p = Sent.andThen
      (t.boundarySteps i p, changeEvents i (t.slot i) ((t.boundarySteps i p).slot i)) (fun s => s.handOverStep i) := rfl
  rw [e]
  generalize t.boundarySteps i p = u
  rfl

theorem SlotClosed.boundary (c : SlotClosed i Q) (p : Nat) (h : Q t) : Q (t.boundary i p).1 := by
  have evaluated := c.boundarySteps p h
  rw [boundary_fst]
  generalize t.boundarySteps i p = u at evaluated ⊢
  exact c.handOverStep evaluated

theorem SlotClosed.advanceSlot (c : SlotClosed i Q) (k : Nat) (h : Q t) : Q (t.advanceSlot i k).1 := by
  unfold State.advanceSlot
  split
  · exact h
  · split
    · exact c.write h rfl id
    · exact c.boundary _ h

end

/-! ### The group coordinator and the evaluations -/

section
variable {Q : State → Prop} {t : State}

/-- Operations in turn keep what each of them keeps. -/
theorem keeps_overSlots {f : State → Fin 64 → Sent} (hf : ∀ t i, Q t → Q (f t i).1) (is : List (Fin 64)) (h : Q t) :
    Q (overSlots is f t).1 :=
  List.foldlRecOn (motive := fun a : Sent => Q a.1) is _ h fun _ ha i _ => hf _ i ha

theorem keeps_foldl {α : Type} {f : State → α → State} (hf : ∀ t a, Q t → Q (f t a)) (l : List α) (h : Q t) : Q (l.foldl f t) :=
  List.foldlRecOn (motive := Q) l f h fun _ ht a _ => hf _ a ht

theorem GroupClosed.forceAll (c : GroupClosed Q) (is : List (Fin 64)) (h : Q t) : Q (t.forceAll is) :=
  keeps_foldl (fun _ i ht => c.force _ i ht) is h

theorem GroupClosed.settle (c : GroupClosed Q) (g : Fin 16) (b : Bool) (h : Q t) : Q (t.settle g b) := by
  unfold State.settle
  dsimp only
  split <;> split <;> apply_rules [c.raise, c.group] <;> simp [timeNotice]

theorem GroupClosed.adoptedBy (c : GroupClosed Q) (g : Fin 16) (m : Member) (n : Nat) (h : Q t) : Q (t.adoptedBy g m n) := by
  unfold State.adoptedBy
  split
  · exact c.group _ _ _ h
  · exact h

theorem GroupClosed.takeMember (c : GroupClosed Q) (e : MemberEvent) (h : Q t) : Q (t.takeMember e) := by
  unfold State.takeMember
  split
  · exact c.settle _ _ (c.member _ _ _ h)
  · exact h
  · dsimp only
    split
    · exact c.settle _ _ (c.member _ _ _ h)
    · split
      · exact c.force _ _ (c.settle _ _ (c.member _ _ _ (c.adoptedBy _ _ _ h)))
      · exact c.settle _ _ (c.member _ _ _ (c.adoptedBy _ _ _ h))

theorem GroupClosed.takeMembers (c : GroupClosed Q) (es : List MemberEvent) (h : Q t) : Q (t.takeMembers es) :=
  keeps_foldl (fun _ e ht => c.takeMember e ht) es h

theorem GroupClosed.deliver (c : GroupClosed Q) {a : Sent} (h : Q a.1) : Q a.deliver := c.takeMembers _ h

theorem GroupClosed.arrive (c : GroupClosed Q) (w : OnWay) (h : Q t) : Q (t.arrive w) := c.forceAll _ (c.takeMembers _ h)

theorem GroupClosed.checkLimit (c : GroupClosed Q) (g : Fin 16) (h : Q t) : Q (t.checkLimit g).1 := by
  unfold State.checkLimit
  split
  · exact c.raise _ _ (by simp [timeNotice]) (c.group _ _ _ h)
  · exact h

theorem GroupClosed.groupMinute (c : GroupClosed Q) (g : Fin 16) (h : Q t) : Q (t.groupMinute g).1 := by
  unfold State.groupMinute
  dsimp only
  refine c.checkLimit g ?_
  split
  · exact h
  · exact c.group _ _ _ h

/-- R85: a selection keeps what the coordinator's updates and the target events of its members keep. -/
theorem GroupClosed.takeSelection (c : GroupClosed Q) (target : ∀ t i n k m, Q t → Q (t.targetEvent i n k m).1)
    (g : Fin 16) (r : Selection) (h : Q t) : Q (t.takeSelection g r) :=
  c.takeMembers _ (c.settle _ _ (keeps_overSlots (fun _ i ht => target _ i _ _ _ ht) _ (c.group _ _ _ h)))

theorem EngineClosed.coordinator (c : EngineClosed Q) : GroupClosed Q where
  raise := (c.slots 0).raise
  force _ i h := (c.slots i).forceImmediate h
  group := c.group
  member := c.member

theorem EngineClosed.raise (c : EngineClosed Q) (k : Notice) (engine : ¬timeNotice k) (h : Q t) : Q (t.raise k) :=
  c.coordinator.raise _ k engine h

theorem EngineClosed.forceAll (c : EngineClosed Q) (is : List (Fin 64)) (h : Q t) : Q (t.forceAll is) := c.coordinator.forceAll is h

theorem EngineClosed.settle (c : EngineClosed Q) (g : Fin 16) (b : Bool) (h : Q t) : Q (t.settle g b) := c.coordinator.settle g b h

theorem EngineClosed.takeMember (c : EngineClosed Q) (e : MemberEvent) (h : Q t) : Q (t.takeMember e) := c.coordinator.takeMember e h

theorem EngineClosed.takeMembers (c : EngineClosed Q) (es : List MemberEvent) (h : Q t) : Q (t.takeMembers es) :=
  c.coordinator.takeMembers es h

theorem EngineClosed.deliver (c : EngineClosed Q) {a : Sent} (h : Q a.1) : Q a.deliver := c.coordinator.deliver h

theorem EngineClosed.arrive (c : EngineClosed Q) (w : OnWay) (h : Q t) : Q (t.arrive w) := c.coordinator.arrive w h

theorem EngineClosed.checkLimit (c : EngineClosed Q) (g : Fin 16) (h : Q t) : Q (t.checkLimit g).1 := c.coordinator.checkLimit g h

theorem EngineClosed.groupMinute (c : EngineClosed Q) (g : Fin 16) (h : Q t) : Q (t.groupMinute g).1 := c.coordinator.groupMinute g h

theorem EngineClosed.takeSelection (c : EngineClosed Q) (g : Fin 16) (r : Selection) (h : Q t) : Q (t.takeSelection g r) :=
  c.coordinator.takeSelection (fun _ i _ _ _ ht => (c.slots i).targetEvent _ _ _ ht) g r h

theorem EngineClosed.evaluateGroups (c : EngineClosed Q) (gs : List (Fin 16)) (d m : Nat) (h : Q t) : Q (t.evaluateGroups gs d m) :=
  keeps_foldl (fun _ _ ht => c.takeSelection _ _ ht) gs h

theorem EngineClosed.evaluateNow (c : EngineClosed Q) (gs : List (Fin 16)) (h : Q t) : Q (t.evaluateNow gs) := by
  unfold State.evaluateNow
  split
  · exact c.evaluateGroups _ _ _ h
  · exact h

theorem EngineClosed.setStepFlags (c : EngineClosed Q) (is : List (Fin 64)) (h : Q t) : Q (t.setStepFlags is) :=
  keeps_foldl (fun t i ht => (c.slots i).write (x := { t.slot i with stepFlag := true }) ht rfl id) is h

theorem EngineClosed.reportOutcome (c : EngineClosed Q) (x : Exchange) (o : ExchangeOutcome) (r : FieldOverride) (h : Q t) :
    Q (t.reportOutcome x o r) := by
  unfold State.reportOutcome
  split
  · exact h
  · exact c.deliver ((c.slots _).takeOutcome _ _ h)

end

end Sys2Proof.Machine
end

section
/-! PROOFS. A port stays sound (Table 7-1, R118, R119, R122, R187) under every operation of the field port controller. -/

namespace Sys2Proof.Machine

/-! ### What soundness says -/

section
variable {q : Port} {i : Fin 64}

theorem directionAsserted_iff : q.directionAsserted = true ↔ ∃ x, q.exchange = some x ∧ x.phase = .sending := by
  unfold Port.directionAsserted
  cases q.exchange <;> simp

theorem directionAsserted_of_none (h : q.exchange = none) : q.directionAsserted = false := by
  simp [Port.directionAsserted, h]

/-- A port in a window: it has an exchange and drives no bytes. -/
theorem Port.sound_of_quiet (state : q.state = .awaiting ↔ q.exchange.isSome) (low : 20 ≤ q.window) (high : q.window ≤ 200)
    (nodup : (q.queue.map QueueEntry.slot).Nodup)
    (apart : ∀ x, q.exchange = some x → x.detached = false → x.slot ∉ q.queue.map QueueEntry.slot)
    (quiet : q.directionAsserted = false) (wire : q.wire = []) : q.sound := by
  refine ⟨state, low, high, nodup, apart, fun _ => wire, fun x hx sending => ?_⟩
  rw [directionAsserted_iff.mpr ⟨x, hx, sending⟩] at quiet
  cases quiet

/-- A port with no exchange is sound when its state, window, queue and line say so. -/
theorem Port.sound_of_free (none : q.exchange = none) (state : q.state ≠ .awaiting) (low : 20 ≤ q.window) (high : q.window ≤ 200)
    (nodup : (q.queue.map QueueEntry.slot).Nodup) (wire : q.wire = []) : q.sound :=
  Port.sound_of_quiet (by simp [none, state]) low high nodup (by simp [none]) (directionAsserted_of_none none) wire

theorem Port.sound_cold (line : LineCondition) : (Port.coldAt line).sound :=
  Port.sound_of_free rfl (by simp [Port.coldAt, Port.cold]) (by simp [Port.coldAt, Port.cold]) (by simp [Port.coldAt, Port.cold])
    List.nodup_nil rfl

/-! ### Updates that soundness does not look at -/

/-- Two ports that differ in their line, timers and counts and in the frames of their queue only. -/
def Port.sameTraffic (q t : Port) : Prop :=
  t.state = q.state ∧ t.window = q.window ∧ t.queue.map QueueEntry.slot = q.queue.map QueueEntry.slot ∧
    t.exchange = q.exchange ∧ t.wire = q.wire

theorem Port.sound_congr {t : Port} (same : q.sameTraffic t) (h : q.sound) : t.sound := by
  obtain ⟨state, window, queue, exchange, wire⟩ := same
  unfold Port.sound Port.directionAsserted at *
  rw [state, window, queue, exchange, wire]
  exact h

/-! ### Operations -/

/-- R121: the head frame of a sound port goes into an exchange, whose frame its line then carries. -/
theorem Port.sound_startIfReady (h : q.sound) : q.startIfReady.sound := by
  rcases startIfReady_cases q with ⟨e, rest, -, -, queue, eq⟩ | ⟨-, eq⟩
  · obtain ⟨-, low, high, nodup, -⟩ := h
    rw [queue, List.map_cons, List.nodup_cons] at nodup
    rw [eq]
    refine ⟨by simp, low, high, nodup.2, fun x hx _ => ?_, fun quiet => ?_, fun x hx _ => ?_⟩
    · cases hx
      exact nodup.1
    · simp [Port.directionAsserted, QueueEntry.exchange] at quiet
    · cases hx
      exact ⟨e.frame, rfl, rfl, rfl, rfl, rfl, rfl⟩
  · rw [eq]; exact h

theorem Port.sound_removeEntry (i : Fin 64) (h : q.sound) : (q.removeEntry i).sound := by
  obtain ⟨state, low, high, nodup, apart, quiet, carried⟩ := h
  have sub : ((q.queue.filter fun e => e.slot != i).map QueueEntry.slot).Sublist (q.queue.map QueueEntry.slot) :=
    List.Sublist.map _ List.filter_sublist
  exact ⟨state, low, high, nodup.sublist sub, fun x hx hd hm => apart x hx hd (sub.subset hm), quiet, carried⟩

theorem finding_gone (h : q.finding i = .gone) :
    i ∉ q.queue.map QueueEntry.slot ∧ ∀ x, q.exchange = some x → x.detached = false → x.slot ≠ i := by
  unfold Port.finding at h
  split at h
  · cases h
  · rename_i absent
    split at h
    · cases h
    · rename_i free
      refine ⟨by simpa using absent, fun x hx hd he => free ?_⟩
      simp [hx, hd, he]

/-- The slots of the queue stand where a slot's frame is replaced by another of its own. -/
theorem map_slot_replace (f : FieldFrame) (l : List QueueEntry) :
    (l.map fun e => if e.slot == i then ⟨i, f⟩ else e).map QueueEntry.slot = l.map QueueEntry.slot := by
  rw [List.map_map]
  refine List.map_congr_left fun e _ => ?_
  by_cases he : e.slot = i <;> simp [he]

/-- R119: a frame is queued for a slot only where none of its frames is queued or in flight. -/
theorem Port.sound_handOver (i : Fin 64) (frame : Option FieldFrame) (h : q.sound) : (q.handOver i frame).1.sound := by
  rcases handOver_cases q i frame with ⟨gone, eq⟩ | ⟨-, eq⟩ | ⟨-, eq⟩ <;> rw [eq]
  · cases frame with
    | none => exact h
    | some f =>
      obtain ⟨absent, free⟩ := finding_gone gone
      obtain ⟨state, low, high, nodup, apart, quiet, carried⟩ := h
      refine Port.sound_startIfReady ⟨state, low, high, ?_, fun x hx hd hm => ?_, quiet, carried⟩
      · rw [List.map_append]
        exact List.Nodup.append nodup (List.nodup_singleton _) (by simpa using absent)
      · rw [List.map_append, List.mem_append] at hm
        rcases hm with hm | hm
        · exact apart x hx hd hm
        · exact free x hx hd (by simpa using hm)
  · cases frame with
    | none => exact Port.sound_removeEntry i h
    | some f => exact Port.sound_congr (q := q) ⟨rfl, rfl, map_slot_replace f q.queue, rfl, rfl⟩ h
  · exact h

/-- R120: the exchange of a released slot goes on detached, with its frame on the line. -/
theorem Port.sound_release (i : Fin 64) (h : q.sound) : (q.release i).sound := by
  obtain ⟨state, low, high, nodup, apart, quiet, carried⟩ := Port.sound_removeEntry i h
  have given : ∀ x, (q.release i).exchange = some x → ∃ y, q.exchange = some y ∧
      x = if y.slot == i then { y with detached := true } else y := by
    intro x hx
    obtain ⟨y, hy, rfl⟩ := Option.map_eq_some_iff.mp hx
    exact ⟨y, hy, rfl⟩
  have sending : (q.release i).directionAsserted = q.directionAsserted := by
    cases hx : q.exchange with
    | none => simp [Port.directionAsserted, Port.release, hx]
    | some y =>
      simp only [Port.directionAsserted, Port.release, hx, Option.map_some]
      split <;> rfl
  refine ⟨?_, low, high, nodup, fun x hx hd hm => ?_, fun hq => quiet (sending ▸ hq), fun x hx hs => ?_⟩
  · have held : (q.release i).exchange.isSome = (q.removeEntry i).exchange.isSome := Option.isSome_map
    rw [held]
    exact state
  · obtain ⟨y, hy, rfl⟩ := given x hx
    split at hd
    · cases hd
    · rename_i other
      rw [if_neg other] at hm
      exact apart y hy hd hm
  · obtain ⟨y, hy, rfl⟩ := given x hx
    by_cases own : (y.slot == i) = true
    · rw [if_pos own] at hs ⊢
      exact carried y hy hs
    · rw [if_neg own] at hs ⊢
      exact carried y hy hs

/-- R128: the port of an exchange that has ended. -/
theorem Port.sound_endExchange (h : q.sound) (notSending : q.directionAsserted = false) : q.endExchange.sound := by
  obtain ⟨-, low, high, nodup, -, quiet, -⟩ := h
  exact Port.sound_startIfReady (Port.sound_of_free rfl (by simp) low high nodup (quiet notSending))

theorem Port.sound_lineSeen (line : LineCondition) (h : q.sound) : (q.lineSeen line).sound := by
  rcases lineSeen_cases q line with ⟨-, eq⟩ | ⟨-, -, eq⟩ | ⟨-, -, eq⟩ <;> rw [eq]
  · exact h
  · exact Port.sound_congr ⟨rfl, rfl, rfl, rfl, rfl⟩ h
  · exact Port.sound_startIfReady (Port.sound_congr ⟨rfl, rfl, rfl, rfl, rfl⟩ h)

theorem Port.sound_transmitEnd (line : LineCondition) (h : q.sound) : (q.transmitEnd line).sound := by
  unfold Port.transmitEnd
  split
  next x hx =>
    split
    next =>
      obtain ⟨state, low, high, nodup, apart, -, -⟩ := h
      refine Port.sound_of_quiet (by simpa [hx] using state) low high nodup (fun y hy hd => ?_) (by simp [Port.directionAsserted]) rfl
      cases hy
      exact apart x hx hd
    next => exact h
  next => exact h

theorem Port.sound_block (h : q.sound) (notSending : q.directionAsserted = false) : q.block.sound := by
  obtain ⟨-, low, high, nodup, -, quiet, -⟩ := h
  exact Port.sound_of_free rfl (by simp [Port.block]) low high nodup (quiet notSending)

theorem Port.sound_unblock (h : q.sound) (blocked : q.state = .blocked) : q.unblock.sound := by
  obtain ⟨state, low, high, nodup, -, quiet, -⟩ := h
  have none : q.exchange = none := by simpa [blocked] using state
  exact Port.sound_startIfReady (Port.sound_of_free none (by simp) low high nodup (quiet (directionAsserted_of_none none)))

/-- An exchange that is seen further on in its window. -/
theorem Port.sound_windowSeen {t : Port} (f : Exchange → Exchange) (h : q.sound) (notSending : q.directionAsserted = false)
    (same : t.state = q.state ∧ t.window = q.window ∧ t.queue = q.queue ∧ t.wire = q.wire) (exchange : t.exchange = q.exchange.map f)
    (stands : ∀ x, (f x).slot = x.slot ∧ (f x).detached = x.detached ∧ (f x).phase = x.phase) : t.sound := by
  obtain ⟨state, low, high, nodup, apart, quiet, -⟩ := h
  obtain ⟨sameState, sameWindow, sameQueue, sameWire⟩ := same
  refine Port.sound_of_quiet ?_ (sameWindow ▸ low) (sameWindow ▸ high) (sameQueue ▸ nodup) (fun y hy hd => ?_) ?_
    (sameWire.trans (quiet notSending))
  · rw [sameState, exchange]; simpa using state
  · rw [exchange] at hy
    obtain ⟨x, hx, rfl⟩ := Option.map_eq_some_iff.mp hy
    obtain ⟨slot, detached, -⟩ := stands x
    rw [sameQueue, slot]
    exact apart x hx (detached ▸ hd)
  · cases hx : q.exchange with
    | none => simp [Port.directionAsserted, exchange, hx]
    | some x => simpa [Port.directionAsserted, exchange, hx, (stands x).2.2] using notSending

theorem Port.sound_badFrame (ms : Nat) (line : LineCondition) (h : q.sound) : (q.badFrame ms line).sound := by
  unfold Port.badFrame
  split
  next => exact h
  next notSending =>
    exact Port.sound_startIfReady (Port.sound_windowSeen (fun x => { x.atElapsed ms with badSeen := true }) h (by simpa [Port.sending] using notSending)
      ⟨rfl, rfl, rfl, rfl⟩ rfl fun _ => ⟨rfl, rfl, rfl⟩)

theorem Port.sound_frameSeen (line : LineCondition) (h : q.sound) : (q.frameSeen line).sound :=
  Port.sound_congr ⟨rfl, rfl, rfl, rfl, rfl⟩ h

theorem Port.sound_outsideReply (line : LineCondition) (h : q.sound) : (q.outsideReply line).sound :=
  Port.sound_startIfReady (Port.sound_congr ⟨rfl, rfl, rfl, rfl, rfl⟩ h)

theorem Port.sound_warm (line : LineCondition) (h : q.sound) : (q.warm line).sound :=
  Port.sound_of_free rfl (by simp [Port.warm]) h.2.1 h.2.2.1 List.nodup_nil rfl

end

end Sys2Proof.Machine
end

section
/-! PROOFS. What each command can change, as a list of blocks, and what the commands that are made of shared operations keep. -/

namespace Sys2Proof.Machine

/-! ### The state after a command -/

/-- The state that a command leaves. -/
def after (c : Instr) (s : State) : State :=
  match exec c s with
  | .next t => t
  | .fault _ | .refused _ => s

/-- Every command answers a next state (log entry 23). -/
theorem exec_eq_after (c : Instr) (s : State) : exec c s = .next (after c s) := by cases c <;> rfl

/-- The owner of a request row: what it does, and the reply that it gives, once the engine carries the request out (R158). The
RESTART rows have none: they are answered by the engine itself (R162). -/
def ownerOf : Instr → Option (State → Answer)
  | .readTime _ => some (fun s => { state := s, outcome := .done, fields := s.time.readFields })
  | .setDay _ day => some (fun s => { state := s.setDayNumber day.toNat, outcome := .done })
  | .unknownRequestCode _ code params => if namesNoRow code params then some (refuse .badValue) else none
  | .readStation _ clear => some (readStation clear)
  | .setPort _ port window clear => some (setPortRequest port window clear)
  | .readPort _ port => some (readPort port)
  | .defineSlot _ slot intersection port drop group divider mode => some (defineSlot slot intersection port drop group divider mode)
  | .releaseSlot _ slot => some (releaseSlot slot)
  | .readSlot _ slot => some (readSlot slot)
  | .setHoldMap _ line map => some (setHoldMap line map)
  | .clearOverride _ slot => some (clearOverride slot)
  | .setGroup _ group defaultPlan policy mode tol limit => some (setGroup group defaultPlan policy mode tol limit)
  | .readGroup _ group cursor => some (readGroup group cursor)
  | .setCalendar _ day action dayType => some (setCalendar day action dayType)
  | .addBase _ group mask start plan mode => some (addBase group mask start plan mode)
  | .addEvent _ group startDay startMinute endDay endMinute plan priority mode => some (addEvent group startDay startMinute endDay endMinute plan priority mode)
  | .cutEntry _ kind id => some (cutEntry kind id)
  | .readTimetable _ collection cursor => some (readTimetable collection cursor)
  | .setCue _ cue group plan duration priority => some (setCue cue group plan duration priority)
  | .cutCue _ cue group => some (cutCue cue group)
  | .directPlan _ group plan duration => some (directPlan group plan duration)
  | .endDirect _ group => some (endDirect group)
  | .setRecording _ filter reload choice => some (setRecording filter reload choice)
  | .readRecords _ maximum => some (readRecords maximum)
  | .readNotices _ => some readNotices
  | .setNoticeMask _ mask => some (setNoticeMask mask)
  | .loadPlan _ slot plan cycle offset shortPct longPct coord phases => some (loadPlan slot plan (planGiven cycle offset shortPct longPct coord phases))
  | .dropPlan _ slot plan part => some (dropPlan slot plan part)
  | .readPlan _ slot plan part => some (readPlan slot plan part)
  | .checksumPlans _ first last sum => some (checksumPlans first.toNat last.toNat sum.toNat)
  | .testLocation _ location => some (testLocation location.toNat)
  | .forceCheck _ location word bit1 bit2 => some (forceCheck location.toNat word.toNat bit1 bit2)
  | .scrubControl _ code => some (scrubControl code)
  | .readLogout _ => some readLogout
  | _ => none

theorem exec_of_owner {i : Instr} {o : State → Answer} (h : ownerOf i = some o) (s : State) : exec i s = .next (carryOut i o s) := by
  cases i with
  | unknownRequestCode src code params =>
    obtain ⟨named, rfl⟩ : namesNoRow code params = true ∧ refuse .badValue = o := by
      simpa only [ownerOf, Option.ite_none_right_eq_some, Option.some.injEq] using h
    exact congrArg Host.Outcome.next (if_pos named)
  | _ => cases h <;> rfl

theorem after_of_owner {i : Instr} {o : State → Answer} (h : ownerOf i = some o) (s : State) : after i s = carryOut i o s := by
  unfold after
  rw [exec_of_owner h]

/-- A property that every command keeps, whatever the queue, is kept by every step. -/
theorem step_keeps {Q : State → Prop} (queue : ∀ s x, Q s → Q (s.setPending x)) (commands : ∀ c s, Q s → Q (after c s))
    {s t : State} (h : Q s) (hs : step s = .next t) : Q t := by
  unfold step at hs
  split at hs
  · cases hs; exact h
  · rename_i c rest _
    rw [exec_eq_after] at hs
    cases hs
    exact commands c _ (queue s rest h)

/-! ### Frames of the requests' owners -/

section
variable {s : State} {bs : List Block}

theorem engineDone_frame (ht : Block.mgmt ∈ bs) {t : State} (h : s.changesOnly t bs) : s.changesOnly t.engineDone bs :=
  changesOnly_setMgmt _ ht h

theorem placeReply_frame (ht : Block.trunk ∈ bs) (hm : Block.mgmt ∈ bs) (r : Request) (f : TrunkFrame) {t : State}
    (h : s.changesOnly t bs) : s.changesOnly (t.placeReply r f) bs := by
  unfold State.placeReply
  split
  · exact engineDone_frame hm h
  · split
    · exact engineDone_frame hm (changesOnly_setTrunk _ ht h)
    · exact changesOnly_setMgmt _ hm h

/-- R158: carrying a request out changes what its owner changes, the trunk interface and the engine. -/
theorem carryOut_frame (i : Instr) {owner : State → Answer} (h : s.changesOnly (owner s).state bs) :
    s.changesOnly (carryOut i owner s) (.trunk :: .mgmt :: bs) := by
  unfold carryOut
  split
  · simp
  · split
    · simp
    · split
      · exact engineDone_frame (by simp) changesOnly_refl
      · exact placeReply_frame (by simp) (by simp) _ _ (changesOnly_mono h (by simp))

theorem changed_frame (t : Timetable) (gs : List (Fin 16)) (fields : List Byte) (ht : Block.tables ∈ bs)
    (hb : Block.engine ⊆ bs) : s.changesOnly (changed s t gs fields).state bs :=
  changesOnly_evaluateNow gs hb (changesOnly_setTables t ht changesOnly_refl)

theorem changesOnly_setDayNumber (day : Nat) (htime : Block.time ∈ bs) (ht : Block.tables ∈ bs) (hb : Block.engine ⊆ bs) :
    s.changesOnly (s.setDayNumber day) bs := by
  unfold State.setDayNumber
  dsimp only
  split
  · exact changesOnly_stepEvent hb ht (changesOnly_raise _ (records_mem hb) (changesOnly_setTime _ htime changesOnly_refl))
  · exact changesOnly_setTime _ htime changesOnly_refl

theorem defineSlot_frame (slot : Byte) (x : Half) (p d g v m : Byte) (hb : Block.engine ⊆ bs) :
    s.changesOnly (defineSlot slot x p d g v m s).state bs := by
  unfold defineSlot
  split
  · exact changesOnly_refl
  · split
    · exact changesOnly_refl
    · split
      · exact changesOnly_refl
      · exact changesOnly_deliver hb (changesOnly_positionAttempt _ hb (changesOnly_takeMember _ (slots_mem hb) (groups_mem hb)
          (members_mem hb) (records_mem hb) (changesOnly_setSlot _ _ (slots_mem hb) changesOnly_refl)))

theorem changesOnly_releaseSlot (i : Fin 64) (hb : Block.engine ⊆ bs) : s.changesOnly (s.releaseSlot i) bs :=
  changesOnly_takeMember _ (slots_mem hb) (groups_mem hb) (members_mem hb) (records_mem hb) (changesOnly_setSlot _ _ (slots_mem hb)
    (changesOnly_setStore _ (store_mem hb) (changesOnly_setPort _ _ (ports_mem hb)
      (changesOnly_endTransition i _ hb changesOnly_refl))))

/-- A request that names a defined slot is refused, or does what it does at that slot. -/
theorem onDefinedSlot_cases (slot : Byte) (f : Fin 64 → Answer) (s : State) :
    (63 < slot.toNat ∧ onDefinedSlot slot f s = refuse .badValue s) ∨
    (∃ i : Fin 64, slot.toNat = i.val ∧ (s.slot i).state = .unused ∧ onDefinedSlot slot f s = refuse .noSuch s) ∨
    (∃ i : Fin 64, slot.toNat = i.val ∧ (s.slot i).state ≠ .unused ∧ onDefinedSlot slot f s = f i) := by
  unfold onDefinedSlot index?
  by_cases h : slot.toNat < 64
  · by_cases hu : (s.slot ⟨slot.toNat, h⟩).state = .unused
    · exact .inr (.inl ⟨⟨_, h⟩, rfl, hu, by simp [h, hu]⟩)
    · exact .inr (.inr ⟨⟨_, h⟩, rfl, hu, by simp [h, hu]⟩)
  · exact .inl ⟨by omega, by simp [h]⟩

theorem releaseSlot_frame (slot : Byte) (hb : Block.engine ⊆ bs) : s.changesOnly (releaseSlot slot s).state bs := by
  rcases onDefinedSlot_cases slot (fun i => { state := s.releaseSlot i, outcome := .done }) s with ⟨-, e⟩ | ⟨-, -, -, e⟩ | ⟨i, -, -, e⟩
    <;> rw [releaseSlot, e]
  · exact changesOnly_refl
  · exact changesOnly_refl
  · exact changesOnly_releaseSlot i hb

theorem clearOverride_frame (slot : Byte) (hb : Block.slots ∈ bs) : s.changesOnly (clearOverride slot s).state bs := by
  rcases onDefinedSlot_cases slot (fun i =>
      if (s.slot i).state ≠ .overridden ∨ (s.slot i).mode = .perCycle then refuse .state s
      else { state := s.setSlot i { s.slot i with latch := false }, outcome := .done,
             fields := ({ s.slot i with latch := false } : Slot).overrideFields }) s with ⟨-, e⟩ | ⟨-, -, -, e⟩ | ⟨i, -, -, e⟩
    <;> rw [show clearOverride slot s = _ from e]
  · exact changesOnly_refl
  · exact changesOnly_refl
  · split
    · exact changesOnly_refl
    · exact changesOnly_setSlot _ _ hb changesOnly_refl

theorem readSlot_frame (slot : Byte) : s.changesOnly (readSlot slot s).state bs := by
  unfold readSlot
  split <;> exact changesOnly_refl

theorem loadPlan_frame (slot plan : Byte) (p : Plan) (hb : Block.store ∈ bs) : s.changesOnly (loadPlan slot plan p s).state bs := by
  unfold loadPlan
  split
  · exact changesOnly_refl
  · split
    · unfold loadChecked
      split
      · exact changesOnly_refl
      · split
        · exact changesOnly_refl
        · split
          · exact changesOnly_refl
          · exact changesOnly_setStore _ hb changesOnly_refl
    · exact changesOnly_refl

theorem dropPlan_frame (slot plan part : Byte) (hb : Block.store ∈ bs) : s.changesOnly (dropPlan slot plan part s).state bs := by
  unfold dropPlan
  split
  · split
    · split
      · unfold dropRecord
        split
        · exact changesOnly_refl
        · split
          · exact changesOnly_refl
          · exact changesOnly_setStore _ hb changesOnly_refl
      · unfold dropShadow
        split
        · exact changesOnly_setStore _ hb changesOnly_refl
        · exact changesOnly_refl
    · exact changesOnly_refl
  · exact changesOnly_refl

theorem readHeld_frame (l : Location) (hs : Block.store ∈ bs) (hr : Block.records ∈ bs) : s.changesOnly (readHeld l s).state bs := by
  unfold readHeld
  split
  · exact changesOnly_refl
  · have read := changesOnly_readLocation (s := s) (t := s) l hs hr changesOnly_refl
    split <;> rename_i e <;> rw [e] at read <;> exact read

theorem readPlan_frame (slot plan part : Byte) (hs : Block.store ∈ bs) (hr : Block.records ∈ bs) :
    s.changesOnly (readPlan slot plan part s).state bs := by
  unfold readPlan
  split
  · split
    · unfold readChecked
      split
      · exact changesOnly_refl
      · split
        · exact changesOnly_refl
        · exact readHeld_frame _ hs hr
    · exact changesOnly_refl
  · exact changesOnly_refl

theorem setGroup_frame (group plan policy mode tol limit : Byte) (hb : Block.engine ⊆ bs) :
    s.changesOnly (setGroup group plan policy mode tol limit s).state bs := by
  unfold setGroup
  split
  · refine changesOnly_evaluateNow _ hb ?_
    split
    · exact changesOnly_setGroup _ _ (groups_mem hb) changesOnly_refl
    · exact changesOnly_settle _ _ (groups_mem hb) (records_mem hb) (changesOnly_setGroup _ _ (groups_mem hb) changesOnly_refl)
  · exact changesOnly_refl

theorem readGroup_frame (group cursor : Byte) : s.changesOnly (readGroup group cursor s).state bs := by
  unfold readGroup
  split
  · exact changesOnly_refl
  · split
    · exact changesOnly_refl
    · dsimp only
      split <;> exact changesOnly_refl

theorem readTimetable_frame (collection : Byte) (cursor : Half) : s.changesOnly (readTimetable collection cursor s).state bs := by
  unfold readTimetable
  split
  · split
    · unfold readItems
      dsimp only
      split <;> exact changesOnly_refl
    · exact changesOnly_refl
  · exact changesOnly_refl

section
variable (ht : Block.tables ∈ bs) (hb : Block.engine ⊆ bs)
include ht hb

theorem setCalendar_frame (day : Half) (action dayType : Byte) : s.changesOnly (setCalendar day action dayType s).state bs := by
  unfold setCalendar
  split
  · split
    · unfold calendarSet
      dsimp only
      split <;> split
      · exact changesOnly_refl
      · exact changed_frame _ _ _ ht hb
      · exact changed_frame _ _ _ ht hb
      · exact changesOnly_refl
    · exact changesOnly_refl
  · unfold calendarRemove
    dsimp only
    split
    · exact changed_frame _ _ _ ht hb
    · exact changesOnly_refl
  · exact changesOnly_refl

theorem addBase_frame (group mask : Byte) (start : Half) (plan mode : Byte) :
    s.changesOnly (addBase group mask start plan mode s).state bs := by
  unfold addBase
  split
  · split
    · exact changesOnly_refl
    · unfold addBaseChecked
      dsimp only
      split
      · exact changesOnly_refl
      · split
        · exact changesOnly_refl
        · exact changed_frame _ _ _ ht hb
  · exact changesOnly_refl

theorem addEvent_frame (group : Byte) (startDay startMinute endDay endMinute : Half) (plan priority mode : Byte) :
    s.changesOnly (addEvent group startDay startMinute endDay endMinute plan priority mode s).state bs := by
  unfold addEvent
  split
  · exact changesOnly_refl
  · split
    · exact changesOnly_refl
    · unfold addEventChecked
      dsimp only
      split
      · exact changesOnly_refl
      · split
        · exact changesOnly_refl
        · exact changed_frame _ _ _ ht hb

theorem cutEntry_frame (kind : Byte) (id : Half) : s.changesOnly (cutEntry kind id s).state bs := by
  unfold cutEntry
  split <;> try exact changesOnly_refl
  · split
    · unfold cutBase
      dsimp only
      split
      · exact changed_frame _ _ _ ht hb
      · exact changesOnly_refl
    · exact changesOnly_refl
  · split
    · unfold cutEvent
      dsimp only
      split
      · exact changed_frame _ _ _ ht hb
      · exact changesOnly_refl
    · exact changesOnly_refl

theorem directPlan_frame (group plan : Byte) (duration : Half) : s.changesOnly (directPlan group plan duration s).state bs := by
  unfold directPlan
  split
  · split
    · exact changesOnly_refl
    · exact changed_frame _ _ _ ht hb
  · exact changesOnly_refl

theorem endDirect_frame (group : Byte) : s.changesOnly (endDirect group s).state bs := by
  unfold endDirect
  split
  · exact changesOnly_refl
  · split
    · exact changesOnly_refl
    · exact changed_frame _ _ _ ht hb

end

theorem setCue_frame (cue group plan : Byte) (duration : Half) (priority : Byte) (ht : Block.tables ∈ bs) :
    s.changesOnly (setCue cue group plan duration priority s).state bs := by
  unfold setCue
  split
  · split
    · exact changesOnly_refl
    · unfold setCueChecked
      dsimp only
      split
      · exact changesOnly_setTables _ ht changesOnly_refl
      · exact changesOnly_refl
  · exact changesOnly_refl

theorem cutCue_frame (cue group : Byte) (ht : Block.tables ∈ bs) : s.changesOnly (cutCue cue group s).state bs := by
  unfold cutCue
  split
  · exact changesOnly_refl
  · dsimp only
    split
    · exact changesOnly_refl
    · split
      · exact changesOnly_setTables _ ht changesOnly_refl
      · exact changesOnly_refl

theorem setPortRequest_frame (port : Byte) (window : Half) (clear : Byte) (hp : Block.ports ∈ bs) :
    s.changesOnly (setPortRequest port window clear s).state bs := by
  unfold setPortRequest
  split
  · exact changesOnly_refl
  · split
    · exact changesOnly_refl
    · exact changesOnly_setPort _ _ hp changesOnly_refl

theorem readPort_frame (port : Byte) (hf : Block.freeReads ∈ bs) : s.changesOnly (readPort port s).state bs := by
  unfold readPort
  split
  · exact changesOnly_refl
  · exact changesOnly_setFreeReads _ hf changesOnly_refl

theorem changesOnly_setHoldMap (l : Fin 4) (map : SlotSet) (hh : Block.holds ∈ bs) (hb : Block.engine ⊆ bs) :
    s.changesOnly (s.setHoldMap l map) bs := by
  have mapped := fun x => changesOnly_setHold (s := s) (t := s) (bs := bs) l x hh changesOnly_refl
  unfold State.setHoldMap
  dsimp only
  split
  · exact mapped _
  · refine changesOnly_deliver hb (changesOnly_overSlots _ (fun t i ht => ?_) (mapped _))
    unfold State.holdDifference
    split
    · exact changesOnly_joinCause i _ hb ht
    · split
      · exact changesOnly_leaveCause i _ hb ht
      · exact ht

theorem setHoldMap_frame (line : Byte) (map : SlotSet) (hh : Block.holds ∈ bs) (hb : Block.engine ⊆ bs) :
    s.changesOnly (setHoldMap line map s).state bs := by
  unfold setHoldMap
  split
  · exact changesOnly_refl
  · exact changesOnly_setHoldMap _ _ hh hb

theorem readStation_frame (clear : Byte) (ht : Block.trunk ∈ bs) : s.changesOnly (readStation clear s).state bs := by
  unfold readStation
  split
  · exact changesOnly_refl
  · dsimp only
    split
    · exact changesOnly_setTrunk _ ht changesOnly_refl
    · exact changesOnly_refl

theorem changesOnly_mirrorFilter (filter : SlotSet) (hs : Block.slots ∈ bs) {t : State} (h : s.changesOnly t bs) :
    s.changesOnly (t.mirrorFilter filter) bs := by
  unfold State.mirrorFilter
  generalize List.finRange 64 = slots
  refine changesOnly_foldl _ (fun u i hu => ?_) _ _ h
  split
  · exact hu
  · exact changesOnly_setSlot _ _ hs hu

theorem setRecording_frame (filter : SlotSet) (reload choice : Byte) (hr : Block.records ∈ bs) (hs : Block.slots ∈ bs) :
    s.changesOnly (setRecording filter reload choice s).state bs := by
  unfold setRecording
  split
  · exact changesOnly_refl
  · dsimp only
    exact changesOnly_mirrorFilter _ hs (changesOnly_setRecords _ hr changesOnly_refl)

theorem readRecords_frame (maximum : Byte) (hr : Block.records ∈ bs) : s.changesOnly (readRecords maximum s).state bs := by
  unfold readRecords
  split
  · exact changesOnly_refl
  · exact changesOnly_setRecords _ hr changesOnly_refl

theorem checksumStep_frame (c : Checksum) (n : Nat) (hs : Block.store ∈ bs) (hr : Block.records ∈ bs)
    (h : s.changesOnly c.state bs) : s.changesOnly (c.step n).state bs := by
  unfold Checksum.step
  split
  · exact h
  · split
    · exact h
    · rename_i l _ _
      have read := changesOnly_readLocation l hs hr h
      dsimp only
      split <;> rename_i e <;> rw [e] at read <;> exact read

theorem checksumPlans_frame (first last sum : Nat) (hs : Block.store ∈ bs) (hr : Block.records ∈ bs) :
    s.changesOnly (checksumPlans first last sum s).state bs := by
  have run : s.changesOnly (checksumRun first last sum s).state bs :=
    List.foldlRecOn (motive := fun c : Checksum => s.changesOnly c.state bs) _ _ changesOnly_refl
      fun c hc n _ => checksumStep_frame c n hs hr hc
  unfold checksumPlans
  split
  · exact changesOnly_refl
  · dsimp only
    split <;> exact run

theorem runTest_frame (num : Nat) (hs : Block.store ∈ bs) (hl : Block.logOut ∈ bs) : s.changesOnly (runTest num s).state bs := by
  have restored : s.changesOnly (match s.store.at? num with | some l => s.setStore (s.store.restore l) | none => s) bs := by
    split
    · exact changesOnly_setStore _ hs changesOnly_refl
    · exact changesOnly_refl
  unfold runTest
  dsimp only
  split
  · exact restored
  · exact changesOnly_setLogOut _ hl restored

theorem testLocation_frame (num : Nat) (hs : Block.store ∈ bs) (hl : Block.logOut ∈ bs) :
    s.changesOnly (testLocation num s).state bs := by
  unfold testLocation
  split
  · exact changesOnly_refl
  · split
    · split
      · exact changesOnly_refl
      · exact runTest_frame _ hs hl
    · exact runTest_frame _ hs hl

theorem forceCheck_frame (num word : Nat) (bit1 bit2 : Byte) (hs : Block.store ∈ bs) :
    s.changesOnly (forceCheck num word bit1 bit2 s).state bs := by
  unfold forceCheck
  split
  · exact changesOnly_refl
  · split
    · exact changesOnly_refl
    · split
      · exact changesOnly_refl
      · exact changesOnly_setStore _ hs changesOnly_refl

theorem scrubControl_frame (code : Byte) (hs : Block.store ∈ bs) : s.changesOnly (scrubControl code s).state bs := by
  unfold scrubControl
  split
  · exact changesOnly_setStore _ hs changesOnly_refl
  · exact changesOnly_setStore _ hs changesOnly_refl
  · exact changesOnly_refl

/-! ### Frames of the field events -/

theorem changesOnly_takeStatus (p : Fin 4) (f : StatusFields) (ms : Nat) (line : LineCondition) (hb : Block.engine ⊆ bs) {t : State}
    (h : s.changesOnly t bs) : s.changesOnly (t.takeStatus p f ms line) bs := by
  unfold State.takeStatus
  have port := fun x => changesOnly_setPort (bs := bs) p x (ports_mem hb) h
  dsimp only
  split
  · exact h
  · split
    · exact port _
    · split
      · exact changesOnly_reportOutcome _ _ _ hb (port _)
      · exact port _

theorem changesOnly_fieldReception (p : Fin 4) (ms : Nat) (bytes : List Byte) (line : LineCondition) (hb : Block.engine ⊆ bs)
    {t : State} (h : s.changesOnly t bs) : s.changesOnly (t.fieldReception p ms bytes line) bs := by
  unfold State.fieldReception
  split
  · exact changesOnly_takeStatus p _ ms line hb h
  · exact changesOnly_setPort _ _ (ports_mem hb) h

theorem changesOnly_fieldReceptions (p : Fin 4) (ms : Nat) (line : LineCondition) (hb : Block.engine ⊆ bs) :
    ∀ (runs : List (List Byte)) {t : State}, s.changesOnly t bs → s.changesOnly (t.fieldReceptions p ms line runs) bs
  | [], _, h => h
  | [_], _, h => changesOnly_fieldReception p ms _ line hb h
  | _ :: next :: rest, _, h =>
    changesOnly_fieldReceptions p ms line hb (next :: rest) (changesOnly_fieldReception p ms _ .active hb h)

theorem changesOnly_expireWindow (p : Fin 4) (line : LineCondition) (hb : Block.engine ⊆ bs) :
    s.changesOnly (s.expireWindow p line) bs := by
  unfold State.expireWindow
  split
  · split
    · exact changesOnly_reportOutcome _ _ _ hb (changesOnly_setPort _ _ (ports_mem hb) changesOnly_refl)
    · exact changesOnly_refl
  · exact changesOnly_refl

theorem changesOnly_blockLine (p : Fin 4) (hb : Block.engine ⊆ bs) : s.changesOnly (s.blockLine p) bs := by
  unfold State.blockLine
  have port := changesOnly_setPort (s := s) (t := s) (bs := bs) p (s.port p).block (ports_mem hb) changesOnly_refl
  dsimp only
  split
  · exact changesOnly_refl
  · split
    · exact changesOnly_reportOutcome _ _ _ hb port
    · exact port

/-! ### Frames of the trunk -/

theorem changesOnly_offer (hr : Block.records ∈ bs) (ht : Block.trunk ∈ bs) (f : TrunkFrame) {t : State} (h : s.changesOnly t bs) :
    s.changesOnly (t.offerA f) bs ∧ s.changesOnly (t.offerB f) bs := by
  unfold State.offerA State.offerB
  constructor <;> split
  · exact changesOnly_setTrunk _ ht h
  · exact changesOnly_raise _ hr (changesOnly_setTrunk _ ht h)
  · exact changesOnly_setTrunk _ ht h
  · exact changesOnly_raise _ hr (changesOnly_setTrunk _ ht h)

theorem changesOnly_count (ht : Block.trunk ∈ bs) (p : TrunkPort) (f : PortCounts → PortCounts) {t : State} (h : s.changesOnly t bs) :
    s.changesOnly (t.count p f) bs := changesOnly_setTrunk _ ht h

theorem changesOnly_passOn (hr : Block.records ∈ bs) (ht : Block.trunk ∈ bs) (p : TrunkPort) (f : TrunkFrame) {t : State}
    (h : s.changesOnly t bs) : s.changesOnly (t.passOn p f) bs := by
  unfold State.passOn
  split
  · exact changesOnly_count ht _ _ h
  · dsimp only
    split
    · exact (changesOnly_offer hr ht _ h).2
    · exact (changesOnly_offer hr ht _ h).1

theorem changesOnly_takeMark (m : Mark) (hm : Block.time ∈ bs) (ht : Block.tables ∈ bs) (hb : Block.engine ⊆ bs) {t : State}
    (h : s.changesOnly t bs) : s.changesOnly (t.takeMark m) bs := by
  have timed : ∀ k, s.changesOnly ((t.setTime (t.time.takeMark m).time).raiseOpt k) bs := by
    rintro (- | k)
    · exact changesOnly_setTime _ hm h
    · exact changesOnly_raise _ (records_mem hb) (changesOnly_setTime _ hm h)
  unfold State.takeMark
  dsimp only
  split
  · exact changesOnly_stepEvent hb ht (timed _)
  · exact timed _

theorem changesOnly_applyCue (ht : Block.tables ∈ bs) (hr : Block.records ∈ bs) (a : State × List (Fin 16)) (e : CueEntry)
    (h : s.changesOnly a.1 bs) : s.changesOnly (State.applyCue a e).1 bs := by
  unfold State.applyCue
  dsimp only
  split
  · exact changesOnly_setTables _ ht h
  · exact changesOnly_raise _ hr h

theorem changesOnly_takeCue (n : Nat) (ht : Block.tables ∈ bs) (hb : Block.engine ⊆ bs) {t : State} (h : s.changesOnly t bs) :
    s.changesOnly (t.takeCue n) bs := by
  unfold State.takeCue
  split
  · exact changesOnly_evaluateNow _ hb (List.foldlRecOn (motive := fun a : State × List (Fin 16) => s.changesOnly a.1 bs) _ _ h
      fun a ha e _ => changesOnly_applyCue ht (records_mem hb) a e ha)
  · exact h

theorem changesOnly_takeCancel (n : Nat) (ht : Block.tables ∈ bs) (hb : Block.engine ⊆ bs) {t : State} (h : s.changesOnly t bs) :
    s.changesOnly (t.takeCancel n) bs := changesOnly_evaluateNow _ hb (changesOnly_setTables _ ht h)

theorem changesOnly_offerRequest (r : Request) (ht : Block.trunk ∈ bs) (hm : Block.mgmt ∈ bs) (hr : Block.records ∈ bs) {t : State}
    (h : s.changesOnly t bs) : s.changesOnly (t.offerRequest r) bs := by
  unfold State.offerRequest
  split
  · exact changesOnly_setMgmt _ hm h
  · split
    · exact h
    · exact (changesOnly_offer hr ht _ h).1

end

/-- What an accepted frame can change. -/
def Block.traffic : List Block := .time :: .tables :: .trunk :: .mgmt :: Block.engine

section
variable {s t : State}

theorem changesOnly_actOn (own : Byte) (f : TrunkFrame) (h : s.changesOnly t Block.traffic) :
    s.changesOnly (t.actOn own f) Block.traffic := by
  have hb : Block.engine ⊆ Block.traffic := by decide
  have htable : Block.tables ∈ Block.traffic := by decide
  have htrunk : Block.trunk ∈ Block.traffic := by decide
  have malformed : s.changesOnly t.countMalformed Block.traffic := changesOnly_setTrunk _ htrunk h
  unfold State.actOn
  split
  · split
    · exact changesOnly_takeMark _ (by decide) htable hb h
    · exact malformed
  · split
    · split
      · exact changesOnly_takeCue _ htable hb h
      · exact malformed
    · split
      · split
        · exact changesOnly_takeCancel _ htable hb h
        · exact malformed
      · split
        · split
          · exact changesOnly_offerRequest _ htrunk (by decide) (by decide) h
          · exact malformed
        · exact h

theorem changesOnly_acceptedFrame (p : TrunkPort) (f : TrunkFrame) (h : s.changesOnly t Block.traffic) :
    s.changesOnly (t.acceptedFrame p f) Block.traffic := by
  have htrunk : Block.trunk ∈ Block.traffic := by decide
  have counted : s.changesOnly (t.countAccepted p f) Block.traffic := changesOnly_count htrunk _ _ h
  unfold State.acceptedFrame
  dsimp only
  split
  · split
    · exact changesOnly_actOn _ f counted
    · exact changesOnly_passOn (by decide) htrunk _ f (changesOnly_actOn _ f counted)
  · exact changesOnly_passOn (by decide) htrunk _ f counted

theorem changesOnly_reception (p : TrunkPort) (bytes : List Byte) (h : s.changesOnly t Block.traffic) :
    s.changesOnly (t.reception p bytes) Block.traffic := by
  unfold State.reception
  split
  · exact changesOnly_acceptedFrame p _ h
  · exact changesOnly_count (by decide) _ _ h

theorem frameFromA_frame (kind station hops : Byte) (body : List Byte) :
    s.changesOnly (s.frameFromA kind station hops body) Block.traffic := by
  unfold State.frameFromA
  split
  · exact changesOnly_refl
  · split
    · exact changesOnly_acceptedFrame .a _ changesOnly_refl
    · exact changesOnly_count (by decide) _ _ changesOnly_refl

theorem changesOnly_placeHeld : s.changesOnly s.placeHeld [.trunk, .mgmt] := by
  unfold State.placeHeld
  split
  · split
    · exact engineDone_frame (by simp) (changesOnly_setTrunk _ (by simp) changesOnly_refl)
    · exact changesOnly_refl
  · exact changesOnly_refl

theorem changesOnly_enterHoldover : s.changesOnly s.enterHoldover [.time, .records] := by
  unfold State.enterHoldover
  split
  · exact changesOnly_raise _ (by simp) (changesOnly_setTime _ (by simp) changesOnly_refl)
  · exact changesOnly_refl

end

/-! ### The blocks of each command -/

/-- Every block. -/
def Block.all : List Block :=
  [.time, .slots, .holds, .groups, .members, .tables, .store, .ports, .trunk, .mgmt, .records, .logOut, .freeReads]

theorem Block.mem_all (b : Block) : b ∈ Block.all := by cases b <;> decide

/-- The blocks that a command can change; the rows of a reset and of a restart can change every one. -/
def touched : Instr → List Block
  | .tick _ => .time :: .tables :: Block.engine
  | .holdoverEntry => [.time, .records]
  | .transitionLimitReached _ => [.slots, .groups, .records]
  | .eventEntryEnd _ | .cueExpiry _ | .directExpiry _ => [.tables]
  | .timeMark _ _ _ | .cue _ _ _ | .cueCancel _ _ _ | .request _ _ _ | .trunkFrame _ _ => Block.traffic
  | .trunkTransmitEnd _ => [.trunk]
  | .heldReplyPlaced | .unknownRequestCode _ _ _ | .readTime _ | .readSlot _ _ | .readGroup _ _ _ | .readTimetable _ _ _
  | .readStation _ _ | .restartCold _ | .readLogout _ => [.trunk, .mgmt]
  | .setDay _ _ => .trunk :: .mgmt :: .time :: .tables :: Block.engine
  | .defineSlot _ _ _ _ _ _ _ _ | .releaseSlot _ _ | .setGroup _ _ _ _ _ _ _ => .trunk :: .mgmt :: Block.engine
  | .loadPlan _ _ _ _ _ _ _ _ _ | .dropPlan _ _ _ _ | .forceCheck _ _ _ _ _ | .scrubControl _ _ => [.trunk, .mgmt, .store]
  | .readPlan _ _ _ _ | .checksumPlans _ _ _ _ => [.trunk, .mgmt, .store, .records]
  | .setCalendar _ _ _ _ | .addBase _ _ _ _ _ _ | .addEvent _ _ _ _ _ _ _ _ _ | .cutEntry _ _ _ | .directPlan _ _ _ _
  | .endDirect _ _ => .trunk :: .mgmt :: .tables :: Block.engine
  | .setCue _ _ _ _ _ _ | .cutCue _ _ _ => [.trunk, .mgmt, .tables]
  | .setPort _ _ _ _ => [.trunk, .mgmt, .ports]
  | .readPort _ _ => [.trunk, .mgmt, .freeReads]
  | .setHoldMap _ _ _ => .trunk :: .mgmt :: .holds :: Block.engine
  | .clearOverride _ _ => [.trunk, .mgmt, .slots]
  | .setRecording _ _ _ _ => [.trunk, .mgmt, .records, .slots]
  | .readRecords _ _ | .readNotices _ | .setNoticeMask _ _ => [.trunk, .mgmt, .records]
  | .testLocation _ _ => [.trunk, .mgmt, .store, .logOut]
  | .exchangeStart _ | .fieldTransmitEnd _ _ | .lineFreed _ => [.ports]
  | .status _ _ _ _ _ _ _ _ | .badFrame _ _ _ _ | .responseWindowExpiry _ _ | .lineBlocked _ => Block.engine
  | .holdActivationEdge _ | .holdReleaseEdge _ => .holds :: Block.engine
  | .countDownZero => [.records]
  | .restartEffect _ | .restartWarm _ _ | .resetAssert | .resetRelease _ _ => Block.all

/-- A reset or a restart, by which every block can change. -/
def Instr.resets : Instr → Bool
  | .restartEffect _ | .restartWarm _ _ | .resetAssert | .resetRelease _ _ => true
  | _ => false

section
variable {s : State}

theorem unlessReset_frame {t : State} {bs : List Block} (h : s.changesOnly t bs) :
    s.changesOnly (if s.resetAsserted then s else t) bs := by
  split
  · exact changesOnly_refl
  · exact h

/-- R160, R162: what an addressed RESTART changes before its effect. -/
theorem acceptRestart_frame (k : RestartKind) (r : Request) : s.changesOnly (s.acceptRestart k r) [.trunk, .mgmt] :=
  placeReply_frame (by simp) (by simp) _ _ (changesOnly_setMgmt _ (by simp) changesOnly_refl)

/-- No command but a reset or a restart changes anything outside its blocks. -/
theorem after_frame (c : Instr) (h : Instr.resets c = false) : s.changesOnly (after c s) (touched c) := by
  have own : Block.engine ⊆ Block.engine := List.Subset.refl _
  cases c with
  | tick order => exact unlessReset_frame (changesOnly_tick s order)
  | holdoverEntry => exact unlessReset_frame changesOnly_enterHoldover
  | transitionLimitReached g =>
    exact unlessReset_frame (changesOnly_forceAll _ (by simp [touched]) (changesOnly_checkLimit g (by simp [touched]) (by simp [touched]) changesOnly_refl))
  | eventEntryEnd id =>
    refine unlessReset_frame (t := if s.time.isSet then s.setTables _ else s) ?_
    simp [touched]
  | cueExpiry g =>
    refine unlessReset_frame (t := if s.time.isSet then s.setTables _ else s) ?_
    simp [touched]
  | directExpiry g =>
    refine unlessReset_frame (t := if s.time.isSet then s.setTables _ else s) ?_
    simp [touched]
  | timeMark _ _ _ => exact frameFromA_frame _ _ _ _
  | cue _ _ _ => exact frameFromA_frame _ _ _ _
  | cueCancel _ _ _ => exact frameFromA_frame _ _ _ _
  | request _ _ _ => exact frameFromA_frame _ _ _ _
  | trunkFrame p line =>
    exact unlessReset_frame 
      (changesOnly_foldl (State.reception p) (fun _ b ht => changesOnly_reception p b ht) (receptions line) s changesOnly_refl)
  | trunkTransmitEnd p =>
    cases p <;> exact unlessReset_frame (changesOnly_setTrunk _ (by simp [touched]) changesOnly_refl)
  | heldReplyPlaced => exact unlessReset_frame changesOnly_placeHeld
  | unknownRequestCode src code params =>
    show s.changesOnly (if namesNoRow code params then carryOut _ (refuse .badValue) s else s) _
    split
    · exact carryOut_frame (bs := []) _ changesOnly_refl
    · exact changesOnly_refl
  | readTime _ => exact carryOut_frame (bs := []) _ changesOnly_refl
  | setDay _ _ => exact carryOut_frame _ (changesOnly_setDayNumber _ (by decide) (by decide) (by simp))
  | defineSlot _ _ _ _ _ _ _ _ => exact carryOut_frame _ (defineSlot_frame _ _ _ _ _ _ _ own)
  | releaseSlot _ _ => exact carryOut_frame _ (releaseSlot_frame _ own)
  | readSlot _ _ => exact carryOut_frame (bs := []) _ (readSlot_frame _)
  | loadPlan _ _ _ _ _ _ _ _ _ => exact carryOut_frame _ (loadPlan_frame _ _ _ (by simp))
  | dropPlan _ _ _ _ => exact carryOut_frame _ (dropPlan_frame _ _ _ (by simp))
  | readPlan _ _ _ _ => exact carryOut_frame _ (readPlan_frame _ _ _ (by simp) (by simp))
  | setGroup _ _ _ _ _ _ _ => exact carryOut_frame _ (setGroup_frame _ _ _ _ _ _ own)
  | readGroup _ _ _ => exact carryOut_frame (bs := []) _ (readGroup_frame _ _)
  | setCalendar _ _ _ _ => exact carryOut_frame _ (setCalendar_frame (by simp) (by simp) _ _ _)
  | addBase _ _ _ _ _ _ => exact carryOut_frame _ (addBase_frame (by simp) (by simp) _ _ _ _ _)
  | addEvent _ _ _ _ _ _ _ _ _ => exact carryOut_frame _ (addEvent_frame (by simp) (by simp) _ _ _ _ _ _ _ _)
  | cutEntry _ _ _ => exact carryOut_frame _ (cutEntry_frame (by simp) (by simp) _ _)
  | readTimetable _ _ _ => exact carryOut_frame (bs := []) _ (readTimetable_frame _ _)
  | setCue _ _ _ _ _ _ => exact carryOut_frame _ (setCue_frame _ _ _ _ _ (by simp))
  | cutCue _ _ _ => exact carryOut_frame _ (cutCue_frame _ _ (by simp))
  | directPlan _ _ _ _ => exact carryOut_frame _ (directPlan_frame (by simp) (by simp) _ _ _)
  | endDirect _ _ => exact carryOut_frame _ (endDirect_frame (by simp) (by simp) _)
  | setPort _ _ _ _ => exact carryOut_frame _ (setPortRequest_frame _ _ _ (by simp))
  | readPort _ _ => exact carryOut_frame _ (readPort_frame _ (by simp))
  | setHoldMap _ _ _ => exact carryOut_frame _ (setHoldMap_frame _ _ (by simp) (by simp))
  | clearOverride _ _ => exact carryOut_frame _ (clearOverride_frame _ (by simp))
  | readStation _ _ => exact changesOnly_mono (carryOut_frame (bs := [.trunk]) _ (readStation_frame _ (by simp))) (by simp [touched])
  | restartCold src =>
    show s.changesOnly (match encodeRequest (.restartCold src) with
      | none => s
      | some r => if !s.carries r then s else if discarded r then s.engineDone else s.acceptRestart .cold r) _
    split
    · exact changesOnly_refl
    · split
      · exact changesOnly_refl
      · split
        · exact engineDone_frame (by simp [touched]) changesOnly_refl
        · exact acceptRestart_frame _ _
  | setRecording _ _ _ _ => exact carryOut_frame _ (setRecording_frame _ _ _ (by simp) (by simp))
  | readRecords _ _ => exact carryOut_frame _ (readRecords_frame _ (by simp))
  | readNotices _ => exact carryOut_frame _ (changesOnly_setRecords _ (by simp) changesOnly_refl)
  | setNoticeMask _ _ => exact carryOut_frame _ (changesOnly_setRecords _ (by simp) changesOnly_refl)
  | checksumPlans _ _ _ _ => exact carryOut_frame _ (checksumPlans_frame _ _ _ (by simp) (by simp))
  | testLocation _ _ => exact carryOut_frame _ (testLocation_frame _ (by simp) (by simp))
  | forceCheck _ _ _ _ _ => exact carryOut_frame _ (forceCheck_frame _ _ _ _ (by simp))
  | scrubControl _ _ => exact carryOut_frame _ (scrubControl_frame _ (by simp))
  | readLogout _ => exact carryOut_frame (bs := []) _ changesOnly_refl
  | exchangeStart p =>
    refine unlessReset_frame (t := if (s.port p).state = .idle ∧ (s.port p).queue ≠ [] then s.setPort p _ else s) ?_
    simp [touched]
  | fieldTransmitEnd p line => exact unlessReset_frame (changesOnly_setPort _ _ (by simp [touched]) changesOnly_refl)
  | status p d x pl n o ms line =>
    refine unlessReset_frame (t := match statusFields d x pl n o with
      | some f => s.takeStatus p f ms line
      | none => s.takeBadFrame p ms line) ?_
    split
    · exact changesOnly_takeStatus p _ ms line own changesOnly_refl
    · exact changesOnly_setPort _ _ (ports_mem own) changesOnly_refl
  | badFrame p bytes ms line => exact unlessReset_frame (changesOnly_fieldReceptions p ms line own _ changesOnly_refl)
  | responseWindowExpiry p line => exact unlessReset_frame (changesOnly_expireWindow p line own)
  | lineBlocked p => exact unlessReset_frame (changesOnly_blockLine p own)
  | lineFreed p =>
    refine unlessReset_frame (t := if (s.port p).state = .blocked then s.setPort p _ else s) ?_
    simp [touched]
  | holdActivationEdge l =>
    refine unlessReset_frame (t := if (s.hold l).level = .inactive then (s.activationEdge l).deliver else s) ?_
    split
    · exact changesOnly_deliver (by simp [touched]) (changesOnly_activationEdge l (by simp [touched]) (by simp [touched]) changesOnly_refl)
    · exact changesOnly_refl
  | holdReleaseEdge l =>
    refine unlessReset_frame (t := if (s.hold l).level = .active then s.releaseEdge l else s) ?_
    split
    · exact changesOnly_releaseEdge l (by simp [touched]) (by simp [touched]) changesOnly_refl
    · exact changesOnly_refl
  | countDownZero => exact unlessReset_frame (changesOnly_setRecords _ (by simp [touched]) changesOnly_refl)
  | restartEffect _ => cases h
  | restartWarm _ _ => cases h
  | resetAssert => cases h
  | resetRelease _ _ => cases h

end

end Sys2Proof.Machine
end

section
/-! PROOFS. The laws of the time base, of the trunk's queues, of the record unit and of the timetable collections, kept by each
operation on those blocks (Tables 1-1, 6-1, 9-2 and 10-1, R98, R152, R157, R158, R167, R168, R173). -/

namespace Sys2Proof.Machine

/-! ### The time base (Table 1-1) -/

section
variable {t : TimeBase}

theorem TimeBase.inRange_cold : TimeBase.cold.inRange := by simp [TimeBase.inRange, TimeBase.cold]

theorem slewToward_bounds {x : Int} (h : -20 ≤ x ∧ x ≤ 20) : -20 ≤ slewToward x ∧ slewToward x ≤ 20 := by
  unfold slewToward
  split
  · omega
  · split <;> omega

theorem TimeBase.amount_le (t : TimeBase) : t.amount ≤ 2 := by
  unfold TimeBase.amount
  repeat' split
  all_goals omega

/-- R3: an advance keeps every range. -/
theorem TimeBase.inRange_advance {k : Nat} (hk : k ≤ 2) (h : t.inRange) : (t.advance k).inRange := by
  obtain ⟨nt, day, rest⟩ := h
  unfold TimeBase.advance Config.dayDs Config.dayCount
  split
  · exact ⟨by assumption, day, rest⟩
  · exact ⟨by dsimp only; omega, Nat.mod_lt _ (by decide), rest⟩

theorem TimeBase.inRange_tick (h : t.inRange) : t.tick.inRange := by
  unfold TimeBase.tick
  dsimp only
  refine TimeBase.inRange_advance t.amount_le ?_
  obtain ⟨nt, day, phase, agree, outliers, low, high, age, diff⟩ := h
  split
  · obtain ⟨low', high'⟩ := slewToward_bounds ⟨low, high⟩
    exact ⟨nt, day, by simp, agree, outliers, low', high', Nat.min_le_left _ _, diff⟩
  next same =>
    have below : ¬10 ≤ t.phase + 1 := by simpa [TimeBase.secondTick, Config.ticksPerSecond] using same
    exact ⟨nt, day, by dsimp only; omega, agree, outliers, low, high, age, diff⟩

theorem TimeBase.inRange_holdover (h : t.inRange) : ({ t with disc := .holdover, slew := 0, outliers := 0 } : TimeBase).inRange := by
  obtain ⟨nt, day, phase, agree, -, -, -, age, diff⟩ := h
  exact ⟨nt, day, phase, agree, by simp, by simp, by simp, age, diff⟩

theorem clipDifference_bounds (d : Int) : -32768 ≤ clipDifference d ∧ clipDifference d ≤ 32767 := by
  unfold clipDifference
  omega

/-- R7: a mark whose day, where it carries one, is a day number. -/
def Mark.dayInRange (m : Mark) : Prop := ∀ d, m.day = some d → d < 65536

theorem TimeBase.markDay_lt {m : Mark} (hm : m.dayInRange) (h : t.inRange) : t.markDay m < 65536 := by
  unfold TimeBase.markDay
  split
  next d hd => exact hm d hd
  next =>
    dsimp only
    split
    · exact h.2.1
    · split
      · exact Nat.mod_lt _ (by decide)
      · exact Nat.mod_lt _ (by decide)

/-- R8 to R12: a mark, valid or not, keeps every range. -/
theorem TimeBase.inRange_takeMark {m : Mark} (hm : m.dayInRange) (h : t.inRange) : (t.takeMark m).time.inRange := by
  unfold TimeBase.takeMark
  split
  next hnt =>
    have day' := TimeBase.markDay_lt hm h
    have diff' : ∀ d, some (clipDifference (t.difference m)) = some d → -32768 ≤ d ∧ d ≤ 32767 := by
      rintro d ⟨rfl⟩
      exact clipDifference_bounds _
    have phase' : m.nt % Config.ticksPerSecond < 10 := Nat.mod_lt _ (by decide)
    obtain ⟨nt, day, phase, agree, outliers, low, high, age, -⟩ := h
    have stays : ∀ disc a o x g, a ≤ 2 → o ≤ 2 → -20 ≤ x → x ≤ 20 → g ≤ 60 → TimeBase.inRange
        ⟨t.nt, t.day, disc, t.phase, a, o, x, g, some (clipDifference (t.difference m))⟩ :=
      fun _ _ _ _ _ ha ho hl hh hg => ⟨nt, day, phase, ha, ho, hl, hh, hg, diff'⟩
    have steps : ∀ disc a o g, a ≤ 2 → o ≤ 2 → g ≤ 60 → TimeBase.inRange
        ⟨m.nt, t.markDay m, disc, m.nt % Config.ticksPerSecond, a, o, 0, g, some (clipDifference (t.difference m))⟩ :=
      fun _ _ _ _ ha ho hg => ⟨hnt, day', phase', ha, ho, by simp, by simp, hg, diff'⟩
    have agrees : (t.difference m).natAbs ≤ 20 → -20 ≤ t.difference m ∧ t.difference m ≤ 20 := by omega
    unfold TimeBase.takeValid TimeBase.stepTo Config.acceptWindow Config.agreeWindow Config.runOfThree
    dsimp only
    split
    case h_1 => exact steps _ _ _ _ (by simp) (by simp) (by simp)
    case h_2 =>
      split
      next near =>
        obtain ⟨hl, hh⟩ := agrees (near.trans (by decide))
        split
        · exact stays _ _ _ _ _ (by simp) (by simp) hl hh (by simp)
        · exact stays _ _ _ _ _ (by omega) outliers hl hh (by simp)
      next => exact steps _ _ _ _ (by simp) outliers (by simp)
    case h_3 =>
      split
      next near =>
        obtain ⟨hl, hh⟩ := agrees near
        exact stays _ _ _ _ _ agree (by simp) hl hh (by simp)
      next =>
        split
        · exact steps _ _ _ _ (by simp) (by simp) (by simp)
        · exact stays _ _ _ _ _ agree (by omega) low high age
    case h_4 =>
      split
      next near =>
        obtain ⟨hl, hh⟩ := agrees near
        exact stays _ _ _ _ _ agree (by simp) hl hh (by simp)
      next => exact steps _ _ _ _ (by simp) (by simp) (by simp)
  next => exact h

theorem TimeBase.inRange_warm (h : t.inRange) : t.warm.inRange := by
  obtain ⟨nt, day, phase, -⟩ := h
  exact ⟨nt, day, phase, by simp [TimeBase.warm], by simp [TimeBase.warm], by simp [TimeBase.warm], by simp [TimeBase.warm],
    by simp [TimeBase.warm], by simp [TimeBase.warm]⟩

theorem TimeBase.inRange_setDay {day : Nat} (hd : day < 65536) (h : t.inRange) : ({ t with day := day } : TimeBase).inRange :=
  ⟨h.1, hd, h.2.2⟩

/-- The marks that frames carry have a day number of two bytes. -/
theorem markOfBody_dayInRange {body : List Byte} {m : Mark} (h : markOfBody body = some m) : m.dayInRange := by
  unfold markOfBody at h
  split at h <;> cases h
  · exact fun d hd => nomatch hd
  · rintro d ⟨rfl⟩
    exact (beHalf _ _).isLt

end

/-! ### The trunk's queues (R152, R157, R158) -/

/-- R152: the out-queues of a trunk interface hold at most eight frames each. -/
def Trunk.bounded (t : Trunk) : Prop := t.aOut.frames.length ≤ 8 ∧ t.bOut.frames.length ≤ 8

/-- R157, R158: from `m` to `n` a request queue of at most four stays so, and an IDLE engine has no request waiting. -/
def Management.lawfulTo (m n : Management) : Prop := (m.queue.length ≤ 4 → n.queue.length ≤ 4) ∧ (m.settled → n.settled)

theorem OutQueue.place_length {q : OutQueue} (h : q.hasRoom = true) (f : TrunkFrame) : (q.place f).frames.length ≤ 8 := by
  have room : q.frames.length < 8 := of_decide_eq_true h
  simpa [OutQueue.place] using room

/-- R158: all that an IDLE engine can do with its queue: take nothing, find nothing to carry out, or take a request. -/
theorem takeNext_cases (m : Management) :
    (m.takeNext = m ∧ (m.engine = .idle → m.restart ≠ none)) ∨ (m.takeNext = { m with queue := [] }) ∨
      ∃ r rest, m.takeNext = { m with engine := .carrying r, queue := rest } ∧ rest.length < m.queue.length := by
  unfold Management.takeNext
  split
  next idle free =>
    split
    next => exact .inr (.inl rfl)
    next r rest e =>
      refine .inr (.inr ⟨r, rest, rfl, ?_⟩)
      have shorter := (List.dropWhile_suffix (p := discarded) (l := m.queue)).length_le
      rw [e, List.length_cons] at shorter
      omega
  next h => exact .inl ⟨rfl, fun hi hr => h hi hr⟩

theorem takeNext_queue_length (m : Management) : m.takeNext.queue.length ≤ m.queue.length := by
  rcases takeNext_cases m with ⟨e, -⟩ | e | ⟨r, rest, e, shorter⟩ <;> rw [e]
  · exact Nat.zero_le _
  · exact shorter.le

/-- R158: an engine that has looked at its queue has taken what it can. -/
theorem takeNext_settled (m : Management) : m.takeNext.settled := by
  rcases takeNext_cases m with ⟨e, waits⟩ | e | ⟨r, rest, e, -⟩ <;> rw [e]
  · exact fun idle free => absurd free (waits idle)
  · exact fun _ _ => rfl
  · exact fun idle => nomatch idle

theorem lawfulTo_takeNext {m n : Management} (h : m.queue.length ≤ 4 → n.queue.length ≤ 4) : m.lawfulTo n.takeNext :=
  ⟨fun hm => (takeNext_queue_length n).trans (h hm), fun _ => takeNext_settled n⟩

/-! ### The record unit (Table 10-1) -/

section
variable {u : RecordUnit}

theorem RecordUnit.sound_cold : RecordUnit.cold.sound := by simp [RecordUnit.sound, RecordUnit.cold]

/-- A kind that is not masked joins the pending set without touching the masked ones. -/
theorem notices_and_mask_of_raise {notices mask : BitVec 15} {k : Notice} (h : noticeIn mask k = false)
    (apart : notices &&& mask = 0#15) : (notices ||| (1#15 <<< noticeBit k)) &&& mask = 0#15 := by
  ext j hj
  have old := congrArg (·.getLsbD j) apart
  by_cases e : j = noticeBit k
  · subst e
    simp_all [noticeIn]
  · have other : ¬(noticeBit k ≤ j ∧ j - noticeBit k = 0) := by omega
    simpa [hj, other] using old

theorem RecordUnit.sound_raise (k : Notice) (h : u.sound) : (u.raise k).sound := by
  unfold RecordUnit.raise
  split
  next => exact h
  next unmasked =>
    obtain ⟨ring, overwrites, down, reload, off, apart⟩ := h
    exact ⟨ring, overwrites, down, reload, off, notices_and_mask_of_raise (by simpa using unmasked) apart⟩

@[simp] theorem RecordUnit.raise_reload (u : RecordUnit) (k : Notice) : (u.raise k).reload = u.reload := by
  unfold RecordUnit.raise; split <;> rfl
@[simp] theorem RecordUnit.raise_countDown (u : RecordUnit) (k : Notice) : (u.raise k).countDown = u.countDown := by
  unfold RecordUnit.raise; split <;> rfl
@[simp] theorem RecordUnit.raise_mask (u : RecordUnit) (k : Notice) : (u.raise k).mask = u.mask := by
  unfold RecordUnit.raise; split <;> rfl
@[simp] theorem RecordUnit.raise_ring (u : RecordUnit) (k : Notice) : (u.raise k).ring = u.ring := by
  unfold RecordUnit.raise; split <;> rfl
@[simp] theorem RecordUnit.raise_filter (u : RecordUnit) (k : Notice) : (u.raise k).filter = u.filter := by
  unfold RecordUnit.raise; split <;> rfl
@[simp] theorem RecordUnit.raise_overwrites (u : RecordUnit) (k : Notice) : (u.raise k).overwrites = u.overwrites := by
  unfold RecordUnit.raise; split <;> rfl

/-- R168: the count-down at 0 is reloaded, so it stays off exactly with its reload value. -/
theorem RecordUnit.sound_countDownZero (h : u.ring.length ≤ 128 ∧ u.overwrites ≤ 65535 ∧ u.countDown ≤ 255 ∧ u.reload ≤ 255 ∧
    (u.reload = 0 → u.countDown = 0) ∧ u.notices &&& u.mask = 0#15) : u.countDownZero.sound := by
  obtain ⟨ring, overwrites, down, reload, off, apart⟩ := h
  unfold RecordUnit.countDownZero
  split
  next due =>
    have raised : (u.raise .recordCount).notices &&& (u.raise .recordCount).mask = 0#15 := by
      unfold RecordUnit.raise
      split
      next => exact apart
      next unmasked => exact notices_and_mask_of_raise (by simpa using unmasked) apart
    refine ⟨by simpa using ring, by simpa using overwrites, reload, by simpa using reload, ?_, raised⟩
    simp only [RecordUnit.raise_reload]
  next still =>
    refine ⟨ring, overwrites, down, reload, ⟨off, fun zero => ?_⟩, apart⟩
    omega

theorem RecordUnit.sound_countPlaced (h : u.sound) : u.countPlaced.sound := by
  unfold RecordUnit.countPlaced
  split
  next => exact h
  next running =>
    obtain ⟨ring, overwrites, down, reload, -, apart⟩ := h
    exact RecordUnit.sound_countDownZero ⟨ring, overwrites, by dsimp only; omega, reload, fun zero => absurd zero running, apart⟩

theorem satAdd_le (c n : Nat) : satAdd c n ≤ 65535 := Nat.min_le_left _ _

theorem RecordUnit.sound_place (r : TransitionRecord) (h : u.sound) : (u.place r).sound := by
  unfold RecordUnit.place
  split
  next room =>
    obtain ⟨-, rest⟩ := h
    have : u.ring.length < 128 := room
    exact ⟨by simp only [List.length_append, List.length_singleton]; omega, rest⟩
  next =>
    obtain ⟨ring, -, rest⟩ := h
    exact RecordUnit.sound_raise _
      ⟨by simp only [List.length_append, List.length_drop, List.length_singleton]; omega, satAdd_le _ _, rest⟩

theorem RecordUnit.sound_take (r : TransitionRecord) (h : u.sound) : (u.take r).sound := by
  unfold RecordUnit.take
  split
  · exact RecordUnit.sound_countPlaced (RecordUnit.sound_place r h)
  · exact h

theorem RecordUnit.sound_warm (h : u.sound) : u.warm.sound := by
  obtain ⟨-, -, -, reload, -, -⟩ := h
  exact ⟨by simp [RecordUnit.warm], by simp [RecordUnit.warm], reload, reload, Iff.rfl, by simp [RecordUnit.warm]⟩

theorem countDownAfter_bounds {reload old : Nat} (restart : Bool) (hr : reload ≤ 255) (ho : old ≤ 255) :
    countDownAfter reload old restart ≤ 255 ∧ (reload = 0 ↔ countDownAfter reload old restart = 0) := by
  unfold countDownAfter
  repeat' split
  all_goals omega

theorem RecordUnit.sound_recording (filter : SlotSet) {reload : Nat} (restart : Bool) (hr : reload ≤ 255) (h : u.sound) :
    (u.recording filter reload restart).sound := by
  obtain ⟨ring, overwrites, down, -, -, apart⟩ := h
  obtain ⟨le, off⟩ := countDownAfter_bounds restart hr down
  exact ⟨ring, overwrites, le, hr, off, apart⟩

theorem RecordUnit.sound_setMask (mask : Half) (h : u.sound) : (u.setMask mask).sound := by
  obtain ⟨ring, overwrites, down, reload, off, -⟩ := h
  refine ⟨ring, overwrites, down, reload, off, ?_⟩
  simp [RecordUnit.setMask, BitVec.and_assoc]

theorem RecordUnit.sound_dropRing (n : Nat) (h : u.sound) : ({ u with ring := u.ring.drop n } : RecordUnit).sound :=
  ⟨by have := h.1; simp only [List.length_drop]; omega, h.2⟩

theorem RecordUnit.sound_clearNotices (h : u.sound) : ({ u with notices := 0#15 } : RecordUnit).sound := by
  obtain ⟨ring, overwrites, down, reload, off, -⟩ := h
  exact ⟨ring, overwrites, down, reload, off, by simp⟩

theorem RecordUnit.sound_zero (h : u.sound) : u.countDownZero.sound := by
  obtain ⟨ring, overwrites, down, reload, off, apart⟩ := h
  exact RecordUnit.sound_countDownZero ⟨ring, overwrites, down, reload, off.mp, apart⟩

end

/-! ### Lists in ascending order of a key -/

section
variable {α : Type} {key : α → Nat} {e m : α} {l : List α}

/-- An item in its place in ascending key order, replacing one of its key: what the insertions of every ordered collection do. -/
def insertKey (key : α → Nat) (e : α) : List α → List α
  | [] => [e]
  | x :: xs => if key e < key x then e :: x :: xs else if key e = key x then e :: xs else x :: insertKey key e xs

/-- A placed item stands in the list, and every item of another key stands as before. -/
theorem mem_insertKey (h : l.Pairwise fun a b => key a < key b) : m ∈ insertKey key e l ↔ m = e ∨ (key m ≠ key e ∧ m ∈ l) := by
  induction l with
  | nil => simp [insertKey]
  | cons x l ih =>
    obtain ⟨below, rest⟩ := List.pairwise_cons.mp h
    unfold insertKey
    split
    next lt =>
      have away : m ∈ x :: l → key m ≠ key e := by
        intro hm
        rcases List.mem_cons.mp hm with rfl | hm
        · omega
        · have := below m hm; omega
      rw [List.mem_cons]
      exact or_congr_right ⟨fun hm => ⟨away hm, hm⟩, And.right⟩
    next =>
      split
      next eq =>
        simp only [List.mem_cons]
        refine or_congr_right ⟨fun hm => ⟨?_, .inr hm⟩, ?_⟩
        · have := below m hm; omega
        · rintro ⟨ne, rfl | hm⟩
          · exact absurd eq.symm ne
          · exact hm
      next =>
        simp only [List.mem_cons, ih rest]
        constructor
        · rintro (rfl | rfl | ⟨ne, hm⟩)
          · exact .inr ⟨by omega, .inl rfl⟩
          · exact .inl rfl
          · exact .inr ⟨ne, .inr hm⟩
        · rintro (rfl | ⟨ne, rfl | hm⟩)
          · exact .inr (.inl rfl)
          · exact .inl rfl
          · exact .inr (.inr ⟨ne, hm⟩)

theorem insertKey_pairwise (h : l.Pairwise fun a b => key a < key b) : (insertKey key e l).Pairwise fun a b => key a < key b := by
  induction l with
  | nil => exact List.pairwise_singleton _ _
  | cons x l ih =>
    obtain ⟨below, rest⟩ := List.pairwise_cons.mp h
    unfold insertKey
    split
    next lt =>
      refine List.pairwise_cons.mpr ⟨fun b hb => ?_, h⟩
      rcases List.mem_cons.mp hb with rfl | hb
      · exact lt
      · exact lt.trans (below b hb)
    next =>
      split
      next eq => exact List.pairwise_cons.mpr ⟨fun b hb => eq ▸ below b hb, rest⟩
      next =>
        refine List.pairwise_cons.mpr ⟨fun b hb => ?_, ih rest⟩
        rcases (mem_insertKey rest).mp hb with rfl | ⟨-, hb⟩
        · omega
        · exact below b hb

/-- The length of a collection does not change where an item of the key is replaced. -/
theorem insertKey_length_of_mem (h : l.Pairwise fun a b => key a < key b) (held : ∃ x ∈ l, key x = key e) :
    (insertKey key e l).length = l.length := by
  induction l with
  | nil => simp at held
  | cons x l ih =>
    obtain ⟨below, rest⟩ := List.pairwise_cons.mp h
    obtain ⟨y, hy, ey⟩ := held
    unfold insertKey
    split
    next lt =>
      rcases List.mem_cons.mp hy with rfl | hy
      · omega
      · have := below y hy; omega
    next =>
      split
      next => rfl
      next ne =>
        rcases List.mem_cons.mp hy with rfl | hy
        · exact absurd ey.symm ne
        · simp [ih rest ⟨y, hy, ey⟩]

theorem insertKey_length_le : (insertKey key e l).length ≤ l.length + 1 := by
  induction l with
  | nil => exact le_rfl
  | cons x l ih =>
    unfold insertKey
    split
    · exact le_rfl
    · split
      · exact Nat.le_succ _
      · simpa using ih

/-- A key that no item has: the lowest one is at most the number of items. -/
theorem lowestIdFrom_spec (n : Nat) (ids : List Nat) (h : ids.Pairwise (· < ·)) (low : ∀ i ∈ ids, n ≤ i) :
    n ≤ lowestIdFrom n ids ∧ lowestIdFrom n ids ≤ n + ids.length ∧ lowestIdFrom n ids ∉ ids ∧
      ∀ k, n ≤ k → k < lowestIdFrom n ids → k ∈ ids := by
  induction ids generalizing n with
  | nil => exact ⟨le_rfl, le_rfl, List.not_mem_nil, fun k a b => absurd b (Nat.not_lt.mpr a)⟩
  | cons i ids ih =>
    obtain ⟨below, rest⟩ := List.pairwise_cons.mp h
    rw [lowestIdFrom]
    split
    next eq =>
      subst eq
      obtain ⟨a, b, c, d⟩ := ih (i + 1) rest fun j hj => below j hj
      refine ⟨by omega, by rw [List.length_cons]; omega, ?_, fun k k1 k2 => ?_⟩
      · rw [List.mem_cons]
        rintro (e | e)
        · omega
        · exact c e
      · by_cases e : k = i
        · exact e ▸ List.mem_cons_self
        · exact List.mem_cons_of_mem _ (d k (by omega) k2)
    next ne =>
      have first := low i List.mem_cons_self
      refine ⟨le_rfl, by omega, fun hm => ?_, fun k a b => absurd b (Nat.not_lt.mpr a)⟩
      rcases List.mem_cons.mp hm with rfl | hm
      · exact ne rfl
      · have := below n hm; omega

end

theorem insertDay_eq (e : CalendarEntry) (l : List CalendarEntry) : insertDay e l = insertKey CalendarEntry.day e l := by
  induction l with
  | nil => rfl
  | cons x l ih => simp only [insertDay, insertKey, ih]

theorem insertCue_eq (e : CueEntry) (l : List CueEntry) : insertCue e l = insertKey CueEntry.key e l := by
  induction l with
  | nil => rfl
  | cons x l ih => simp only [insertCue, insertKey, ih]

theorem insertBase_eq {e : BaseEntry} {l : List BaseEntry} (h : ∀ x ∈ l, x.id ≠ e.id) : insertBase e l = insertKey BaseEntry.id e l := by
  induction l with
  | nil => rfl
  | cons x l ih =>
    have ne := (h x List.mem_cons_self).symm
    simp only [insertBase, insertKey, ne, if_false, ih fun y hy => h y (List.mem_cons_of_mem _ hy)]

theorem insertEvent_eq {e : EventEntry} {l : List EventEntry} (h : ∀ x ∈ l, x.id ≠ e.id) :
    insertEvent e l = insertKey EventEntry.id e l := by
  induction l with
  | nil => rfl
  | cons x l ih =>
    have ne := (h x List.mem_cons_self).symm
    simp only [insertEvent, insertKey, ne, if_false, ih fun y hy => h y (List.mem_cons_of_mem _ hy)]

/-! ### The timetable collections (Table 6-1, R98) -/

/-- Table 6-1 and R98: the order, the capacities and the keys of the collections, and no two base entries that clash. -/
def Timetable.lawful (t : Timetable) : Prop := t.ordered ∧ t.noClash

/-- From `t` to `u` items may have left the collections. -/
def Timetable.thinsTo (t u : Timetable) : Prop :=
  u.calendar.Sublist t.calendar ∧ u.base.Sublist t.base ∧ u.events.Sublist t.events ∧ u.cues.Sublist t.cues

section
variable {t u v : Timetable}

theorem Timetable.thinsTo_refl (t : Timetable) : t.thinsTo t :=
  ⟨List.Sublist.refl _, List.Sublist.refl _, List.Sublist.refl _, List.Sublist.refl _⟩

theorem Timetable.thinsTo_trans (h1 : t.thinsTo u) (h2 : u.thinsTo v) : t.thinsTo v :=
  ⟨h2.1.trans h1.1, h2.2.1.trans h1.2.1, h2.2.2.1.trans h1.2.2.1, h2.2.2.2.trans h1.2.2.2⟩

theorem Timetable.lawful_of_thinsTo (h : t.thinsTo u) (law : t.lawful) : u.lawful := by
  obtain ⟨calendar, base, events, cues⟩ := h
  obtain ⟨⟨days, dayCap, ids, idRange, baseCap, eventIds, eventRange, eventCap, keys, cueCap⟩, clash⟩ := law
  exact ⟨⟨days.sublist calendar, calendar.length_le.trans dayCap, ids.sublist base, fun e he => idRange e (base.subset he),
    base.length_le.trans baseCap, eventIds.sublist events, fun e he => eventRange e (events.subset he),
    events.length_le.trans eventCap, keys.sublist cues, cues.length_le.trans cueCap⟩, clash.sublist base⟩

theorem Timetable.lawful_cold : Timetable.cold.lawful := by
  simp [Timetable.lawful, Timetable.ordered, Timetable.noClash, Timetable.cold]

theorem Timetable.thinsTo_setActive (t : Timetable) (g : Fin 16) (c : Option ActiveCue) : t.thinsTo (t.setActive g c) :=
  Timetable.thinsTo_refl t

theorem Timetable.thinsTo_setDirect (t : Timetable) (g : Fin 16) (d : Option DirectSelection) : t.thinsTo (t.setDirect g d) :=
  Timetable.thinsTo_refl t

theorem Timetable.thinsTo_dropEnded (t : Timetable) (day minute : Nat) : t.thinsTo (t.dropEnded day minute) :=
  ⟨List.Sublist.refl _, List.Sublist.refl _, List.filter_sublist, List.Sublist.refl _⟩

theorem Timetable.thinsTo_endEntry (t : Timetable) (id day minute : Nat) : t.thinsTo (t.endEntry id day minute) :=
  ⟨List.Sublist.refl _, List.Sublist.refl _, List.filter_sublist, List.Sublist.refl _⟩

theorem Timetable.thinsTo_foldl {α : Type} {f : Timetable → α → Timetable} (hf : ∀ (u : Timetable) a, u.thinsTo (f u a)) (l : List α) :
    t.thinsTo (l.foldl f t) :=
  List.foldlRecOn (motive := t.thinsTo) l f (Timetable.thinsTo_refl t) fun _ hu a _ => Timetable.thinsTo_trans hu (hf _ a)

theorem Timetable.thinsTo_keep (t : Timetable) (f : ActiveCue → Bool) (d : DirectSelection → Bool) (g : Fin 16) :
    t.thinsTo ((t.keepCue f g).keepDirect d g) :=
  Timetable.thinsTo_trans (Timetable.thinsTo_setActive t g _) (Timetable.thinsTo_setDirect _ g _)

theorem Timetable.thinsTo_expire (t : Timetable) (day minute : Nat) : t.thinsTo (t.expire day minute) :=
  Timetable.thinsTo_trans (Timetable.thinsTo_dropEnded t day minute)
    (Timetable.thinsTo_foldl (fun u g => Timetable.thinsTo_keep u _ _ g) _)

theorem Timetable.thinsTo_stepExpire (t : Timetable) (ref : Nat) : t.thinsTo (t.stepExpire ref) :=
  Timetable.thinsTo_foldl (fun u g => Timetable.thinsTo_keep u _ _ g) _

/-- R97: an exception joins where there is room, or replaces one of its day. -/
theorem Timetable.lawful_insertDay (e : CalendarEntry) (room : (∃ x ∈ t.calendar, x.day = e.day) ∨ t.calendar.length < 48)
    (law : t.lawful) : ({ t with calendar := insertDay e t.calendar } : Timetable).lawful := by
  obtain ⟨⟨days, dayCap, rest⟩, clash⟩ := law
  refine ⟨⟨?_, ?_, rest⟩, clash⟩ <;> rw [insertDay_eq]
  · exact insertKey_pairwise days
  · rcases room with held | room
    · rw [insertKey_length_of_mem days held]; exact dayCap
    · exact insertKey_length_le.trans room

/-- R104: a cue entry joins where there is room, or replaces one of its pair. -/
theorem Timetable.lawful_insertCue (e : CueEntry) (room : (∃ x ∈ t.cues, x.key = e.key) ∨ t.cues.length < 64)
    (law : t.lawful) : ({ t with cues := insertCue e t.cues } : Timetable).lawful := by
  obtain ⟨⟨days, dayCap, ids, idRange, baseCap, eventIds, eventRange, eventCap, keys, cueCap⟩, clash⟩ := law
  refine ⟨⟨days, dayCap, ids, idRange, baseCap, eventIds, eventRange, eventCap, ?_, ?_⟩, clash⟩ <;> rw [insertCue_eq]
  · exact insertKey_pairwise keys
  · rcases room with held | room
    · rw [insertKey_length_of_mem keys held]; exact cueCap
    · exact insertKey_length_le.trans room

/-- The lowest free id of an ordered collection with room: below the capacity, and no entry's. -/
theorem lowestId_spec {α : Type} {id : α → Nat} {l : List α} {cap : Nat} (ids : l.Pairwise fun a b => id a < id b)
    (room : l.length < cap) : lowestIdFrom 0 (l.map id) < cap ∧ (∀ x ∈ l, id x ≠ lowestIdFrom 0 (l.map id)) ∧
      ∀ k, k < lowestIdFrom 0 (l.map id) → ∃ x ∈ l, id x = k := by
  obtain ⟨-, le, absent, lowest⟩ := lowestIdFrom_spec 0 (l.map id) (List.pairwise_map.mpr ids) fun _ _ => Nat.zero_le _
  rw [List.length_map, Nat.zero_add] at le
  refine ⟨le.trans_lt room, fun x hx e => absent (e ▸ List.mem_map_of_mem hx), fun k hk => ?_⟩
  simpa using lowest k (Nat.zero_le _) hk

theorem BaseEntry.clashes_comm (a b : BaseEntry) : a.clashes b = b.clashes a := by
  unfold BaseEntry.clashes
  rw [BitVec.and_comm a.mask b.mask, Bool.eq_iff_iff]
  simp only [Bool.and_eq_true, beq_iff_eq]
  exact and_congr_left fun _ => and_congr eq_comm eq_comm

/-- A relation that holds of every pair of a list, either way round, holds with an item put in that is related to all. -/
theorem insertKey_pairwise_of_symm {α : Type} {key : α → Nat} {R : α → α → Prop} (symm : ∀ a b, R a b → R b a) {e : α} {l : List α}
    (h : l.Pairwise R) (he : ∀ x ∈ l, R e x) : (insertKey key e l).Pairwise R := by
  induction l with
  | nil => exact List.pairwise_singleton _ _
  | cons x l ih =>
    obtain ⟨first, rest⟩ := List.pairwise_cons.mp h
    have tail : ∀ y ∈ l, R e y := fun y hy => he y (List.mem_cons_of_mem _ hy)
    unfold insertKey
    split
    · exact List.pairwise_cons.mpr ⟨he, h⟩
    · split
      · exact List.pairwise_cons.mpr ⟨tail, rest⟩
      · refine List.pairwise_cons.mpr ⟨?_, ih rest tail⟩
        have members : ∀ (k : List α), (∀ y ∈ k, R x y) → ∀ y ∈ insertKey key e k, R x y := by
          intro k
          induction k with
          | nil =>
            intro _ y hy
            rw [List.mem_singleton.mp hy]
            exact symm _ _ (he x List.mem_cons_self)
          | cons z k ihk =>
            intro hk y hy
            unfold insertKey at hy
            have ex := symm _ _ (he x List.mem_cons_self)
            split at hy
            · rcases List.mem_cons.mp hy with rfl | hy
              · exact ex
              · exact hk y hy
            · split at hy
              · rcases List.mem_cons.mp hy with rfl | hy
                · exact ex
                · exact hk y (List.mem_cons_of_mem _ hy)
              · rcases List.mem_cons.mp hy with rfl | hy
                · exact hk y List.mem_cons_self
                · exact ihk (fun w hw => hk w (List.mem_cons_of_mem _ hw)) y hy
        exact members l first

/-- R98: a base entry that clashes with none joins with the lowest free id. -/
theorem Timetable.lawful_insertBase (e : BaseEntry) (room : t.base.length < 384) (free : t.base.any e.clashes = false)
    (law : t.lawful) :
    ({ t with base := insertBase { e with id := lowestIdFrom 0 (t.base.map BaseEntry.id) } t.base } : Timetable).lawful := by
  obtain ⟨⟨days, dayCap, ids, idRange, baseCap, rest⟩, clash⟩ := law
  obtain ⟨inRange, absent, -⟩ := lowestId_spec ids room
  have given : insertBase { e with id := lowestIdFrom 0 (t.base.map BaseEntry.id) } t.base =
      insertKey BaseEntry.id { e with id := lowestIdFrom 0 (t.base.map BaseEntry.id) } t.base := insertBase_eq absent
  rw [given]
  refine ⟨⟨days, dayCap, insertKey_pairwise ids, fun x hx => ?_, insertKey_length_le.trans room, rest⟩, ?_⟩
  · rcases (mem_insertKey ids).mp hx with rfl | ⟨-, hx⟩
    · exact inRange
    · exact idRange x hx
  · refine insertKey_pairwise_of_symm (fun a b h => (BaseEntry.clashes_comm b a).trans h) clash fun x hx => ?_
    have := List.any_eq_false.mp free x hx
    simpa [BaseEntry.clashes] using this

/-- R100: an event entry joins with the lowest free id. -/
theorem Timetable.lawful_insertEvent (e : EventEntry) (room : t.events.length < 64) (law : t.lawful) :
    ({ t with events := insertEvent { e with id := lowestIdFrom 0 (t.events.map EventEntry.id) } t.events } : Timetable).lawful := by
  obtain ⟨⟨days, dayCap, ids, idRange, baseCap, eventIds, eventRange, eventCap, cues⟩, clash⟩ := law
  obtain ⟨inRange, absent, -⟩ := lowestId_spec eventIds room
  have given : insertEvent { e with id := lowestIdFrom 0 (t.events.map EventEntry.id) } t.events =
      insertKey EventEntry.id { e with id := lowestIdFrom 0 (t.events.map EventEntry.id) } t.events := insertEvent_eq absent
  rw [given]
  refine ⟨⟨days, dayCap, ids, idRange, baseCap, insertKey_pairwise eventIds, fun x hx => ?_, insertKey_length_le.trans room, cues⟩,
    clash⟩
  rcases (mem_insertKey eventIds).mp hx with rfl | ⟨-, hx⟩
  · exact inRange
  · exact eventRange x hx

end

end Sys2Proof.Machine
end

section
/-! PROOFS. A property that outlives every update of a block which keeps that block's law is kept by every command: the commands
are made of such updates. The obligations about ranges, tables and ports (Tables 1-1, 6-1, 7-1, 9-2 and 10-1) are instances of it. -/

namespace Sys2Proof.Machine

/-- `Q` outlives every update that the events of a tick make. -/
structure TickClosed (Q : State → Prop) : Prop extends EngineClosed Q where
  tables : ∀ t x, Q t → (t.tables.lawful → x.lawful) → Q (t.setTables x)
  scrubOnward : ∀ t, Q t → Q (t.setStore t.store.scrubOnward)
  lineSeen : ∀ t p line, Q t → Q (t.setPort p ((t.port p).lineSeen line))

/-- `Q` outlives every update of one block that keeps the law of that block. -/
structure LawClosed (Q : State → Prop) : Prop where
  pending : ∀ t x, Q t → Q { t with pending := x }
  resetAsserted : ∀ t x, Q t → Q { t with resetAsserted := x }
  slots : ∀ t x, Q t → Q { t with slots := x }
  holds : ∀ t x, Q t → Q { t with holds := x }
  groups : ∀ t x, Q t → Q { t with groups := x }
  members : ∀ t x, Q t → Q { t with members := x }
  store : ∀ t x, Q t → Q { t with store := x }
  logOut : ∀ t x, Q t → Q { t with logOut := x }
  freeReads : ∀ t x, Q t → Q { t with freeReads := x }
  time : ∀ t x, Q t → (t.time.inRange → x.inRange) → Q { t with time := x }
  tables : ∀ t x, Q t → (t.tables.lawful → x.lawful) → Q { t with tables := x }
  ports : ∀ t x, Q t → ((∀ p, (t.port p).sound) → ∀ p : Fin 4, (x.get p).sound) → Q { t with ports := x }
  trunk : ∀ t x, Q t → (t.trunk.bounded → x.bounded) → Q { t with trunk := x }
  mgmt : ∀ t x, Q t → t.mgmt.lawfulTo x → Q { t with mgmt := x }
  records : ∀ t x, Q t → (t.records.sound → x.sound) → Q { t with records := x }

/-! ### The events of a tick -/

section
variable {Q : State → Prop} {t : State}

theorem TickClosed.timetableMinute (c : TickClosed Q) (d m : Nat) (h : Q t) : Q (t.timetableMinute d m) := by
  unfold State.timetableMinute
  split
  · exact c.evaluateGroups _ _ _ (c.tables _ _ h (Timetable.lawful_of_thinsTo (Timetable.thinsTo_expire _ d m)))
  · exact h

theorem TickClosed.timetableStep (c : TickClosed Q) (h : Q t) : Q t.timetableStep := by
  unfold State.timetableStep
  split
  · exact c.evaluateNow _ (c.tables _ _ h (Timetable.lawful_of_thinsTo (Timetable.thinsTo_stepExpire _ _)))
  · exact h

theorem TickClosed.stepEvent (c : TickClosed Q) (h : Q t) : Q t.stepEvent := c.timetableStep (c.setStepFlags _ h)

theorem TickClosed.scrubVisit (c : TickClosed Q) (h : Q t) : Q t.scrubVisit := by
  unfold State.scrubVisit
  dsimp only
  split
  · refine c.scrubOnward _ ?_
    split
    · rename_i l found
      split
      next => exact h
      next normal => exact (c.slots 0).readLocation (PlanStore.at?_some found).1 (by simpa using normal) h
    · exact h
  · exact h

theorem TickClosed.tickEvent (c : TickClosed Q) (k : Nat) (w : Bool) (run : List (Fin 64)) (e : TickEvent) (h : Q t) :
    Q (t.tickEvent k w run e).1 := by
  unfold State.tickEvent
  split
  · exact (c.slots _).advanceSlot k h
  · exact c.scrubVisit h
  · exact c.setStepFlags run h
  · exact c.groupMinute _ h
  · dsimp only
    split
    · exact c.timetableStep h
    · exact c.timetableMinute _ _ h
  · exact c.lineSeen t _ _ h
  · exact h
  · exact h

theorem TickClosed.takeEvents (c : TickClosed Q) (k : Nat) (w : Bool) (run : List (Fin 64)) :
    ∀ (es : List TickEvent) (v : OnWay) (t : State), Q t → Q (t.takeEvents k w run es v)
  | [], _, _, h => h
  | e :: es, _, _, h => c.takeEvents k w run es _ _ (c.arrive _ (c.tickEvent k w run e h))

end

/-! ### Updates of one element -/

section
variable {Q : State → Prop} {t : State}

theorem LawClosed.port (c : LawClosed Q) {p : Fin 4} {q : Port} (h : Q t) (law : (t.port p).sound → q.sound) : Q (t.setPort p q) := by
  refine c.ports t _ h fun sound j => ?_
  show ((t.setPort p q).port j).sound
  rw [State.setPort_port]
  split
  · exact law (sound p)
  · exact sound j

theorem LawClosed.raise (c : LawClosed Q) (k : Notice) (h : Q t) : Q (t.raise k) := c.records t _ h (RecordUnit.sound_raise k)

theorem LawClosed.engine (c : LawClosed Q) : EngineClosed Q where
  slots _ :=
    { slot := fun _ _ h _ => c.slots _ _ h
      read := fun _ _ h _ _ => c.store _ _ h
      promote := fun _ _ h => c.store _ _ h
      removeEntry := fun _ h => c.port h (Port.sound_removeEntry _)
      handOver := fun _ _ h => c.port h (Port.sound_handOver _ _)
      raise := fun _ k _ h => c.raise k h
      record := fun _ _ h _ => c.records _ _ h (RecordUnit.sound_take _) }
  group _ _ _ h := c.groups _ _ h
  member _ _ _ h := c.members _ _ h

theorem LawClosed.tick (c : LawClosed Q) : TickClosed Q where
  toEngineClosed := c.engine
  tables _ _ h law := c.tables _ _ h law
  scrubOnward _ h := c.store _ _ h
  lineSeen _ _ line h := c.port h (Port.sound_lineSeen line)

theorem LawClosed.setTime (c : LawClosed Q) {x : TimeBase} (h : Q t) (law : t.time.inRange → x.inRange) : Q (t.setTime x) :=
  c.time _ _ h law

theorem LawClosed.setTables (c : LawClosed Q) {x : Timetable} (h : Q t) (law : t.tables.lawful → x.lawful) : Q (t.setTables x) :=
  c.tables _ _ h law

theorem LawClosed.setTrunk (c : LawClosed Q) {x : Trunk} (h : Q t) (law : t.trunk.bounded → x.bounded) : Q (t.setTrunk x) :=
  c.trunk _ _ h law

theorem LawClosed.setMgmt (c : LawClosed Q) {x : Management} (h : Q t) (law : t.mgmt.lawfulTo x) : Q (t.setMgmt x) :=
  c.mgmt _ _ h law

/-- A state that is reached with every block's law kept, whatever else has changed. -/
theorem LawClosed.of_laws (c : LawClosed Q) {u : State} (h : Q t) (time : t.time.inRange → u.time.inRange)
    (tables : t.tables.lawful → u.tables.lawful) (ports : (∀ p, (t.port p).sound) → ∀ p, (u.port p).sound)
    (trunk : t.trunk.bounded → u.trunk.bounded) (mgmt : t.mgmt.lawfulTo u.mgmt) (records : t.records.sound → u.records.sound) :
    Q u := by
  let t1 : State := { t with pending := u.pending, resetAsserted := u.resetAsserted }
  let t2 : State := { t1 with slots := u.slots, holds := u.holds }
  let t3 : State := { t2 with groups := u.groups, members := u.members }
  let t4 : State := { t3 with store := u.store, logOut := u.logOut, freeReads := u.freeReads }
  let t5 : State := { t4 with time := u.time, tables := u.tables, ports := u.ports }
  have h1 : Q t1 := c.resetAsserted { t with pending := u.pending } _ (c.pending t _ h)
  have h2 : Q t2 := c.holds { t1 with slots := u.slots } _ (c.slots t1 _ h1)
  have h3 : Q t3 := c.members { t2 with groups := u.groups } _ (c.groups t2 _ h2)
  have h4 : Q t4 := c.freeReads { t3 with store := u.store, logOut := u.logOut } _
    (c.logOut { t3 with store := u.store } _ (c.store t3 _ h3))
  have h5 : Q t5 := c.ports { t4 with time := u.time, tables := u.tables } _
    (c.tables { t4 with time := u.time } _ (c.time t4 _ h4 time) tables) ports
  exact c.records { t5 with trunk := u.trunk, mgmt := u.mgmt } u.records
    (c.mgmt { t5 with trunk := u.trunk } u.mgmt (c.trunk t5 u.trunk h5 trunk) mgmt) records

/-! ### Requests -/

theorem LawClosed.placeA (c : LawClosed Q) (f : TrunkFrame) (h : Q t) (room : t.trunk.aOut.hasRoom = true) :
    Q (t.setTrunk { t.trunk with aOut := t.trunk.aOut.place f }) :=
  c.setTrunk h fun law => ⟨OutQueue.place_length room f, law.2⟩

theorem LawClosed.engineDone (c : LawClosed Q) (h : Q t) : Q t.engineDone := c.setMgmt h (lawfulTo_takeNext id)

theorem LawClosed.placeReply (c : LawClosed Q) (r : Request) (f : TrunkFrame) (h : Q t) : Q (t.placeReply r f) := by
  unfold State.placeReply
  split
  · exact c.engineDone h
  · split
    · exact c.engineDone (c.placeA f h ‹_›)
    · exact c.setMgmt h ⟨id, fun _ idle => nomatch idle⟩

theorem LawClosed.carryOut (c : LawClosed Q) (i : Instr) {owner : State → Answer} (h : Q t) (ho : Q t → Q (owner t).state) :
    Q (carryOut i owner t) := by
  unfold Machine.carryOut
  split
  · exact h
  · split
    · exact h
    · split
      · exact c.engineDone h
      · exact c.placeReply _ _ (ho h)

/-! ### The owners of requests -/

theorem LawClosed.evaluateNow (c : LawClosed Q) (gs : List (Fin 16)) (h : Q t) : Q (t.evaluateNow gs) := c.engine.evaluateNow gs h

theorem LawClosed.changed (c : LawClosed Q) {x : Timetable} (gs : List (Fin 16)) (fields : List Byte) (h : Q t)
    (law : t.tables.lawful → x.lawful) : Q (changed t x gs fields).state :=
  c.evaluateNow gs (c.setTables h law)

theorem LawClosed.setDayNumber (c : LawClosed Q) {day : Nat} (hd : day < 65536) (h : Q t) : Q (t.setDayNumber day) := by
  have moved := c.setTime h (TimeBase.inRange_setDay hd)
  unfold State.setDayNumber
  dsimp only
  split
  · exact c.tick.stepEvent (c.raise _ moved)
  · exact moved

theorem LawClosed.defineSlot (c : LawClosed Q) (slot : Byte) (x : Half) (p d g v m : Byte) (h : Q t) :
    Q (defineSlot slot x p d g v m t).state := by
  unfold Machine.defineSlot
  split
  · exact h
  · split
    · exact h
    · split
      · exact h
      · exact c.engine.deliver ((c.engine.slots _).positionAttempt (c.engine.takeMember _ (c.slots _ _ h)))

theorem LawClosed.releaseSlot (c : LawClosed Q) (i : Fin 64) (h : Q t) : Q (t.releaseSlot i) :=
  c.engine.takeMember _ (c.slots _ _ (c.store _ _ (c.port ((c.engine.slots i).endTransition _ h) (Port.sound_release i))))

theorem keeps_onDefinedSlot (slot : Byte) {f : Fin 64 → Answer} (h : Q t) (hf : ∀ i, Q (f i).state) :
    Q (onDefinedSlot slot f t).state := by
  rcases onDefinedSlot_cases slot f t with ⟨-, e⟩ | ⟨-, -, -, e⟩ | ⟨i, -, -, e⟩ <;> rw [e]
  · exact h
  · exact h
  · exact hf i

theorem LawClosed.regroup (c : LawClosed Q) (g : Fin 16) (x : GroupSettings) (h : Q t) : Q (t.regroup g x) := by
  refine c.evaluateNow _ ?_
  split
  · exact c.groups _ _ h
  · exact c.engine.settle g true (c.groups _ _ h)

theorem LawClosed.mirrorFilter (c : LawClosed Q) (filter : SlotSet) (h : Q t) : Q (t.mirrorFilter filter) := by
  unfold State.mirrorFilter
  generalize List.finRange 64 = slots
  refine keeps_foldl (fun u i hu => ?_) _ h
  split
  · exact hu
  · exact c.slots _ _ hu

theorem LawClosed.readLocation (c : LawClosed Q) (l : Location) (h : Q t) : Q (t.readLocation l).1 := by
  unfold State.readLocation
  dsimp only
  split
  · exact c.raise _ (c.store _ _ h)
  · exact c.store _ _ h

theorem LawClosed.readPlan (c : LawClosed Q) (slot plan part : Byte) (h : Q t) : Q (readPlan slot plan part t).state := by
  unfold Machine.readPlan
  split
  · split
    · unfold readChecked
      split
      · exact h
      · split
        · exact h
        · rename_i l _
          have read := c.readLocation l h
          unfold readHeld
          split
          · exact h
          · split <;> rename_i e <;> rw [e] at read <;> exact read
    · exact h
  · exact h

theorem LawClosed.checksumStep (c : LawClosed Q) (k : Checksum) (n : Nat) (h : Q k.state) : Q (k.step n).state := by
  unfold Checksum.step
  split
  · exact h
  · split
    · exact h
    · rename_i l _ _
      have read := c.readLocation l h
      dsimp only
      split <;> rename_i e <;> rw [e] at read <;> exact read

theorem LawClosed.checksumPlans (c : LawClosed Q) (first last sum : Nat) (h : Q t) : Q (checksumPlans first last sum t).state := by
  have run : Q (checksumRun first last sum t).state :=
    List.foldlRecOn (motive := fun k : Checksum => Q k.state) _ _ h fun k hk n _ => c.checksumStep k n hk
  unfold Machine.checksumPlans
  split
  · exact h
  · dsimp only
    split <;> exact run

/-- A request whose owner writes the store and the log-out record at most. -/
theorem LawClosed.ofStore (c : LawClosed Q) {u : State} (h : Q t) (frame : t.changesOnly u [.store, .logOut]) : Q u := by
  obtain ⟨-, -, stands⟩ := frame
  have time : u.time = t.time := stands .time (by decide)
  have tables : u.tables = t.tables := stands .tables (by decide)
  have ports : u.ports = t.ports := stands .ports (by decide)
  have trunk : u.trunk = t.trunk := stands .trunk (by decide)
  have mgmt : u.mgmt = t.mgmt := stands .mgmt (by decide)
  have records : u.records = t.records := stands .records (by decide)
  refine c.of_laws h (time ▸ id) (tables ▸ id) ?_ (trunk ▸ id) ⟨mgmt ▸ id, mgmt ▸ id⟩ (records ▸ id)
  unfold State.port
  rw [ports]
  exact id

theorem LawClosed.setCalendar (c : LawClosed Q) (day : Half) (action dayType : Byte) (h : Q t) :
    Q (setCalendar day action dayType t).state := by
  unfold Machine.setCalendar
  split
  · split
    · unfold calendarSet
      dsimp only
      split
      next e found =>
        split
        · exact h
        · have held := List.find?_some found
          exact c.changed _ _ h (Timetable.lawful_insertDay _ (.inl ⟨e, List.mem_of_find?_eq_some found, by simpa using held⟩))
      next =>
        split
        next room => exact c.changed _ _ h (Timetable.lawful_insertDay _ (.inr room))
        next => exact h
    · exact h
  · unfold calendarRemove
    dsimp only
    split
    · exact c.changed _ _ h (Timetable.lawful_of_thinsTo
        ⟨List.filter_sublist, List.Sublist.refl _, List.Sublist.refl _, List.Sublist.refl _⟩)
    · exact h
  · exact h

theorem LawClosed.addBase (c : LawClosed Q) (group mask : Byte) (start : Half) (plan mode : Byte) (h : Q t) :
    Q (addBase group mask start plan mode t).state := by
  unfold Machine.addBase
  split
  · split
    · exact h
    · unfold addBaseChecked
      dsimp only
      split
      next => exact h
      next free =>
        split
        next => exact h
        next room => exact c.changed _ _ h (Timetable.lawful_insertBase _ (Nat.lt_of_not_le room) (by simpa using free))
  · exact h

theorem LawClosed.addEvent (c : LawClosed Q) (group : Byte) (startDay startMinute endDay endMinute : Half)
    (plan priority mode : Byte) (h : Q t) : Q (addEvent group startDay startMinute endDay endMinute plan priority mode t).state := by
  unfold Machine.addEvent
  split
  · exact h
  · split
    · exact h
    · unfold addEventChecked
      dsimp only
      split
      next => exact h
      next =>
        split
        next => exact h
        next room => exact c.changed _ _ h (Timetable.lawful_insertEvent _ (Nat.lt_of_not_le room))

theorem LawClosed.cutEntry (c : LawClosed Q) (kind : Byte) (id : Half) (h : Q t) : Q (cutEntry kind id t).state := by
  unfold Machine.cutEntry
  split
  · split
    · unfold cutBase
      dsimp only
      split
      · exact c.changed _ _ h (Timetable.lawful_of_thinsTo
          ⟨List.Sublist.refl _, List.filter_sublist, List.Sublist.refl _, List.Sublist.refl _⟩)
      · exact h
    · exact h
  · split
    · unfold cutEvent
      dsimp only
      split
      · exact c.changed _ _ h (Timetable.lawful_of_thinsTo
          ⟨List.Sublist.refl _, List.Sublist.refl _, List.filter_sublist, List.Sublist.refl _⟩)
      · exact h
    · exact h
  · exact h

theorem LawClosed.setCue (c : LawClosed Q) (cue group plan : Byte) (duration : Half) (priority : Byte) (h : Q t) :
    Q (setCue cue group plan duration priority t).state := by
  unfold Machine.setCue
  split
  · split
    · exact h
    · unfold setCueChecked
      dsimp only
      split
      next room =>
        rw [Bool.or_eq_true, List.any_eq_true, decide_eq_true_eq] at room
        exact c.setTables h (Timetable.lawful_insertCue _ (room.imp_left fun ⟨x, hx, key⟩ => ⟨x, hx, by simpa using key⟩))
      next => exact h
  · exact h

theorem LawClosed.cutCue (c : LawClosed Q) (cue group : Byte) (h : Q t) : Q (cutCue cue group t).state := by
  unfold Machine.cutCue
  split
  · exact h
  · dsimp only
    split
    · exact h
    · split
      · exact c.setTables h (Timetable.lawful_of_thinsTo
          ⟨List.Sublist.refl _, List.Sublist.refl _, List.Sublist.refl _, List.filter_sublist⟩)
      · exact h

theorem LawClosed.directPlan (c : LawClosed Q) (group plan : Byte) (duration : Half) (h : Q t) :
    Q (directPlan group plan duration t).state := by
  unfold Machine.directPlan
  split
  · split
    · exact h
    · exact c.changed _ _ h (Timetable.lawful_of_thinsTo (Timetable.thinsTo_setDirect _ _ _))
  · exact h

theorem LawClosed.endDirect (c : LawClosed Q) (group : Byte) (h : Q t) : Q (endDirect group t).state := by
  unfold Machine.endDirect
  split
  · exact h
  · split
    · exact h
    · exact c.changed _ _ h (Timetable.lawful_of_thinsTo (Timetable.thinsTo_setDirect _ _ _))

theorem LawClosed.setPortRequest (c : LawClosed Q) (port : Byte) (window : Half) (clear : Byte) (h : Q t) :
    Q (setPortRequest port window clear t).state := by
  have windowed : ∀ {q : Port} (w : Nat), q.sound → ({ q with window := max 20 (min 200 w) } : Port).sound := by
    rintro q w ⟨state, -, -, rest⟩
    exact ⟨state, Nat.le_max_left _ _, by dsimp only; omega, rest⟩
  unfold Machine.setPortRequest
  split
  · exact h
  · split
    · exact h
    · refine c.port h fun law => ?_
      split
      · exact Port.sound_congr (q := { t.port _ with window := _ }) ⟨rfl, rfl, rfl, rfl, rfl⟩ (windowed _ law)
      · exact windowed _ law

theorem LawClosed.activationEdge (c : LawClosed Q) (l : Fin 4) (h : Q t) : Q (t.activationEdge l).1 :=
  keeps_overSlots (fun _ i ht => (c.engine.slots i).joinCause _ ht) _ (c.holds _ _ h)

theorem LawClosed.releaseEdge (c : LawClosed Q) (l : Fin 4) (h : Q t) : Q (t.releaseEdge l) :=
  keeps_foldl (fun _ i ht => (c.engine.slots i).leaveCause _ ht) _ (c.holds _ _ h)

theorem LawClosed.sampleHolds (c : LawClosed Q) (pins : PinSample) (h : Q t) : Q (t.sampleHolds pins) := by
  refine keeps_foldl (fun u l hu => c.engine.deliver ?_) _ h
  unfold State.sampleHold
  split
  · exact c.activationEdge l hu
  · exact c.holds _ _ hu

theorem LawClosed.setHoldMap (c : LawClosed Q) (l : Fin 4) (map : SlotSet) (h : Q t) : Q (t.setHoldMap l map) := by
  unfold State.setHoldMap
  dsimp only
  split
  · exact c.holds _ _ h
  · refine c.engine.deliver (keeps_overSlots (fun u i hu => ?_) _ (c.holds _ _ h))
    unfold State.holdDifference
    split
    · exact (c.engine.slots i).joinCause _ hu
    · split
      · exact (c.engine.slots i).leaveCause _ hu
      · exact hu

/-! ### Field events -/

theorem LawClosed.takeBadFrame (c : LawClosed Q) (p : Fin 4) (ms : Nat) (line : LineCondition) (h : Q t) :
    Q (t.takeBadFrame p ms line) := c.port h (Port.sound_badFrame ms line)

theorem LawClosed.takeStatus (c : LawClosed Q) (p : Fin 4) (f : StatusFields) (ms : Nat) (line : LineCondition) (h : Q t) :
    Q (t.takeStatus p f ms line) := by
  unfold State.takeStatus
  dsimp only
  split
  next => exact h
  next notSending =>
    have quiet : (t.port p).directionAsserted = false := by simpa [Port.sending] using notSending
    split
    next => exact c.port h (Port.sound_outsideReply line)
    next x hx =>
      split
      · exact c.engine.reportOutcome _ _ _ (c.port h fun law => Port.sound_endExchange (Port.sound_frameSeen line law) quiet)
      · exact c.port h fun law => Port.sound_windowSeen (fun x => x.atElapsed ms) law quiet ⟨rfl, rfl, rfl, rfl⟩ (by simp [hx])
          fun _ => ⟨rfl, rfl, rfl⟩

theorem LawClosed.fieldReception (c : LawClosed Q) (p : Fin 4) (ms : Nat) (bytes : List Byte) (line : LineCondition) (h : Q t) :
    Q (t.fieldReception p ms bytes line) := by
  unfold State.fieldReception
  split
  · exact c.takeStatus p _ ms line h
  · exact c.takeBadFrame p ms line h

theorem LawClosed.fieldReceptions (c : LawClosed Q) (p : Fin 4) (ms : Nat) (line : LineCondition) :
    ∀ (runs : List (List Byte)) {t : State}, Q t → Q (t.fieldReceptions p ms line runs)
  | [], _, h => h
  | [_], _, h => c.fieldReception p ms _ line h
  | _ :: next :: rest, _, h => c.fieldReceptions p ms line (next :: rest) (c.fieldReception p ms _ .active h)

theorem LawClosed.expireWindow (c : LawClosed Q) (p : Fin 4) (line : LineCondition) (h : Q t) : Q (t.expireWindow p line) := by
  unfold State.expireWindow
  split
  next x hx =>
    split
    next window =>
      refine c.engine.reportOutcome _ _ _ (c.port h fun law => Port.sound_endExchange ?_ ?_)
      · exact Port.sound_congr (q := t.port p) ⟨rfl, rfl, rfl, rfl, rfl⟩ law
      · simp [Port.directionAsserted, hx, window]
    next => exact h
  next => exact h

theorem LawClosed.blockLine (c : LawClosed Q) (p : Fin 4) (h : Q t) : Q (t.blockLine p) := by
  unfold State.blockLine
  dsimp only
  split
  next => exact h
  next free =>
    have quiet : (t.port p).directionAsserted = false := by simpa [Port.sending] using (not_or.mp free).1
    have blocked := c.port h fun law => Port.sound_block law quiet
    split
    · exact c.engine.reportOutcome _ _ _ blocked
    · exact blocked

/-! ### The trunk -/

theorem LawClosed.offerA (c : LawClosed Q) (f : TrunkFrame) (h : Q t) : Q (t.offerA f) := by
  unfold State.offerA
  split
  · exact c.placeA f h ‹_›
  · exact c.raise _ (c.setTrunk h id)

theorem LawClosed.offerB (c : LawClosed Q) (f : TrunkFrame) (h : Q t) : Q (t.offerB f) := by
  unfold State.offerB
  split
  next room => exact c.setTrunk h fun law => ⟨law.1, OutQueue.place_length room f⟩
  next => exact c.raise _ (c.setTrunk h id)

theorem LawClosed.count (c : LawClosed Q) (p : TrunkPort) (f : PortCounts → PortCounts) (h : Q t) : Q (t.count p f) := by
  cases p <;> exact c.setTrunk h id

theorem LawClosed.passOn (c : LawClosed Q) (p : TrunkPort) (f : TrunkFrame) (h : Q t) : Q (t.passOn p f) := by
  unfold State.passOn
  split
  · exact c.count _ _ h
  · dsimp only
    split
    · exact c.offerB _ h
    · exact c.offerA _ h

theorem LawClosed.countMalformed (c : LawClosed Q) (h : Q t) : Q t.countMalformed := c.setTrunk h id

theorem LawClosed.takeMark (c : LawClosed Q) {m : Mark} (hm : m.dayInRange) (h : Q t) : Q (t.takeMark m) := by
  have timed : ∀ k, Q ((t.setTime (t.time.takeMark m).time).raiseOpt k) := by
    have set := c.setTime h (TimeBase.inRange_takeMark hm)
    rintro (- | k)
    · exact set
    · exact c.raise k set
  unfold State.takeMark
  dsimp only
  split
  · exact c.tick.stepEvent (timed _)
  · exact timed _

theorem LawClosed.applyCue (c : LawClosed Q) (a : State × List (Fin 16)) (e : CueEntry) (h : Q a.1) : Q (State.applyCue a e).1 := by
  unfold State.applyCue
  dsimp only
  split
  · exact c.setTables h (Timetable.lawful_of_thinsTo (Timetable.thinsTo_setActive _ _ _))
  · exact c.raise _ h

theorem LawClosed.takeCue (c : LawClosed Q) (n : Nat) (h : Q t) : Q (t.takeCue n) := by
  unfold State.takeCue
  split
  · exact c.evaluateNow _ (List.foldlRecOn (motive := fun a : State × List (Fin 16) => Q a.1) _ _ h fun a ha e _ => c.applyCue a e ha)
  · exact h

theorem LawClosed.takeCancel (c : LawClosed Q) (n : Nat) (h : Q t) : Q (t.takeCancel n) :=
  c.evaluateNow _ (c.setTables h (Timetable.lawful_of_thinsTo
    (Timetable.thinsTo_foldl (fun u g => Timetable.thinsTo_setActive u g none) _)))

theorem LawClosed.offerRequest (c : LawClosed Q) (r : Request) (h : Q t) : Q (t.offerRequest r) := by
  unfold State.offerRequest
  split
  next room =>
    have room : t.mgmt.queue.length < 4 := room
    exact c.setMgmt h (lawfulTo_takeNext fun _ => by simpa using room)
  next =>
    split
    · exact h
    · exact c.offerA _ h

theorem LawClosed.actOn (c : LawClosed Q) (own : Byte) (f : TrunkFrame) (h : Q t) : Q (t.actOn own f) := by
  unfold State.actOn
  split
  · split
    next m hm => exact c.takeMark (markOfBody_dayInRange hm) h
    next => exact c.countMalformed h
  · split
    · split
      · exact c.takeCue _ h
      · exact c.countMalformed h
    · split
      · split
        · exact c.takeCancel _ h
        · exact c.countMalformed h
      · split
        · split
          · exact c.offerRequest _ h
          · exact c.countMalformed h
        · exact h

theorem LawClosed.acceptedFrame (c : LawClosed Q) (p : TrunkPort) (f : TrunkFrame) (h : Q t) : Q (t.acceptedFrame p f) := by
  have counted : Q (t.countAccepted p f) := c.count _ _ h
  unfold State.acceptedFrame
  dsimp only
  split
  · split
    · exact c.actOn _ f counted
    · exact c.passOn _ f (c.actOn _ f counted)
  · exact c.passOn _ f counted

theorem LawClosed.reception (c : LawClosed Q) (p : TrunkPort) (bytes : List Byte) (h : Q t) : Q (t.reception p bytes) := by
  unfold State.reception
  split
  · exact c.acceptedFrame p _ h
  · exact c.count _ _ h

theorem LawClosed.frameFromA (c : LawClosed Q) (kind station hops : Byte) (body : List Byte) (h : Q t) :
    Q (t.frameFromA kind station hops body) := by
  unfold State.frameFromA
  split
  · exact h
  · split
    · exact c.acceptedFrame .a _ h
    · exact c.count _ _ h

theorem LawClosed.placeHeld (c : LawClosed Q) (h : Q t) : Q t.placeHeld := by
  unfold State.placeHeld
  split
  · split
    · exact c.engineDone (c.placeA _ h ‹_›)
    · exact h
  · exact h

theorem OutQueue.sentHead_length (q : OutQueue) : q.sentHead.frames.length ≤ q.frames.length := by
  unfold OutQueue.sentHead
  split
  · exact le_rfl
  · simp [*]

theorem LawClosed.trunkTransmitEnd (c : LawClosed Q) (p : TrunkPort) (h : Q t) :
    Q (match p with
      | .a => t.setTrunk { t.trunk with aOut := t.trunk.aOut.sentHead }
      | .b => t.setTrunk { t.trunk with bOut := t.trunk.bOut.sentHead }) := by
  cases p
  · exact c.setTrunk h fun law => ⟨(OutQueue.sentHead_length _).trans law.1, law.2⟩
  · exact c.setTrunk h fun law => ⟨law.1, (OutQueue.sentHead_length _).trans law.2⟩

theorem LawClosed.readStation (c : LawClosed Q) (clear : Byte) (h : Q t) : Q (readStation clear t).state := by
  unfold Machine.readStation
  split
  · exact h
  · dsimp only
    split
    · exact c.setTrunk h id
    · exact h

/-! ### The time base and the resets -/

theorem LawClosed.enterHoldover (c : LawClosed Q) (h : Q t) : Q t.enterHoldover := by
  unfold State.enterHoldover
  split
  · exact c.raise _ (c.setTime h TimeBase.inRange_holdover)
  · exact h

theorem LawClosed.wholeTick (c : LawClosed Q) (order : List TickEvent) (h : Q t) : Q (t.tick order) := by
  have entered := c.enterHoldover (c.setTime h TimeBase.inRange_tick)
  unfold State.tick
  dsimp only
  refine c.tick.takeEvents _ _ _ _ _ _ ?_
  split
  · exact c.raise _ entered
  · exact entered

theorem keptFrames_length (reply : Option TrunkFrame) (fs : List TrunkFrame) : (keptFrames reply fs).length ≤ 2 := by
  unfold keptFrames
  split
  · exact Nat.zero_le _
  · split
    · simp only [List.length_cons, List.length_take]; omega
    · simp

theorem Trunk.bounded_restart (x : Trunk) (k : RestartKind) (reply : Option TrunkFrame) : (x.restart k reply).bounded := by
  have kept := keptFrames_length reply x.aOut.frames
  refine ⟨?_, ?_⟩
  · show (keptFrames reply x.aOut.frames).length ≤ 8
    omega
  · show (x.bOut.frames.take 1).length ≤ 8
    simp only [List.length_take]
    omega

theorem Trunk.bounded_cold (strap : Byte) : (Trunk.cold strap).bounded := ⟨Nat.zero_le _, Nat.zero_le _⟩

theorem Management.lawfulTo_cold (m : Management) : m.lawfulTo .cold := ⟨fun _ => Nat.zero_le _, fun _ _ _ => rfl⟩

theorem Port.sound_ofFn {f : Fin 4 → Port} (h : ∀ p, (f p).sound) (p : Fin 4) : ((Vector.ofFn f).get p).sound := by
  rw [Vector.get_ofFn]
  exact h p

theorem Port.sound_replicate (p : Fin 4) : ((Vector.replicate 4 Port.cold).get p).sound := by
  rw [Vector.get_replicate]
  exact Port.sound_cold .idle

theorem LawClosed.coldBlocks (c : LawClosed Q) (h : Q t) : Q t.coldBlocks :=
  c.of_laws h (fun _ => TimeBase.inRange_cold) (fun _ => Timetable.lawful_cold) (fun _ => Port.sound_replicate)
    (fun _ => Trunk.bounded_cold _) (Management.lawfulTo_cold _) fun _ => RecordUnit.sound_cold

theorem LawClosed.restartNow (c : LawClosed Q) (k : RestartKind) (reply : Option TrunkFrame) (pins : PinSample) (h : Q t) :
    Q (t.restartNow k reply pins) := by
  have bounded := Trunk.bounded_restart t.trunk k reply
  refine c.sampleHolds pins ?_
  cases k with
  | cold =>
    exact c.of_laws h (fun _ => TimeBase.inRange_cold) (fun _ => Timetable.lawful_cold)
      (fun _ => Port.sound_ofFn fun _ => Port.sound_cold _) (fun _ => bounded) (Management.lawfulTo_cold _)
      fun _ => RecordUnit.sound_cold
  | warm =>
    exact c.of_laws h TimeBase.inRange_warm (Timetable.lawful_of_thinsTo (Timetable.thinsTo_refl _))
      (fun law => Port.sound_ofFn fun p => Port.sound_warm _ (law p)) (fun _ => bounded) (Management.lawfulTo_cold _)
      RecordUnit.sound_warm

theorem LawClosed.release (c : LawClosed Q) (straps : Byte) (pins : PinSample) (h : Q t) : Q (t.release straps pins) := by
  exact c.sampleHolds pins (c.of_laws h id id
    (fun law => Port.sound_ofFn fun p => Port.sound_congr (q := t.port p) ⟨rfl, rfl, rfl, rfl, rfl⟩ (law p)) id ⟨id, id⟩ id)

theorem LawClosed.acceptRestart (c : LawClosed Q) (k : RestartKind) (r : Request) (h : Q t) : Q (t.acceptRestart k r) :=
  c.placeReply _ _ (c.setMgmt h ⟨id, fun _ _ none => nomatch none⟩)

/-! ### Every command -/

theorem keeps_unlessReset {u : State} (h : Q t) (hu : Q t → Q u) : Q (if t.resetAsserted then t else u) := by
  split
  · exact h
  · exact hu h

theorem keeps_ite {p : Prop} [Decidable p] {u v : State} (h : Q t) (hu : p → Q t → Q u) (hv : ¬p → Q t → Q v) :
    Q (if p then u else v) := by
  split
  · exact hu ‹_› h
  · exact hv ‹_› h

/-- Every command is made of updates that keep the laws of the blocks. -/
theorem LawClosed.owned (c : LawClosed Q) {i : Instr} {o : State → Answer} (ho : ownerOf i = some o) (h : Q t)
    (hk : Q t → Q (o t).state) : Q (Machine.after i t) := by
  rw [after_of_owner ho]
  exact c.carryOut i h hk

theorem LawClosed.after (c : LawClosed Q) (i : Instr) (h : Q t) : Q (after i t) := by
  cases i with
  | tick order => exact keeps_unlessReset h (c.wholeTick order)
  | holdoverEntry => exact keeps_unlessReset h c.enterHoldover
  | transitionLimitReached g => exact keeps_unlessReset h fun h => c.engine.forceAll _ (c.engine.checkLimit g h)
  | eventEntryEnd id =>
    exact keeps_unlessReset h fun h => keeps_ite h
      (fun _ h => c.setTables h (Timetable.lawful_of_thinsTo (Timetable.thinsTo_endEntry _ _ _ _))) fun _ h => h
  | cueExpiry g =>
    exact keeps_unlessReset h fun h => keeps_ite h
      (fun _ h => c.setTables h (Timetable.lawful_of_thinsTo (Timetable.thinsTo_setActive _ _ _))) fun _ h => h
  | directExpiry g =>
    exact keeps_unlessReset h fun h => keeps_ite h
      (fun _ h => c.setTables h (Timetable.lawful_of_thinsTo (Timetable.thinsTo_setDirect _ _ _))) fun _ h => h
  | timeMark _ _ _ => exact c.frameFromA _ _ _ _ h
  | cue _ _ _ => exact c.frameFromA _ _ _ _ h
  | cueCancel _ _ _ => exact c.frameFromA _ _ _ _ h
  | request _ _ _ => exact c.frameFromA _ _ _ _ h
  | trunkFrame p line =>
    exact keeps_unlessReset h (keeps_foldl (f := State.reception p) (fun _ b ht => c.reception p b ht) (receptions line))
  | trunkTransmitEnd p => exact keeps_unlessReset h (c.trunkTransmitEnd p)
  | heldReplyPlaced => exact keeps_unlessReset h c.placeHeld
  | restartEffect pins =>
    refine keeps_unlessReset h fun h => ?_
    unfold State.restartEffect
    split
    · exact c.restartNow _ _ _ h
    · exact h
  | unknownRequestCode src code params => exact keeps_ite h (fun _ h => c.carryOut (.unknownRequestCode src code params) h id) fun _ h => h
  | readTime _ => exact c.owned rfl h id
  | setDay _ day => exact c.owned rfl h (c.setDayNumber day.isLt)
  | defineSlot _ _ _ _ _ _ _ _ => exact c.owned rfl h (c.defineSlot _ _ _ _ _ _ _)
  | releaseSlot _ slot => exact c.owned rfl h fun h => keeps_onDefinedSlot slot h fun i => c.releaseSlot i h
  | readSlot _ slot => exact c.owned rfl h fun h => c.ofStore h (readSlot_frame slot)
  | loadPlan _ _ _ _ _ _ _ _ _ => exact c.owned rfl h fun h => c.ofStore h (loadPlan_frame _ _ _ (by simp))
  | dropPlan _ _ _ _ => exact c.owned rfl h fun h => c.ofStore h (dropPlan_frame _ _ _ (by simp))
  | readPlan _ _ _ _ => exact c.owned rfl h (c.readPlan _ _ _)
  | setGroup _ group plan policy mode tol limit =>
    refine c.owned rfl h fun h => ?_
    unfold setGroup
    split
    · exact c.regroup _ _ h
    · exact h
  | readGroup _ _ _ => exact c.owned rfl h fun h => c.ofStore h (readGroup_frame _ _)
  | setCalendar _ _ _ _ => exact c.owned rfl h (c.setCalendar _ _ _)
  | addBase _ _ _ _ _ _ => exact c.owned rfl h (c.addBase _ _ _ _ _)
  | addEvent _ _ _ _ _ _ _ _ _ => exact c.owned rfl h (c.addEvent _ _ _ _ _ _ _ _)
  | cutEntry _ _ _ => exact c.owned rfl h (c.cutEntry _ _)
  | readTimetable _ _ _ => exact c.owned rfl h fun h => c.ofStore h (readTimetable_frame _ _)
  | setCue _ _ _ _ _ _ => exact c.owned rfl h (c.setCue _ _ _ _ _)
  | cutCue _ _ _ => exact c.owned rfl h (c.cutCue _ _)
  | directPlan _ _ _ _ => exact c.owned rfl h (c.directPlan _ _ _)
  | endDirect _ _ => exact c.owned rfl h (c.endDirect _)
  | setPort _ _ _ _ => exact c.owned rfl h (c.setPortRequest _ _ _)
  | readPort _ port =>
    refine c.owned rfl h fun h => ?_
    unfold readPort
    split
    · exact h
    · exact c.freeReads _ _ h
  | setHoldMap _ line map =>
    refine c.owned rfl h fun h => ?_
    unfold Machine.setHoldMap
    split
    · exact h
    · exact c.setHoldMap _ _ h
  | clearOverride _ slot =>
    refine c.owned rfl h fun h => keeps_onDefinedSlot slot h fun i => ?_
    split
    · exact h
    · exact c.slots _ _ h
  | readStation _ _ => exact c.owned rfl h (c.readStation _)
  | restartWarm src pins =>
    show Q (match encodeRequest (.restartWarm src pins) with
      | none => t
      | some r => if !t.carries r then t else if r.src.broadcast then t.restartNow .warm none pins else t.acceptRestart .warm r)
    split
    · exact h
    · exact keeps_ite h (fun _ h => h) fun _ h => keeps_ite h (fun _ h => c.restartNow _ _ _ h) fun _ h => c.acceptRestart _ _ h
  | restartCold src =>
    show Q (match encodeRequest (.restartCold src) with
      | none => t
      | some r => if !t.carries r then t else if discarded r then t.engineDone else t.acceptRestart .cold r)
    split
    · exact h
    · exact keeps_ite h (fun _ h => h) fun _ h => keeps_ite h (fun _ h => c.engineDone h) fun _ h => c.acceptRestart _ _ h
  | setRecording _ filter reload choice =>
    refine c.owned rfl h fun h => ?_
    unfold setRecording
    split
    · exact h
    · dsimp only
      exact c.mirrorFilter _ (c.records _ _ h (RecordUnit.sound_recording _ _ (Nat.le_of_lt_succ reload.isLt)))
  | readRecords _ maximum =>
    refine c.owned rfl h fun h => ?_
    unfold readRecords
    split
    · exact h
    · exact c.records _ _ h (RecordUnit.sound_dropRing _)
  | readNotices _ => exact c.owned rfl h fun h => c.records _ _ h RecordUnit.sound_clearNotices
  | setNoticeMask _ mask => exact c.owned rfl h fun h => c.records _ _ h (RecordUnit.sound_setMask mask)
  | checksumPlans _ _ _ _ => exact c.owned rfl h (c.checksumPlans _ _ _)
  | testLocation _ _ => exact c.owned rfl h fun h => c.ofStore h (testLocation_frame _ (by simp) (by simp))
  | forceCheck _ _ _ _ _ => exact c.owned rfl h fun h => c.ofStore h (forceCheck_frame _ _ _ _ (by simp))
  | scrubControl _ _ => exact c.owned rfl h fun h => c.ofStore h (scrubControl_frame _ (by simp))
  | readLogout _ => exact c.owned rfl h id
  | exchangeStart p =>
    exact keeps_unlessReset h fun h => keeps_ite h
      (fun _ h => c.port h fun law => Port.sound_startIfReady (Port.sound_congr (q := t.port p) ⟨rfl, rfl, rfl, rfl, rfl⟩ law))
      fun _ h => h
  | fieldTransmitEnd p line => exact keeps_unlessReset h fun h => c.port h (Port.sound_transmitEnd line)
  | status p d x pl n o ms line =>
    refine keeps_unlessReset (u := match statusFields d x pl n o with
      | some f => t.takeStatus p f ms line
      | none => t.takeBadFrame p ms line) h fun h => ?_
    split
    · exact c.takeStatus p _ ms line h
    · exact c.takeBadFrame p ms line h
  | badFrame p bytes ms line => exact keeps_unlessReset h (c.fieldReceptions p ms line _)
  | responseWindowExpiry p line => exact keeps_unlessReset h (c.expireWindow p line)
  | lineBlocked p => exact keeps_unlessReset h (c.blockLine p)
  | lineFreed p =>
    exact keeps_unlessReset h fun h => keeps_ite h (fun blocked h => c.port h fun law => Port.sound_unblock law blocked) fun _ h => h
  | holdActivationEdge l =>
    exact keeps_unlessReset h fun h => keeps_ite h (fun _ h => c.engine.deliver (c.activationEdge l h)) fun _ h => h
  | holdReleaseEdge l => exact keeps_unlessReset h fun h => keeps_ite h (fun _ h => c.releaseEdge l h) fun _ h => h
  | countDownZero => exact keeps_unlessReset h fun h => c.records _ _ h RecordUnit.sound_zero
  | resetAssert => exact c.resetAsserted _ _ (c.coldBlocks h)
  | resetRelease straps pins => exact keeps_ite h (fun _ h => c.release straps pins h) fun _ h => h

theorem LawClosed.step (c : LawClosed Q) {u : State} (h : Q t) (hs : step t = .next u) : Q u :=
  step_keeps (fun _ _ h => c.pending _ _ h) (fun i _ h => c.after i h) h hs

end

/-! ### The obligations -/

theorem lawClosed_time : LawClosed fun t => t.time.inRange where
  pending _ _ h := h
  resetAsserted _ _ h := h
  slots _ _ h := h
  holds _ _ h := h
  groups _ _ h := h
  members _ _ h := h
  store _ _ h := h
  logOut _ _ h := h
  freeReads _ _ h := h
  time _ _ h law := law h
  tables _ _ h _ := h
  ports _ _ h _ := h
  trunk _ _ h _ := h
  mgmt _ _ h _ := h
  records _ _ h _ := h

theorem lawClosed_queues : LawClosed fun t => t.trunk.bounded ∧ t.mgmt.queue.length ≤ 4 where
  pending _ _ h := h
  resetAsserted _ _ h := h
  slots _ _ h := h
  holds _ _ h := h
  groups _ _ h := h
  members _ _ h := h
  store _ _ h := h
  logOut _ _ h := h
  freeReads _ _ h := h
  time _ _ h _ := h
  tables _ _ h _ := h
  ports _ _ h _ := h
  trunk _ _ h law := ⟨law h.1, h.2⟩
  mgmt _ _ h law := ⟨h.1, law.1 h.2⟩
  records _ _ h _ := h

theorem lawClosed_engine : LawClosed fun t => t.mgmt.settled where
  pending _ _ h := h
  resetAsserted _ _ h := h
  slots _ _ h := h
  holds _ _ h := h
  groups _ _ h := h
  members _ _ h := h
  store _ _ h := h
  logOut _ _ h := h
  freeReads _ _ h := h
  time _ _ h _ := h
  tables _ _ h _ := h
  ports _ _ h _ := h
  trunk _ _ h _ := h
  mgmt _ _ h law := law.2 h
  records _ _ h _ := h

theorem lawClosed_records : LawClosed fun t => t.records.sound where
  pending _ _ h := h
  resetAsserted _ _ h := h
  slots _ _ h := h
  holds _ _ h := h
  groups _ _ h := h
  members _ _ h := h
  store _ _ h := h
  logOut _ _ h := h
  freeReads _ _ h := h
  time _ _ h _ := h
  tables _ _ h _ := h
  ports _ _ h _ := h
  trunk _ _ h _ := h
  mgmt _ _ h _ := h
  records _ _ h law := law h

theorem lawClosed_tables : LawClosed fun t => t.tables.lawful where
  pending _ _ h := h
  resetAsserted _ _ h := h
  slots _ _ h := h
  holds _ _ h := h
  groups _ _ h := h
  members _ _ h := h
  store _ _ h := h
  logOut _ _ h := h
  freeReads _ _ h := h
  time _ _ h _ := h
  tables _ _ h law := law h
  ports _ _ h _ := h
  trunk _ _ h _ := h
  mgmt _ _ h _ := h
  records _ _ h _ := h

theorem lawClosed_ports : LawClosed fun t => ∀ p, (t.port p).sound where
  pending _ _ h := h
  resetAsserted _ _ h := h
  slots _ _ h := h
  holds _ _ h := h
  groups _ _ h := h
  members _ _ h := h
  store _ _ h := h
  logOut _ _ h := h
  freeReads _ _ h := h
  time _ _ h _ := h
  tables _ _ h _ := h
  ports _ _ h law := law h
  trunk _ _ h _ := h
  mgmt _ _ h _ := h
  records _ _ h _ := h

/-- Settles O54: each of the four ranges outlives every update that keeps it. -/
theorem rangesKept : Obligations.RangesKept := fun _ _ hs =>
  ⟨fun h => lawClosed_time.step h hs,
    fun ⟨a, b, queue⟩ => let ⟨⟨a', b'⟩, queue'⟩ := lawClosed_queues.step ⟨⟨a, b⟩, queue⟩ hs; ⟨a', b', queue'⟩,
    fun h => lawClosed_engine.step h hs, fun h => lawClosed_records.step h hs⟩

/-- Settles O55: the law of the collections outlives every update that keeps it. -/
theorem tablesKept : Obligations.TablesKept := fun _ _ ordered clash hs => lawClosed_tables.step ⟨ordered, clash⟩ hs

/-- Settles O59: the soundness of the ports outlives every update that keeps it. -/
theorem portsStaySound : Obligations.PortsStaySound := fun _ _ h hs => lawClosed_ports.step h hs

end Sys2Proof.Machine
end

section
/-! PROOFS. Requests that are carried out now, and the statements of tier 1: the step, the RESET line, and the reading of the time base, the
slots, the scrubber and the log-out record (O1, O2, O3, O9, O26, O60). -/

namespace Sys2Proof.Machine

variable {s t u : State} {i : Instr} {r : Request} {o : State → Answer} {bs : List Block}

/-! ### Requests carried out now -/

theorem State.readyFor.any (ready : s.readyFor i r) : s.readyForAny i r :=
  ⟨ready.1, ready.2.1, fun _ => ready.2.2.2⟩

theorem State.readyFor.kept (ready : s.readyFor i r) : discarded r = false := by simp [discarded, ready.2.2.1]

/-- A request carried out now, addressed or broadcast, with no reply held: it is answered as its owner says, and nothing but the trunk
interface and the engine differs from the state that the owner left. -/
theorem carryOut_any (ready : s.readyForAny i r) (kept : discarded r = false) (ht : (o s).state.trunk = s.trunk)
    (hm : (o s).state.mgmt = s.mgmt) :
    s.answered (carryOut i o s) r (o s).outcome (o s).fields ∧ (o s).state.changesOnly (carryOut i o s) [.trunk, .mgmt] := by
  obtain ⟨he, hc, room⟩ := ready
  cases hb : r.src.broadcast with
  | false => exact carryOut_ready ⟨he, hc, hb, room hb⟩ o ht hm
  | true =>
    have e : carryOut i o s = (o s).state.engineDone := by simp [carryOut, he, hc, kept, State.placeReply, hb]
    rw [e]
    exact ⟨⟨by simp [State.engineDone, ht, hb], by simp [State.engineDone, hm]⟩, engineDone_frame (by simp) changesOnly_refl⟩

/-- A request carried out now whose owner leaves state `u` and answers with an outcome and fields. -/
theorem answered_any (ready : s.readyForAny i r) (kept : discarded r = false) {out : RequestOutcome} {fields : List Byte}
    (e : o s = ⟨u, out, fields⟩) (frame : s.changesOnly u bs) (ht : Block.trunk ∉ bs) (hm : Block.mgmt ∉ bs) :
    s.answered (carryOut i o s) r out fields ∧ u.changesOnly (carryOut i o s) [.trunk, .mgmt] ∧
      s.changesOnly (carryOut i o s) (.trunk :: .mgmt :: bs) := by
  obtain ⟨answered, left⟩ := carryOut_any (o := o) ready kept (by rw [e]; exact frame.2.2 .trunk ht) (by rw [e]; exact frame.2.2 .mgmt hm)
  rw [e] at answered left
  exact ⟨answered, left, changesOnly_trans (changesOnly_mono frame (by simp)) (changesOnly_mono left (by simp))⟩

theorem answered_of (ready : s.readyFor i r) {out : RequestOutcome} {fields : List Byte}
    (e : o s = ⟨u, out, fields⟩) (frame : s.changesOnly u bs) (ht : Block.trunk ∉ bs) (hm : Block.mgmt ∉ bs) :
    s.answered (carryOut i o s) r out fields ∧ u.changesOnly (carryOut i o s) [.trunk, .mgmt] ∧
      s.changesOnly (carryOut i o s) (.trunk :: .mgmt :: bs) :=
  answered_any ready.any ready.kept e frame ht hm

/-- A request that its owner only reads for. -/
theorem answered_of_read (ready : s.readyFor i r) {out : RequestOutcome} {fields : List Byte} (e : o s = ⟨s, out, fields⟩) :
    s.answered (carryOut i o s) r out fields ∧ s.changesOnly (carryOut i o s) [.trunk, .mgmt] :=
  have h := answered_of (bs := []) ready e changesOnly_refl (by simp) (by simp)
  ⟨h.1, h.2.2⟩

theorem index?_of_le {n v : Nat} (h : n ≤ v) : index? n v = none := dif_neg (Nat.not_lt.mpr h)

theorem index?_val {n v : Nat} {k : Fin n} (h : v = k.val) : index? n v = some k := by
  subst h
  exact dif_pos k.isLt

/-! ### The RESET line -/

/-- R163: no command but the two of the RESET line does anything while it is asserted. -/
theorem exec_of_resetAsserted (asserted : s.resetAsserted = true) (c : Instr) (h1 : c ≠ .resetAssert)
    (h2 : ∀ straps pins, c ≠ .resetRelease straps pins) : exec c s = .next s := by
  cases ho : ownerOf c with
  | some o => rw [exec_of_owner ho, carryOut_waits o fun r _ => carries_reset asserted r]
  | none =>
    cases c with
    | resetAssert => exact absurd rfl h1
    | resetRelease straps pins => exact absurd rfl (h2 straps pins)
    | unknownRequestCode src code params =>
      have unnamed : ¬namesNoRow code params = true := by simpa [ownerOf] using ho
      exact congrArg Host.Outcome.next (if_neg unnamed)
    | restartWarm src pins =>
      refine congrArg Host.Outcome.next ?_
      split
      · rfl
      · simp [carries_reset asserted]
    | restartCold src =>
      refine congrArg Host.Outcome.next ?_
      split
      · rfl
      · simp [carries_reset asserted]
    | _ => cases ho <;> exact congrArg Host.Outcome.next (if_pos asserted)

theorem sampleHold_of_empty (pins : PinSample) (l : Fin 4) (empty : (s.hold l).map = 0#64) :
    (s.sampleHold pins l).deliver = s.setHold l { level := pins.holds.get l, map := 0#64 } := by
  have unmapped : (List.finRange 64).filter (slotIn 0#64) = [] := List.filter_eq_nil_iff.mpr fun j _ => by simp [slotIn]
  unfold State.sampleHold
  split <;> rename_i level
  · simp [State.activationEdge, unmapped, overSlots, Sent.deliver, State.takeMembers, empty, level]
  · simp [Sent.deliver, State.takeMembers, empty, level]

/-- R148: with empty maps a sampling takes the four levels, and nothing else happens. -/
theorem sampleHolds_of_empty (pins : PinSample) (empty : ∀ l, (s.hold l).map = 0#64) :
    (∀ l, (s.sampleHolds pins).hold l = { level := pins.holds.get l, map := 0#64 }) ∧ s.changesOnly (s.sampleHolds pins) [.holds] := by
  have sampled : s.sampleHolds pins =
      (List.finRange 4).foldl (fun s l => s.setHold l { level := pins.holds.get l, map := 0#64 }) s := by
    have along : ∀ (ls : List (Fin 4)) (u : State), (∀ l, (u.hold l).map = 0#64) →
        ls.foldl (fun s l => (s.sampleHold pins l).deliver) u =
          ls.foldl (fun s l => s.setHold l { level := pins.holds.get l, map := 0#64 }) u := by
      intro ls
      induction ls with
      | nil => exact fun _ _ => rfl
      | cons l ls ih =>
        intro u hu
        rw [List.foldl_cons, List.foldl_cons, sampleHold_of_empty pins l (hu l)]
        refine ih _ fun k => ?_
        by_cases h : l = k
        · subst h; simp
        · simp [State.setHold_hold_ne, h, hu k]
    exact along _ s empty
  rw [sampled]
  refine ⟨fun l => ?_, changesOnly_foldl _ (fun _ l ht => changesOnly_setHold l _ (by simp) ht) _ _ changesOnly_refl⟩
  fin_cases l <;> simp [List.finRange, State.setHold_hold_ne]

/-- What a release of the RESET line does before it samples the hold lines (R153, R133). -/
def State.lineSampled (s : State) (straps : Byte) (pins : PinSample) : State :=
  { (s.setResetAsserted false).setTrunk { s.trunk with strap := straps } with
    ports := Vector.ofFn fun p => { s.port p with line := pins.lines.get p } }

theorem release_eq (straps : Byte) (pins : PinSample) : s.release straps pins = (s.lineSampled straps pins).sampleHolds pins := rfl

theorem changesOnly_lineSampled (straps : Byte) (pins : PinSample) :
    (s.setResetAsserted false).changesOnly (s.lineSampled straps pins) [.trunk, .ports, .holds] := by
  refine ⟨rfl, rfl, fun b hb => ?_⟩
  cases b with
  | trunk => exact absurd (by simp) hb
  | ports => exact absurd (by simp) hb
  | _ => rfl

/-! ### What the replies list -/

/-- R55: the force-off points are the sums of the first splits. -/
theorem forceOffPoints_eq (splits : List Nat) :
    forceOffPoints splits = (List.range splits.length).map fun j => (splits.take (j + 1)).sum := by
  have from_ : ∀ (xs : List Nat) (acc : Nat),
      runningSums acc xs = (List.range xs.length).map fun j => acc + (xs.take (j + 1)).sum := by
    intro xs
    induction xs with
    | nil => exact fun _ => rfl
    | cons x xs ih =>
      intro acc
      rw [runningSums, ih, List.length_cons, List.range_succ_eq_map]
      simp [Function.comp_def, Nat.add_assoc]
  simpa [forceOffPoints] using from_ splits 0

theorem optField_eq {α : Type} (width : Nat) (enc : α → List Byte) (v : Option α) :
    optField width enc v = v.elim (0#8 :: List.replicate width 0#8) fun x => 1#8 :: enc x := by cases v <;> rfl

theorem flags_toNat (a b c : Bool) : bitsNum [a, b, c] = a.toNat + 2 * b.toNat + 4 * c.toNat := by
  simp only [bitsNum]
  omega

theorem Transition.fields_eq (y : Transition) : y.fields =
    num1 (match y.dir with | .shorten => 1 | .lengthen => 2 | .immediate => 3) ++ num1 (causeCode y.cause) ++ num1 y.fromPlan ++
      num2 y.start.day ++ num4 y.start.nt ++ num1 y.used ++ num2 y.total ++
      num1 (y.forced.toNat + 2 * y.lateSeen.toNat + 4 * y.missSeen.toNat) := by
  simp only [Transition.fields, Stamp.fields, transitionFlags, flags_toNat, List.append_assoc]
  cases y.dir <;> rfl

/-! ### The obligations -/

/-- Settles O1: by the two cases of the queue. -/
theorem stepTakesFront : Obligations.StepTakesFront := by
  refine ⟨fun s c rest h => ?_, fun s h => ?_⟩ <;> unfold step <;> rw [h]

/-- Settles O2: the cold blocks are the values after reset. -/
theorem resetAssertValues : Obligations.ResetAssertValues := by
  intro s
  refine ⟨s.coldBlocks.setResetAsserted true, rfl, rfl, ?_, rfl, rfl, fun p => by simp [State.coldBlocks, State.port, Port.cold], fun l => ?_⟩
  · refine ⟨rfl, fun i => ?_, rfl, rfl, rfl, fun g => ?_, fun i => ?_, rfl, rfl, rfl, rfl, fun g => ?_, fun p => ?_, rfl, rfl, rfl, rfl, fun l => ?_,
      rfl, rfl⟩
    · simp [State.coldBlocks, State.slot, Slot.unused]
    · simp [State.coldBlocks, State.group, Group.cold]
    · simp [State.coldBlocks, State.member]
    · simp [State.coldBlocks, Timetable.cold]
    · simp [State.coldBlocks, State.port, Port.cold]
    · simp [State.coldBlocks, State.hold]
  · simp [State.coldBlocks, State.hold]

/-- Settles O3: every event's command asks for the line, no request is carried out, and a sampling with empty maps takes the levels. -/
theorem resetLineStopsAndSamples : Obligations.ResetLineStopsAndSamples := by
  refine ⟨fun c s h h1 h2 => exec_of_resetAsserted h c h1 h2, fun s straps pins asserted empty => ?_, fun s straps pins released => ?_⟩
  · have taken : exec (.resetRelease straps pins) s = .next (s.release straps pins) := congrArg Host.Outcome.next (if_pos asserted)
    obtain ⟨levels, frame⟩ := sampleHolds_of_empty pins (s := s.lineSampled straps pins) empty
    rw [← release_eq] at levels frame
    refine ⟨_, taken, frame.2.1, frame.2.2 .trunk (by decide), fun p => ?_, levels, ?_⟩
    · have same : (s.release straps pins).ports = (s.lineSampled straps pins).ports := frame.2.2 .ports (by decide)
      simp [State.port, same, State.lineSampled]
    · exact changesOnly_trans (changesOnly_lineSampled straps pins) (changesOnly_mono frame (by simp))
  · exact congrArg Host.Outcome.next (if_neg (by simp [released]))

/-- Settles O9: the replies are the fields that the two rows list. -/
theorem timeAndSlotsAreRead : Obligations.TimeAndSlotsAreRead := by
  refine ⟨fun s src r ready => ?_, fun s src slot r ready => ?_⟩
  · obtain ⟨answered, frame⟩ := answered_of_read (o := fun s => { state := s, outcome := .done, fields := s.time.readFields }) ready rfl
    refine ⟨_, exec_of_owner rfl s, frame, ?_⟩
    cases h : s.time.lastDiff <;> simpa [TimeBase.readFields, optField, h] using answered
  · refine ⟨_, exec_of_owner rfl s, ?_, fun large => ?_, fun i hi => ?_⟩
    · exact changesOnly_mono (carryOut_frame (bs := []) _ (readSlot_frame slot)) (by simp)
    · exact carryOut_refuse ready _ _ (by rw [readSlot, index?_of_le large])
    · have read : readSlot slot s = ⟨s, .done, (s.slot i).readFields⟩ := by rw [readSlot, index?_val hi]
      obtain ⟨answered, -⟩ := answered_of_read ready read
      refine ⟨fun unused => ?_, fun used => ?_⟩
      · simpa [Slot.readFields, unused, slotStateCode, num1] using answered
      · rw [Slot.readFields, if_neg used] at answered
        refine Eq.subst (motive := fun f => s.answered _ r .done f) ?_ answered
        simp only [list2, forceOffPoints_eq, flag1, List.length_map, List.length_range, optField_eq, Transition.fields_eq]
        simp only [List.append_assoc]
        repeat' refine congrArg₂ (· ++ ·) ?_ ?_
        any_goals with_reducible rfl
        · cases (s.slot i).targetCause <;> rfl
        · cases (s.slot i).targetMode <;> rfl
        · cases (s.slot i).run <;> rfl
        · cases (s.slot i).run <;> rfl
        · cases (s.slot i).pendingEval <;> rfl
        · cases (s.slot i).trans <;> rfl

/-- Settles O26: by the two codes of SCRUB CONTROL, and by whether a test has failed since the log-out record was cleared. -/
theorem scrubControlAndLogout : Obligations.ScrubControlAndLogout := by
  refine ⟨fun s src code r ready => ⟨_, exec_of_owner rfl s, fun large => ?_, fun known => ?_⟩,
    fun s src r ready => ⟨_, exec_of_owner rfl s, (answered_of_read (o := readLogout) ready rfl).2, fun none => ?_, fun x some => ?_⟩⟩
  · refine carryOut_refuse ready _ _ ?_
    unfold scrubControl
    split
    · omega
    · omega
    · rfl
  · have set : scrubControl code s = scrubSet (decide (code = 0#8)) s := by
      obtain rfl | rfl : code = 0#8 ∨ code = 1#8 := by bv_omega
      · rfl
      · rfl
    obtain ⟨answered, left, frame⟩ := answered_of (bs := [.store]) ready set (changesOnly_setStore _ (by simp) changesOnly_refl)
      (by simp) (by simp)
    refine ⟨left.2.2 .store (by decide), changesOnly_mono frame (by simp), ?_⟩
    obtain rfl | rfl : code = 0#8 ∨ code = 1#8 := by bv_omega
    · simpa [PlanStore.scrubFields, PlanStore.scrubByte, num1] using answered
    · simpa [PlanStore.scrubFields, PlanStore.scrubByte, num1] using answered
  · obtain ⟨answered, -⟩ := answered_of_read (o := readLogout) ready rfl
    simpa [optField, none] using answered
  · obtain ⟨answered, -⟩ := answered_of_read (o := readLogout) ready rfl
    simpa [optField, some, LogOut.fields, Stamp.fields] using answered

/-- Settles O60: every block right after reset holds its cold value, which meets each property. -/
theorem resetHasWhatStepsKeep : Obligations.ResetHasWhatStepsKeep := by
  have slots : ∀ i, State.reset.slot i = .unused := fun i => by simp [State.reset, State.slot]
  have ports : ∀ p, State.reset.port p = .cold := fun p => by simp [State.reset, State.port]
  have members : ∀ i, State.reset.member i = none := fun i => by simp [State.reset, State.member]
  have groups : ∀ g, State.reset.group g = .cold := fun g => by simp [State.reset, State.group]
  have empty : State.reset.store.held = [] := rfl
  refine ⟨TimeBase.inRange_cold, by simp [State.queuesBounded, State.reset, Trunk.cold, Management.cold],
    fun _ _ => rfl, RecordUnit.sound_cold, Timetable.lawful_cold.1,
    Timetable.lawful_cold.2, fun i => ?_, rfl, ?_, ?_, fun i => ?_, fun g => ?_, fun p => ?_⟩
  · rw [slots i]
    simp [Slot.shaped, Slot.unused]
  · simp [PlanStore.keyed, empty]
  · simp [State.storeOwned, empty]
  · rw [slots i, members i]; rfl
  · have settled : State.reset.allSettled g = true := by simp [State.allSettled, State.membersOf, members]
    simp [groups g, State.decision, settled, Group.cold]
  · rw [ports p]
    exact Port.sound_cold _

end Sys2Proof.Machine
end

section
/-! PROOFS. What each operation of the slot engine leaves at its slot, and the shape of a slot context in its state (O56). -/

namespace Sys2Proof.Machine

variable {s t u : State} {i j : Fin 64} {x : Slot}

/-! ### Other slots stand -/

theorem slotClosed_other (h : j ≠ i) : SlotClosed i fun t => t.slot j = x where
  slot t y ht _ := by rw [State.setSlot_slot_ne _ _ _ _ (Ne.symm h)]; exact ht
  read _ _ ht _ _ := ht
  promote _ _ ht := ht
  removeEntry _ ht := ht
  handOver _ _ ht := ht
  raise _ _ _ ht := ht
  record _ _ ht _ := ht

/-! ### The slot after an operation -/

@[simp] theorem raise_slot (s : State) (k : Notice) (j : Fin 64) : (s.raise k).slot j = s.slot j := rfl

@[simp] theorem takeRecord_slot (s : State) (r : TransitionRecord) (j : Fin 64) : (s.takeRecord r).slot j = s.slot j := rfl

theorem endTransition_slot (s : State) (i : Fin 64) (o : RecordOutcome) :
    (s.endTransition i o).slot i = { s.slot i with trans := none } := by
  unfold State.endTransition
  split
  next h => rw [← h]
  next r h => simp

theorem enterLost_slot (s : State) (i : Fin 64) :
    (s.enterLost i).1.slot i = { s.slot i with trans := none, state := .lost } := by
  simp [State.enterLost, endTransition_slot]

/-- R50: the slot of an open transition runs one more cycle. -/
theorem transitionCycle_slot (s : State) (i : Fin 64) (pl : Plan) (p e : Nat) (r : Transition) (d : Direction) :
    (s.transitionCycle i pl p e r d).slot i = { s.slot i with
      state := .transition, trans := some (r.withCycle d (cycleAmount pl e d).2), run := some (correctedRun pl p e d) } := by
  simp [State.transitionCycle]

/-- R52: the next cycle of a slot that runs is a plan cycle. -/
theorem planCycle_of_runs {pl : Plan} {r : CycleRun} (hc : (s.slot i).copy = some pl) (hr : (s.slot i).run = some r) :
    s.planCycle i = s.setSlot i { s.slot i with run := some (planRun pl r.p) } := by
  simp [State.planCycle, hc, hr]

/-- A plan cycle touches the run of the slot alone, and gives none to a slot without one. -/
theorem planCycle_slot (s : State) (i : Fin 64) :
    ∃ v, v.isSome = (s.slot i).run.isSome ∧ (s.planCycle i).slot i = { s.slot i with run := v } := by
  unfold State.planCycle
  dsimp only
  split
  next pl r hc hr => exact ⟨some (planRun pl r.p), by simp [hr], by simp⟩
  next => exact ⟨_, rfl, rfl⟩

/-- R30: a slot takes the plan that a positioning attempt found. -/
def State.place (s : State) (i : Fin 64) (pl : Plan) : State :=
  (s.readRecord i (s.slot i).target).1.setSlot i { s.slot i with
    copy := some pl, current := (s.slot i).target, run := some (planRun pl (planError s.time.ref 0 pl)), count := 0, firstCycle := true }

theorem place_slot (s : State) (i : Fin 64) (pl : Plan) : (s.place i pl).slot i = { s.slot i with
    copy := some pl, current := (s.slot i).target, run := some (planRun pl (planError s.time.ref 0 pl)), count := 0, firstCycle := true } := by
  simp [State.place]

/-- R30: a slot that a positioning attempt reads the store for. -/
def State.seeks (s : State) (i : Fin 64) : Prop :=
  (s.slot i).state = .joining ∧ (s.slot i).running = false ∧ s.time.isSet = true ∧ (s.slot i).target ≠ 0

/-- R30, R141: all that a positioning attempt can do: nothing, a read in vain, or the slot placed, and OVERRIDDEN with a cause held. -/
theorem positionAttempt_cases (s : State) (i : Fin 64) :
    (¬s.seeks i ∧ s.positionAttempt i = (s, [])) ∨
    (s.seeks i ∧ (∀ pl, (s.readRecord i (s.slot i).target).2 ≠ .sound pl) ∧
      s.positionAttempt i = ((s.readRecord i (s.slot i).target).1, [])) ∨
    (s.seeks i ∧ ∃ pl, (s.readRecord i (s.slot i).target).2 = .sound pl ∧ (s.slot i).causes = 0#5 ∧
      s.positionAttempt i = (s.place i pl, [memberEvent i .joining (s.slot i).target])) ∨
    (s.seeks i ∧ ∃ pl, (s.readRecord i (s.slot i).target).2 = .sound pl ∧ (s.slot i).causes ≠ 0#5 ∧
      s.positionAttempt i = Sent.andThen (s.place i pl, [memberEvent i .joining (s.slot i).target]) fun s => s.enterOverridden i) := by
  by_cases h : s.seeks i
  · have h' : (s.slot i).state = .joining ∧ !(s.slot i).running ∧ s.time.isSet ∧ (s.slot i).target ≠ 0 := by simpa [State.seeks] using h
    unfold State.positionAttempt
    simp only [if_pos h']
    split
    next s1 pl e =>
      have first : (s.readRecord i (s.slot i).target).1 = s1 := by rw [e]
      have placed : s1.setSlot i { s.slot i with
          copy := some pl, current := (s.slot i).target, run := some (planRun pl (planError s.time.ref 0 pl)), count := 0,
          firstCycle := true } = s.place i pl := by rw [State.place, first]
      rw [placed]
      by_cases hc : (s.slot i).causes = 0#5
      · exact .inr (.inr (.inl ⟨h, pl, by rw [e], hc, if_pos hc⟩))
      · exact .inr (.inr (.inr ⟨h, pl, by rw [e], hc, if_neg hc⟩))
    next s1 found vain e =>
      exact .inr (.inl ⟨h, fun pl hp => vain pl (by rw [e] at hp; exact hp), by rw [e]⟩)
  · exact .inl ⟨h, if_neg (by simpa [State.seeks] using h)⟩

/-- R32: the slot counts misses in a row. -/
def Slot.countsRuns (x : Slot) : Prop := x.state = .coordinated ∨ x.state = .transition

/-- R28, R32: a slot that counts misses in a row, after one. -/
def Slot.takeMiss (x : Slot) (k : MissKind) : Slot :=
  { x.countMiss k with missRun := min 3 (x.missRun + 1), trans := x.trans.map (·.afterMiss k) }

theorem miss_cases (s : State) (i : Fin 64) (k : MissKind) :
    (¬(s.slot i).countsRuns ∧ s.miss i k = (s.setSlot i ((s.slot i).countMiss k), [])) ∨
    ((s.slot i).countsRuns ∧ (s.slot i).missRun < 2 ∧ s.miss i k = (s.setSlot i ((s.slot i).takeMiss k), [])) ∨
    ((s.slot i).countsRuns ∧ 2 ≤ (s.slot i).missRun ∧ s.miss i k = (s.setSlot i ((s.slot i).takeMiss k)).enterLost i) := by
  have state := Slot.countMiss_state (s.slot i) k
  have runs : ((s.slot i).countMiss k).missRun = (s.slot i).missRun := by cases k <;> rfl
  have trans : ((s.slot i).countMiss k).trans = (s.slot i).trans := by cases k <;> rfl
  have taken : { (s.slot i).countMiss k with
      missRun := min Config.runOfThree (((s.slot i).countMiss k).missRun + 1)
      trans := ((s.slot i).countMiss k).trans.map fun t => { t with missSeen := true, lateSeen := t.lateSeen || k == .lateSync } } =
      (s.slot i).takeMiss k := by
    rw [runs, trans]
    rfl
  unfold State.miss
  dsimp only
  rw [taken, state, runs]
  by_cases h : (s.slot i).countsRuns <;> unfold Slot.countsRuns at h ⊢
  · rw [if_pos h]
    by_cases third : 2 ≤ (s.slot i).missRun
    · exact .inr (.inr ⟨h, third, if_pos (Nat.min_eq_left (by simp only [Config.runOfThree]; omega))⟩)
    · exact .inr (.inl ⟨h, Nat.lt_of_not_le third, if_neg (by simp only [Config.runOfThree]; omega)⟩)
  · exact .inl ⟨h, if_neg h⟩

/-! ### Shapes -/

/-- What Table 2-1 asks of a slot context in its state, but for the values of an UNUSED one. -/
def Slot.fits (x : Slot) : Prop :=
  (x.trans.isSome ↔ x.state = .transition) ∧ (x.run.isSome ↔ x.copy.isSome) ∧ (x.run.isSome ↔ x.current ≠ 0) ∧
    (x.run = none → x.state = .unused ∨ x.state = .joining) ∧
    (x.causes ≠ 0#5 → x.state ≠ .overridden → x.state = .joining ∧ x.run = none) ∧
    (x.latch = true → x.state = .overridden ∧ x.mode = .latched)

theorem Slot.shaped_iff_fits (x : Slot) : x.shaped ↔ (x.state = .unused → x = .unused) ∧ x.fits := Iff.rfl

theorem Slot.shaped_of_defined (h : x.state ≠ .unused) : x.shaped ↔ x.fits :=
  ⟨fun hx => hx.2, fun hx => ⟨fun hu => absurd hu h, hx⟩⟩

theorem Slot.fits.positioned (h : x.fits) (defined : x.state ≠ .unused) (placed : x.state = .joining → x.running = true) :
    x.run.isSome := by
  obtain ⟨-, -, -, waits, -⟩ := h
  exact Option.isSome_iff_ne_none.mpr fun none => (waits none).elim defined fun joins => by
    simpa [Slot.running, none] using placed joins

theorem Slot.shaped_unused : Slot.unused.shaped := by simp [Slot.shaped, Slot.unused]

theorem causeLeave_of_empty (c : OverrideCause) : causeLeave 0#5 c = 0#5 := by simp [causeLeave]

/-- R141: an entry fits for a slot that has a position, whatever its causes. -/
theorem fits_enterOverridden (copy : (s.slot i).run.isSome ↔ (s.slot i).copy.isSome)
    (current : (s.slot i).run.isSome ↔ (s.slot i).current ≠ 0) (positioned : (s.slot i).run.isSome)
    (latch : (s.slot i).latch = true → (s.slot i).mode = .latched) : ((s.enterOverridden i).1.slot i).fits := by
  rw [(enterOverridden_slot s i).1]
  grind [Slot.fits]

theorem fits_joinCause (h : (s.slot i).fits) (c : OverrideCause) : ((s.joinCause i c).1.slot i).fits := by
  rcases joinCause_cases s i c with ⟨-, e⟩ | ⟨-, -, waits, e⟩ | ⟨defined, -, open_, positioned, e⟩ <;> rw [e]
  · exact h
  · have waits : (s.slot i).state = .overridden ∨ ((s.slot i).state = .joining ∧ (s.slot i).run = none) := by
      simpa [Slot.running] using waits
    simp only [State.setSlot_slot_same]
    grind [Slot.fits]
  · have positioned := h.positioned defined positioned
    refine fits_enterOverridden ?_ ?_ ?_ ?_ <;> simp only [State.setSlot_slot_same] <;> grind [Slot.fits]

theorem fits_leaveCause (h : (s.slot i).fits) (c : OverrideCause) : ((s.leaveCause i c).slot i).fits := by
  simp only [State.leaveCause, State.setSlot_slot_same]
  grind [Slot.fits, causeLeave_of_empty]

theorem fits_positionAttempt (h : (s.slot i).fits) : ((s.positionAttempt i).1.slot i).fits := by
  rcases positionAttempt_cases s i with ⟨-, e⟩ | ⟨-, -, e⟩ | ⟨⟨joins, -, -, named⟩, pl, -, free, e⟩ | ⟨⟨joins, -, -, named⟩, pl, -, -, e⟩ <;> rw [e]
  · exact h
  · simpa [readRecord_slot] using h
  · simp only [place_slot]
    grind [Slot.fits]
  · refine fits_enterOverridden ?_ ?_ ?_ ?_ <;> simp only [place_slot] <;> grind [Slot.fits]

theorem fits_targetEvent (h : (s.slot i).fits) (n : Nat) (k : Option Layer) (m : Option Mode) :
    ((s.targetEvent i n k m).1.slot i).fits := by
  unfold State.targetEvent
  dsimp only
  split
  · exact h
  · exact fits_positionAttempt (by simpa [Slot.fits] using h)

theorem Slot.countMiss_fits (h : x.fits) (k : MissKind) : (x.countMiss k).fits := by cases k <;> exact h

theorem Slot.takeMiss_fits (h : x.fits) (k : MissKind) : (x.takeMiss k).fits := by
  have counted := Slot.countMiss_fits h k
  have trans : (x.countMiss k).trans = x.trans := by cases k <;> rfl
  simpa [Slot.fits, Slot.takeMiss, trans] using counted

theorem fits_miss (h : (s.slot i).fits) (k : MissKind) : ((s.miss i k).1.slot i).fits := by
  have taken := Slot.takeMiss_fits h k
  have state : ((s.slot i).takeMiss k).state = (s.slot i).state := Slot.countMiss_state _ k
  rcases miss_cases s i k with ⟨-, e⟩ | ⟨-, -, e⟩ | ⟨counts, -, e⟩ <;> rw [e]
  · simpa using Slot.countMiss_fits h k
  · simpa using taken
  · simp only [enterLost_slot, State.setSlot_slot_same]
    generalize (s.slot i).takeMiss k = y at taken state
    grind [Slot.fits, Slot.countsRuns]

theorem fits_goodOutcome (h : (s.slot i).fits) (positioned : (s.slot i).run.isSome) : ((s.goodOutcome i).1.slot i).fits := by
  unfold State.goodOutcome
  dsimp only
  split <;> simp only [raise_slot, takeRecord_slot, State.setSlot_slot_same] <;> grind [Slot.fits]

theorem fits_takeOverride (h : (s.slot i).fits) (o : FieldOverride) : ((s.takeOverride i o).1.slot i).fits := by
  have reported : ((s.setSlot i { s.slot i with lastOverride := o }).slot i).fits := by simpa [Slot.fits] using h
  unfold State.takeOverride
  dsimp only
  split
  · exact fits_leaveCause reported _
  · exact fits_joinCause reported _

theorem fits_takeOutcome (h : (s.slot i).fits) (o : ExchangeOutcome) (r : FieldOverride) : ((s.takeOutcome i o r).1.slot i).fits := by
  unfold State.takeOutcome
  dsimp only
  split
  · exact h
  next heard =>
    split
    · have positioned := h.positioned (fun unused => heard (.inl unused)) fun joins => by
        simpa [joins] using heard
      exact fits_takeOverride (fits_goodOutcome h positioned) r
    · exact fits_miss h _
    · exact fits_miss h _
    · exact fits_takeOverride (fits_miss h _) r

/-! ### Shapes at a boundary -/

/-- A slot context in its shape, with a position. -/
def Slot.rides (x : Slot) : Prop := x.fits ∧ x.run.isSome = true

theorem rides_exitStep (h : (s.slot i).rides) : ((s.exitStep i).slot i).rides := by
  unfold State.exitStep
  dsimp only
  split
  next exits =>
    have latch : (s.slot i).latch = false := by
      have held := exits.2
      obtain ⟨⟨-, -, -, -, -, mode⟩, -⟩ := h
      simp only [Slot.mayExit, Bool.and_eq_true, Bool.or_eq_true, beq_iff_eq] at held
      grind
    have causes : (s.slot i).causes = 0#5 := by
      have held := exits.2
      simp only [Slot.mayExit, Bool.and_eq_true, beq_iff_eq] at held
      exact held.1
    simp only [raise_slot, State.setSlot_slot_same]
    split <;> grind [Slot.rides, Slot.fits]
  · exact h

theorem rides_adoptionFailed (h : (s.slot i).rides) (k : Notice) : ((s.adoptionFailed i k).slot i).rides := by
  unfold State.adoptionFailed
  split
  · exact h
  · simpa [Slot.rides, Slot.fits] using h

theorem rides_adoptTarget (h : (s.slot i).rides) : ((s.adoptTarget i).1.slot i).rides := by
  have slot := readRecord_slot s i (s.slot i).target i
  unfold State.adoptTarget
  dsimp only
  split
  next sought =>
    split <;> rename_i e <;> rw [e] at slot
    · simp only [State.setSlot_slot_same]
      grind [Slot.rides, Slot.fits]
    · exact rides_adoptionFailed (by rwa [slot]) _
    · exact rides_adoptionFailed (by rwa [slot]) _
  · exact h

theorem rides_shadowStep (h : (s.slot i).rides) (n : Nat) (a : Option EvalCause) : ((s.shadowStep i n a).1.slot i).rides := by
  unfold State.shadowStep
  dsimp only
  split
  · split
    · exact h
    · have slot := readRecord_slot (s.setStore (s.store.promote i n)) i n i
      split <;> rename_i e <;> rw [e] at slot
      · simp only [State.setSlot_slot_same, slot]
        simp only [State.setStore_slot]
        grind [Slot.rides, Slot.fits]
      · simpa [slot] using h
      · simpa [slot] using h
  · exact h

theorem rides_planCycle (h : (s.slot i).rides) : ((s.planCycle i).slot i).rides := by
  obtain ⟨v, hv, e⟩ := planCycle_slot s i
  rw [e]
  grind [Slot.rides, Slot.fits]

theorem rides_evaluateCause (h : (s.slot i).rides) (hs : (s.slot i).state = .coordinated) (c : EvalCause) :
    ((s.evaluateCause i c).slot i).rides := by
  unfold State.evaluateCause
  dsimp only
  split
  · split
    · refine rides_planCycle ?_
      split <;> exact h
    · simp only [transitionCycle_slot]
      grind [Slot.rides, Slot.fits]
  · exact h

theorem rides_evaluateCoordinated (h : (s.slot i).rides) (hs : (s.slot i).state = .coordinated) (a : Option EvalCause) (b : Bool) :
    ((s.evaluateCoordinated i a b).slot i).rides := by
  have cleared : ((s.setSlot i { s.slot i with pendingEval := none }).slot i).rides := by simpa [Slot.rides, Slot.fits] using h
  unfold State.evaluateCoordinated
  dsimp only
  split
  · exact rides_planCycle cleared
  · exact rides_evaluateCause cleared (by simpa using hs) _

theorem rides_evaluateTransition (h : (s.slot i).rides) (hs : (s.slot i).state = .transition) (a : Option EvalCause) (b : Bool) :
    ((s.evaluateTransition i a b).slot i).rides := by
  have ended : ∀ o, (((s.endTransition i o).setSlot i { (s.endTransition i o).slot i with state := .coordinated }).slot i).rides := by
    intro o
    simp only [State.setSlot_slot_same, endTransition_slot]
    grind [Slot.rides, Slot.fits]
  unfold State.evaluateTransition
  dsimp only
  split
  · exact rides_evaluateCoordinated (ended _) (by simp) _ _
  · split
    · split
      · exact rides_planCycle (ended _)
      · simp only [transitionCycle_slot]
        grind [Slot.rides, Slot.fits]
    · exact h

theorem rides_evaluateJoining (h : (s.slot i).rides) (a : Option EvalCause) (b : Bool) :
    ((s.evaluateJoining i a b).slot i).rides := by
  unfold State.evaluateJoining
  dsimp only
  split
  · split
    · simp only [State.setSlot_slot_same]
      grind [Slot.rides, Slot.fits]
    · exact rides_planCycle h
  · exact h

theorem rides_evaluationStep (h : (s.slot i).rides) (a : Option EvalCause) (b : Bool) :
    ((s.evaluationStep i a b).slot i).rides := by
  unfold State.evaluationStep
  split
  next state => exact rides_evaluateCoordinated h state a b
  next state => exact rides_evaluateTransition h state a b
  next => exact rides_evaluateJoining h a b
  next => exact rides_planCycle (by simpa [Slot.rides, Slot.fits] using h)
  next => exact rides_planCycle h
  next => exact h

theorem rides_stepAndEvaluate (h : (s.slot i).rides) (a : Option EvalCause) : ((s.stepAndEvaluate i a).slot i).rides :=
  rides_evaluationStep (by simpa [Slot.rides, Slot.fits] using h) _ _

theorem rides_adoptionStep (h : (s.slot i).rides) : ((s.adoptionStep i).1.slot i).rides :=
  rides_shadowStep (rides_adoptTarget h) _ _

theorem rides_boundarySteps (h : (s.slot i).rides) (p : Nat) : ((s.boundarySteps i p).slot i).rides := by
  have begun : ((s.setSlot i ((s.slot i).beginCycle p)).slot i).rides := by
    simpa [Slot.rides, Slot.fits, Slot.beginCycle] using h
  exact rides_stepAndEvaluate (rides_adoptionStep (rides_exitStep begun)) _

theorem fits_handOverStep (h : (s.slot i).fits) : ((s.handOverStep i).1.slot i).fits := by
  unfold State.handOverStep
  dsimp only
  split
  · exact h
  · exact fits_miss (s := s.setPort _ _) h _

theorem fits_advanceSlot (h : (s.slot i).fits) (k : Nat) : ((s.advanceSlot i k).1.slot i).fits := by
  unfold State.advanceSlot
  split
  · exact h
  next r run =>
    split
    · simpa [Slot.fits, run] using h
    · rw [boundary_fst]
      have evaluated := rides_boundarySteps ⟨h, by simp [run]⟩ (r.p + k - r.len)
      generalize s.boundarySteps i (r.p + k - r.len) = u at evaluated ⊢
      exact fits_handOverStep evaluated.1

/-! ### Every slot in its shape -/

/-- Every slot context has the shape of its state. -/
def State.shapely (s : State) : Prop := ∀ i, (s.slot i).shaped

theorem shapely_congr (h : t.slots = s.slots) (hs : s.shapely) : t.shapely := fun i => by
  rw [show t.slot i = s.slot i from congrArg (Vector.get · i) h]
  exact hs i

theorem slotClosed_defined : SlotClosed i fun t => (t.slot i).state ≠ .unused where
  slot t y ht hw := by
    rw [State.setSlot_slot_same]
    exact fun hu => ht (hw.2.1 hu)
  read _ _ ht _ _ := ht
  promote _ _ ht := ht
  removeEntry _ ht := ht
  handOver _ _ ht := ht
  raise _ _ _ ht := ht
  record _ _ ht _ := ht

/-- An operation of one slot's engine that fits its slot, and leaves a defined one defined and the others as they are. -/
theorem shapely_of_engine (hs : s.shapely) (defined : (s.slot i).state ≠ .unused) (closed : ∀ Q, SlotClosed i Q → Q s → Q t)
    (fits : (s.slot i).fits → (t.slot i).fits) : t.shapely := by
  intro j
  by_cases hj : j = i
  · subst hj
    have kept := closed _ slotClosed_defined defined
    exact (Slot.shaped_of_defined kept).mpr (fits ((Slot.shaped_of_defined defined).mp (hs j)))
  · rw [closed _ (slotClosed_other hj) rfl]
    exact hs j

theorem shapely_joinCause (hs : s.shapely) (i : Fin 64) (c : OverrideCause) : (s.joinCause i c).1.shapely := by
  by_cases defined : (s.slot i).state = .unused
  · rcases joinCause_cases s i c with ⟨-, e⟩ | ⟨h, -⟩ | ⟨h, -⟩
    · rw [e]; exact hs
    · exact absurd defined h
    · exact absurd defined h
  · exact shapely_of_engine hs defined (fun _ q h => q.joinCause c h) fun h => fits_joinCause h c

theorem causes_of_unused (hs : s.shapely) (h : (s.slot i).state = .unused) : (s.slot i).causes = 0#5 := by
  rw [(hs i).1 h]
  rfl

theorem shapely_leaveCause (hs : s.shapely) (i : Fin 64) (c : OverrideCause) : (s.leaveCause i c).shapely := by
  by_cases defined : (s.slot i).state = .unused
  · have same : s.leaveCause i c = s.setSlot i (s.slot i) := by
      rw [State.leaveCause, causes_of_unused hs defined, causeLeave_of_empty, ← causes_of_unused hs defined]
    rw [same]
    intro j
    rw [State.setSlot_slot]
    split
    · exact hs i
    · exact hs j
  · exact shapely_of_engine hs defined (fun _ q h => q.leaveCause c h) fun h => fits_leaveCause h c

end Sys2Proof.Machine
end

section
/-! PROOFS. A property of the slots, the groups, the member view and the plan store that outlives the operations on them is kept by every
command. The property may speak of the member events that are still on their way (log entry 3). The shapes of the slots (O56), the
law of the store (O57) and the decided groups (O58) are instances of it. -/

namespace Sys2Proof.Machine

/-! ### Operations on the core -/

/-- The slots, the groups, the member view and the plan store read the same. -/
def State.sameCore (t u : State) : Prop := t.slots = u.slots ∧ t.groups = u.groups ∧ t.members = u.members ∧ t.store = u.store

/-- What a settlement decision reads of a group record, and its state. -/
def Group.decisive (x : Group) : Policy × GroupState × Nat × Bool := (x.policy, x.state, x.target, x.adopted)

/-- `l'` is location `l` with other words or another mark. -/
def Location.rewrites (l' l : Location) : Prop :=
  l'.num = l.num ∧ l'.occupancy = l.occupancy ∧ l'.slot = l.slot ∧ l'.plan = l.plan ∧ l'.link = l.link ∧
    l'.words.length = l.words.length

/-- `Q` outlives every operation on the slots, the groups, the member view and the store; the list holds the member events on their
way. -/
structure CoreClosed (Q : State → List MemberEvent → Prop) : Prop where
  congr : ∀ t u es, t.sameCore u → Q u es → Q t es
  advance : ∀ t es i k, Q t es → Q (t.advanceSlot i k).1 (es ++ (t.advanceSlot i k).2)
  joinCause : ∀ t es i c, Q t es → Q (t.joinCause i c).1 (es ++ (t.joinCause i c).2)
  leaveCause : ∀ t es i c, Q t es → Q (t.leaveCause i c) es
  outcome : ∀ t i o r, Q t [] → Q (t.takeOutcome i o r).1 (t.takeOutcome i o r).2
  select : ∀ t es g r, Q t es → (∀ e ∈ es, (t.slot e.slot).run.isSome = true) → Q (t.takeSelection g r) es
  force : ∀ t es i, Q t es → Q (t.forceImmediate i) es
  flag : ∀ t es i, Q t es → (t.slot i).run.isSome = true → Q (t.setSlot i { t.slot i with stepFlag := true }) es
  deliver : ∀ t es (p : Fin 64 → Bool), Q t es →
    Q (t.takeMembers (es.filter fun e => p e.slot)) (es.filter fun e => !p e.slot)
  group : ∀ t es g x, Q t es → x.decisive = (t.group g).decisive → Q (t.setGroup g x) es
  settle : ∀ t g x, Q t [] → Q ((t.setGroup g x).settle g true) []
  rewrite : ∀ t es l l', Q t es → l ∈ t.store.held → l'.rewrites l → Q (t.setStore (t.store.put l')) es
  scalars : ∀ t es st, Q t es → st.held = t.store.held → Q (t.setStore st) es
  load : ∀ t i plan p w, Q t [] → (t.slot i).state ≠ .unused → 1 ≤ plan → plan ≤ 250 →
    t.store.load i plan (t.pinCurrent i plan) p = some w → Q (t.setStore w.store) []
  dropRecord : ∀ t i plan r, Q t [] → t.store.recordOf i plan = some r → t.pinned r = false →
    Q (t.setStore (t.store.free r.num)) []
  dropShadow : ∀ t i plan r sh, Q t [] → t.store.recordOf i plan = some r → t.store.shadowOf i plan = some sh →
    Q (t.setStore ((t.store.free sh.num).put { r with link := none })) []
  define : ∀ t d, Q t [] → (t.slot d.slot).state = .unused → Q (t.define d) []
  release : ∀ t i, Q t [] → (t.slot i).state ≠ .unused → Q (t.releaseSlot i) []
  recording : ∀ t i b, Q t [] → (t.slot i).state ≠ .unused → Q (t.setSlot i { t.slot i with recording := b }) []
  latch : ∀ t i, Q t [] → (t.slot i).state ≠ .unused → Q (t.setSlot i { t.slot i with latch := false }) []
  warm : ∀ t, Q t [] → Q t.warmBlocks []
  cold : ∀ t, Q t [] → Q t.coldBlocks []

theorem sameCore_of_frame {s t : State} {bs : List Block} (frame : s.changesOnly t bs)
    (h : ∀ b ∈ [Block.slots, .groups, .members, .store], b ∉ bs) : t.sameCore s :=
  ⟨frame.2.2 .slots (h _ (by simp)), frame.2.2 .groups (h _ (by simp)), frame.2.2 .members (h _ (by simp)),
    frame.2.2 .store (h _ (by simp))⟩

/-! ### The running slots keep their positions -/

theorem slotClosed_runs (i j : Fin 64) : SlotClosed j fun t => (t.slot i).run.isSome = true where
  slot t y ht hw := by
    rw [State.setSlot_slot]
    split
    next h => subst h; exact hw.2.2 ht
    next => exact ht
  read _ _ ht _ _ := ht
  promote _ _ ht := ht
  removeEntry _ ht := ht
  handOver _ _ ht := ht
  raise _ _ _ ht := ht
  record _ _ ht _ := ht

theorem tickClosed_runs (i : Fin 64) : TickClosed fun t => (t.slot i).run.isSome = true where
  slots := slotClosed_runs i
  group _ _ _ ht := ht
  member _ _ _ ht := ht
  tables _ _ ht _ := ht
  scrubOnward _ ht := ht
  lineSeen _ _ _ ht := ht

theorem enterLost_events (s : State) (i : Fin 64) : (s.enterLost i).2 = [memberEvent i .lost (s.slot i).current] := by
  simp [State.enterLost, endTransition_slot]

theorem miss_events_slot {s : State} {i : Fin 64} {k : MissKind} {e : MemberEvent} (h : e ∈ (s.miss i k).2) : e.slot = i := by
  rcases miss_cases s i k with ⟨-, eq⟩ | ⟨-, -, eq⟩ | ⟨-, -, eq⟩ <;> rw [eq] at h
  · exact nomatch h
  · exact nomatch h
  · rw [enterLost_events] at h
    rw [List.mem_singleton.mp h]
    rfl

theorem boundary_snd (t : State) (i : Fin 64) (p : Nat) : (t.boundary i p).2 =
    changeEvents i (t.slot i) ((t.boundarySteps i p).slot i) ++ ((t.boundarySteps i p).handOverStep i).2 := by
  have e : t.boundary i p = Sent.andThen
      (t.boundarySteps i p, changeEvents i (t.slot i) ((t.boundarySteps i p).slot i)) (fun s => s.handOverStep i) := rfl
  rw [e]
  generalize t.boundarySteps i p = u
  rfl

theorem handOverStep_events_slot {s : State} {i : Fin 64} {e : MemberEvent} (h : e ∈ (s.handOverStep i).2) : e.slot = i := by
  unfold State.handOverStep at h
  dsimp only at h
  split at h
  · exact nomatch h
  · exact miss_events_slot h

/-- The member events of an advance are those of its slot, which runs. -/
theorem advanceSlot_events_slot {s : State} {i : Fin 64} {k : Nat} {e : MemberEvent} (h : e ∈ (s.advanceSlot i k).2) :
    e.slot = i ∧ (s.slot i).run.isSome = true := by
  unfold State.advanceSlot at h
  split at h
  next => exact nomatch h
  next r run =>
    refine ⟨?_, by simp [run]⟩
    split at h
    · exact nomatch h
    · rw [boundary_snd] at h
      generalize s.boundarySteps i (r.p + k - r.len) = u at h
      rcases List.mem_append.mp h with h | h
      · unfold changeEvents at h
        split at h
        · rw [List.mem_singleton.mp h]
          rfl
        · exact nomatch h
      · exact handOverStep_events_slot h

/-! ### Composites of the operations -/

section
variable {Q : State → List MemberEvent → Prop} {t u : State} {es : List MemberEvent}

theorem CoreClosed.frame (c : CoreClosed Q) {bs : List Block} (h : Q t es) (frame : t.changesOnly u bs)
    (core : ∀ b ∈ [Block.slots, .groups, .members, .store], b ∉ bs) : Q u es :=
  c.congr u t es (sameCore_of_frame frame core) h

theorem CoreClosed.deliverAll (c : CoreClosed Q) {a : Sent} (h : Q a.1 a.2) : Q a.deliver [] := by
  have taken := c.deliver a.1 a.2 (fun _ => true) h
  simpa [Sent.deliver] using taken

theorem CoreClosed.raise (c : CoreClosed Q) (k : Notice) (h : Q t es) : Q (t.raise k) es := c.congr _ t _ ⟨rfl, rfl, rfl, rfl⟩ h

theorem CoreClosed.forceAll (c : CoreClosed Q) (is : List (Fin 64)) (h : Q t es) : Q (t.forceAll is) es :=
  keeps_foldl (Q := fun t => Q t es) (fun _ i ht => c.force _ _ i ht) is h

theorem CoreClosed.checkLimit (c : CoreClosed Q) (g : Fin 16) (h : Q t es) : Q (t.checkLimit g).1 es := by
  unfold State.checkLimit
  split
  · exact c.raise _ (c.group _ _ _ _ h rfl)
  · exact h

theorem CoreClosed.groupMinute (c : CoreClosed Q) (g : Fin 16) (h : Q t es) : Q (t.groupMinute g).1 es := by
  unfold State.groupMinute
  dsimp only
  refine c.checkLimit g ?_
  split
  · exact h
  · exact c.group _ _ _ _ h rfl

/-- The slots of the events on their way run. -/
def eventsRun (t : State) (es : List MemberEvent) : Prop := ∀ e ∈ es, (t.slot e.slot).run.isSome = true

theorem eventsRun_setTables (run : eventsRun t es) (x : Timetable) : eventsRun (t.setTables x) es := run

theorem eventsRun_nil (t : State) : eventsRun t [] := fun _ h => nomatch h

theorem CoreClosed.evaluateGroups (c : CoreClosed Q) (gs : List (Fin 16)) (d m : Nat) (h : Q t es) (run : eventsRun t es) :
    Q (t.evaluateGroups gs d m) es ∧ eventsRun (t.evaluateGroups gs d m) es :=
  keeps_foldl (Q := fun t => Q t es ∧ eventsRun t es) (fun _ _ ht =>
    ⟨c.select _ _ _ _ ht.1 ht.2, fun e he => (tickClosed_runs e.slot).takeSelection _ _ (ht.2 e he)⟩) gs ⟨h, run⟩

theorem CoreClosed.evaluateNow (c : CoreClosed Q) (gs : List (Fin 16)) (h : Q t es) (run : eventsRun t es) :
    Q (t.evaluateNow gs) es := by
  unfold State.evaluateNow
  split
  · exact (c.evaluateGroups gs _ _ h run).1
  · exact h

theorem CoreClosed.setTables (c : CoreClosed Q) (x : Timetable) (h : Q t es) : Q (t.setTables x) es :=
  c.congr _ t _ ⟨rfl, rfl, rfl, rfl⟩ h

theorem CoreClosed.timetableMinute (c : CoreClosed Q) (d m : Nat) (h : Q t es) (run : eventsRun t es) : Q (t.timetableMinute d m) es := by
  unfold State.timetableMinute
  split
  · have evaluated := c.evaluateGroups (t := t.setTables (t.tables.expire d m)) (List.finRange 16) d m (c.setTables _ h) (eventsRun_setTables run _)
    exact evaluated.1
  · exact h

theorem CoreClosed.timetableStep (c : CoreClosed Q) (h : Q t es) (run : eventsRun t es) : Q t.timetableStep es := by
  unfold State.timetableStep
  split
  · have evaluated := c.evaluateNow (t := t.setTables (t.tables.stepExpire t.time.ref)) (List.finRange 16) (c.setTables _ h) (eventsRun_setTables run _)
    exact evaluated
  · exact h

theorem CoreClosed.setStepFlags (c : CoreClosed Q) (is : List (Fin 64)) (h : Q t es) (run : ∀ i ∈ is, (t.slot i).run.isSome = true) :
    Q (t.setStepFlags is) es := by
  unfold State.setStepFlags
  induction is generalizing t with
  | nil => exact h
  | cons i is ih =>
    rw [List.foldl_cons]
    refine ih (c.flag _ _ i h (run i (by simp))) fun j hj => ?_
    exact ((tickClosed_runs j).slots i).write (run j (by simp [hj])) rfl id

theorem CoreClosed.stepEvent (c : CoreClosed Q) (h : Q t []) : Q t.stepEvent [] :=
  c.timetableStep (c.setStepFlags _ h fun i hi => by simpa [State.runningSlots, Slot.running] using hi) (eventsRun_nil _)

theorem Location.read_rewrites (st : PlanStore) (l : Location) :
    ∃ l', l'.rewrites l ∧ (st.read l).store.held = (st.put l').held := by
  unfold PlanStore.read
  split
  · exact ⟨{ l with faulted := true }, ⟨rfl, rfl, rfl, rfl, rfl, rfl⟩, rfl⟩
  · exact ⟨{ l with words := l.words.mapIdx fun k w => if w.isCorrected then st.cellsOf l.num k (.fresh w.readData) else w },
      ⟨rfl, rfl, rfl, rfl, rfl, List.length_mapIdx⟩, rfl⟩

theorem CoreClosed.read (c : CoreClosed Q) {l : Location} (h : Q t es) (hl : l ∈ t.store.held) : Q (t.setStore (t.store.read l).store) es := by
  obtain ⟨l', same, held⟩ := Location.read_rewrites t.store l
  have written := c.scalars (t.setStore (t.store.put l')) es (t.store.read l).store (c.rewrite _ _ l l' h hl same) held
  exact written

theorem CoreClosed.readLocation (c : CoreClosed Q) {l : Location} (h : Q t es) (hl : l ∈ t.store.held) : Q (t.readLocation l).1 es := by
  unfold State.readLocation
  dsimp only
  split
  · exact c.raise _ (c.read h hl)
  · exact c.read h hl

theorem scrubOnward_held (st : PlanStore) : st.scrubOnward.held = st.held := by
  unfold PlanStore.scrubOnward
  split <;> rfl

theorem CoreClosed.scrubVisit (c : CoreClosed Q) (h : Q t es) : Q t.scrubVisit es := by
  unfold State.scrubVisit
  dsimp only
  split
  · refine c.scalars _ _ _ ?_ (scrubOnward_held _)
    split
    next l found =>
      split
      · exact h
      · exact c.readLocation h (PlanStore.at?_some found).1
    next => exact h
  · exact h

theorem CoreClosed.tickEvent (c : CoreClosed Q) (k : Nat) (w : Bool) (run : List (Fin 64)) (e : TickEvent) (h : Q t es)
    (events : eventsRun t es) (runs : ∀ i ∈ run, (t.slot i).run.isSome = true) :
    Q (t.tickEvent k w run e).1 (es ++ (t.tickEvent k w run e).2.members) ∧
      eventsRun (t.tickEvent k w run e).1 (es ++ (t.tickEvent k w run e).2.members) := by
  have kept : ∀ i, (t.slot i).run.isSome = true → ((t.tickEvent k w run e).1.slot i).run.isSome = true := fun i =>
    (tickClosed_runs i).tickEvent k w run e
  refine ⟨?_, fun m hm => ?_⟩
  · unfold State.tickEvent
    split <;> (try dsimp only) <;> (try simp only [OnWay.none, List.append_nil])
    · exact c.advance _ _ _ k h
    · exact c.scrubVisit h
    · exact c.setStepFlags run h runs
    · exact c.groupMinute _ h
    · split
      · exact c.timetableStep h events
      · exact c.timetableMinute _ _ h events
    · exact c.congr _ t _ ⟨rfl, rfl, rfl, rfl⟩ h
    · exact h
    · exact h
  · rcases List.mem_append.mp hm with old | new
    · exact kept _ (events m old)
    · cases e with
      | slot i =>
        obtain ⟨same, runs⟩ := advanceSlot_events_slot new
        exact kept _ (same ▸ runs)
      | _ => exact nomatch new

theorem OnWay.later_members (w : OnWay) (es : List TickEvent) :
    (w.later es).members = w.members.filter fun e => !decide (.memberArrives e.slot ∉ es) := by
  simp [OnWay.later]

theorem CoreClosed.takeEvents (c : CoreClosed Q) (k : Nat) (w : Bool) (run : List (Fin 64)) (order : List TickEvent) :
    ∀ (v : OnWay) (t : State), Q t v.members → eventsRun t v.members → (∀ i ∈ run, (t.slot i).run.isSome = true) →
      (order = [] → v.members = []) → Q (t.takeEvents k w run order v) [] := by
  induction order with
  | nil =>
    intro v t h _ _ last
    rw [last rfl] at h
    exact h
  | cons e order ih =>
    intro v t h events runs _
    obtain ⟨taken, running⟩ := c.tickEvent k w run e h events runs
    refine ih _ _ ?_ ?_ ?_ ?_
    · rw [OnWay.later_members]
      exact c.forceAll _ (c.deliver _ _ (fun i => decide (TickEvent.memberArrives i ∉ order)) taken)
    · intro m hm
      exact (tickClosed_runs m.slot).arrive _ (running m (List.mem_of_mem_filter hm))
    · intro i hi
      exact (tickClosed_runs i).arrive _ ((tickClosed_runs i).tickEvent k w run e (runs i hi))
    · rintro rfl
      simp [OnWay.later]

theorem CoreClosed.tick (c : CoreClosed Q) (order : List TickEvent) (h : Q t []) : Q (t.tick order) [] := by
  unfold State.tick
  dsimp only
  refine c.takeEvents _ _ _ _ _ _ ?_ (eventsRun_nil _) (fun i hi => by simpa [State.runningSlots, Slot.running] using hi) fun _ => rfl
  have entered : Q (t.setTime t.time.tick).enterHoldover [] :=
    c.frame (c.congr (t.setTime t.time.tick) t _ ⟨rfl, rfl, rfl, rfl⟩ h) changesOnly_enterHoldover (by decide)
  split
  · exact c.raise _ entered
  · exact entered

/-! ### The owners of requests -/

theorem CoreClosed.carryOut (c : CoreClosed Q) (i : Instr) {o : State → Answer} (h : Q t []) (ho : Q t [] → Q (o t).state []) :
    Q (carryOut i o t) [] := by
  unfold Machine.carryOut
  split
  · exact h
  · split
    · exact h
    · split
      · exact c.frame (bs := [.mgmt]) h (engineDone_frame (by simp) changesOnly_refl) (by decide)
      · exact c.frame (bs := [.trunk, .mgmt]) (ho h) (placeReply_frame (by simp) (by simp) _ _ changesOnly_refl) (by decide)

theorem CoreClosed.owned (c : CoreClosed Q) {i : Instr} {o : State → Answer} (ho : ownerOf i = some o) (h : Q t [])
    (hk : Q t [] → Q (o t).state []) : Q (Machine.after i t) [] := by
  rw [after_of_owner ho]
  exact c.carryOut i h hk

theorem CoreClosed.evaluates (c : CoreClosed Q) (gs : List (Fin 16)) (h : Q t []) : Q (t.evaluateNow gs) [] :=
  c.evaluateNow gs h (eventsRun_nil _)

theorem CoreClosed.changed (c : CoreClosed Q) (x : Timetable) (gs : List (Fin 16)) (fields : List Byte) (h : Q t []) :
    Q (changed t x gs fields).state [] := c.evaluates gs (c.setTables x h)

theorem CoreClosed.setDayNumber (c : CoreClosed Q) (day : Nat) (h : Q t []) : Q (t.setDayNumber day) [] := by
  unfold State.setDayNumber
  dsimp only
  split
  · exact c.stepEvent (c.congr _ t _ ⟨rfl, rfl, rfl, rfl⟩ h)
  · exact c.congr _ t _ ⟨rfl, rfl, rfl, rfl⟩ h

theorem CoreClosed.defineSlot (c : CoreClosed Q) (slot : Byte) (x : Half) (p d g v m : Byte) (h : Q t []) :
    Q (defineSlot slot x p d g v m t).state [] := by
  unfold Machine.defineSlot
  split
  next => exact h
  next =>
    split
    next => exact h
    next free =>
      split
      · exact h
      · exact c.define _ _ h (not_not.mp free)

theorem CoreClosed.onDefinedSlot (_ : CoreClosed Q) (slot : Byte) {f : Fin 64 → Answer} (h : Q t [])
    (hf : ∀ i, (t.slot i).state ≠ .unused → Q (f i).state []) : Q (onDefinedSlot slot f t).state [] := by
  rcases onDefinedSlot_cases slot f t with ⟨-, e⟩ | ⟨-, -, -, e⟩ | ⟨i, -, defined, e⟩ <;> rw [e]
  · exact h
  · exact h
  · exact hf i defined

theorem CoreClosed.loadPlan (c : CoreClosed Q) (slot plan : Byte) (p : Plan) (h : Q t []) : Q (loadPlan slot plan p t).state [] := by
  unfold Machine.loadPlan
  split
  next => exact h
  next i _ =>
    split
    next fits =>
      unfold loadChecked
      split
      next => exact h
      next =>
        split
        next => exact h
        next defined =>
          have named : 1 ≤ plan.toNat ∧ plan.toNat ≤ 250 := by
            simp only [Bool.and_eq_true, planNumber, decide_eq_true_eq] at fits
            exact fits.1
          split
          · exact h
          · exact c.load _ i _ _ _ h defined named.1 named.2 ‹_›
    next => exact h

theorem CoreClosed.dropPlan (c : CoreClosed Q) (slot plan part : Byte) (h : Q t []) : Q (dropPlan slot plan part t).state [] := by
  unfold Machine.dropPlan
  split
  next i _ _ _ =>
    split
    · split
      · unfold Machine.dropRecord
        split
        · exact h
        · split
          · exact h
          next pinned => exact c.dropRecord _ i _ _ h ‹_› (Bool.eq_false_iff.mpr pinned)
      · unfold Machine.dropShadow
        split
        · exact c.dropShadow _ i _ _ _ h ‹_› ‹_›
        · exact h
    · exact h
  · exact h

theorem shadowOf_mem {st : PlanStore} {i : Fin 64} {n : Nat} {l : Location} (h : st.shadowOf i n = some l) : l ∈ st.held := by
  obtain ⟨m, -, found⟩ := Option.bind_eq_some_iff.mp h
  exact (PlanStore.at?_some (Option.filter_eq_some_iff.mp found).1).1

theorem partOf_mem {st : PlanStore} {i : Fin 64} {n : Nat} {o : Occupancy} {l : Location} (h : st.partOf i n o = some l) :
    l ∈ st.held := by
  cases o with
  | record => exact (PlanStore.recordOf_some h).1
  | shadow => exact shadowOf_mem h

theorem CoreClosed.readPlan (c : CoreClosed Q) (slot plan part : Byte) (h : Q t []) : Q (readPlan slot plan part t).state [] := by
  unfold Machine.readPlan
  split
  · split
    · unfold readChecked
      split
      · exact h
      · split
        next => exact h
        next l found =>
          have read := c.readLocation h (partOf_mem found)
          unfold readHeld
          split
          · exact h
          · split <;> rename_i e <;> rw [e] at read <;> exact read
    · exact h
  · exact h

theorem CoreClosed.checksumPlans (c : CoreClosed Q) (first last sum : Nat) (h : Q t []) : Q (checksumPlans first last sum t).state [] := by
  have step : ∀ (k : Checksum) (n : Nat), Q k.state [] → Q (k.step n).state [] := by
    intro k n hk
    unfold Checksum.step
    split
    next => exact hk
    next l found =>
      split
      · exact hk
      · have read := c.readLocation hk (PlanStore.at?_some found).1
        dsimp only
        split <;> rename_i e <;> rw [e] at read <;> exact read
  have run : Q (checksumRun first last sum t).state [] :=
    List.foldlRecOn (motive := fun k : Checksum => Q k.state []) _ _ h fun k hk n _ => step k n hk
  unfold Machine.checksumPlans
  split
  · exact h
  · dsimp only
    split <;> exact run

theorem writeWords_length (st : PlanStore) (n : Nat) (ws : List CodeWord) : (st.writeWords n ws).length = ws.length := by
  simp [PlanStore.writeWords]

theorem CoreClosed.setLogOut (c : CoreClosed Q) (x : Option LogOut) (h : Q t es) : Q (t.setLogOut x) es :=
  c.congr _ t _ ⟨rfl, rfl, rfl, rfl⟩ h

theorem CoreClosed.testLocation (c : CoreClosed Q) (num : Nat) (h : Q t []) : Q (testLocation num t).state [] := by
  have run : Q (runTest num t).state [] := by
    unfold runTest
    dsimp only
    have restored : Q (match t.store.at? num with | some l => t.setStore (t.store.restore l) | none => t) [] := by
      split
      next l found =>
        exact c.rewrite _ _ l _ h (PlanStore.at?_some found).1 ⟨rfl, rfl, rfl, rfl, rfl, writeWords_length _ _ _⟩
      next => exact h
    split
    · exact restored
    · exact c.setLogOut _ restored
  unfold Machine.testLocation
  split
  · exact h
  · split
    · split
      · exact h
      · exact run
    · exact run

theorem CoreClosed.forceCheck (c : CoreClosed Q) (num word : Nat) (b1 b2 : Byte) (h : Q t []) : Q (forceCheck num word b1 b2 t).state [] := by
  unfold Machine.forceCheck
  split
  · exact h
  · split
    next => exact h
    next l found =>
      split
      · exact h
      · have written := c.rewrite _ _ l (l.flip t.store word (bitsNamed b1 b2)) h (PlanStore.at?_some found).1
          ⟨rfl, rfl, rfl, rfl, rfl, List.length_modify _ _ _⟩
        exact c.scalars (t.setStore (t.store.put (l.flip t.store word (bitsNamed b1 b2)))) [] _ written rfl

theorem CoreClosed.scrubControl (c : CoreClosed Q) (code : Byte) (h : Q t []) : Q (scrubControl code t).state [] := by
  unfold Machine.scrubControl
  split
  · exact c.scalars _ _ _ h rfl
  · exact c.scalars _ _ _ h rfl
  · exact h

theorem CoreClosed.regroup (c : CoreClosed Q) (g : Fin 16) (x : GroupSettings) (h : Q t []) : Q (t.regroup g x) [] := by
  refine c.evaluates _ ?_
  split
  next same => exact c.group _ _ _ _ h (by simp [Group.decisive, Group.withSettings, same])
  next => exact c.settle _ _ _ h

theorem CoreClosed.setCalendar (c : CoreClosed Q) (day : Half) (action dayType : Byte) (h : Q t []) :
    Q (setCalendar day action dayType t).state [] := by
  unfold Machine.setCalendar calendarSet calendarRemove
  dsimp only
  repeat' split
  all_goals first | exact h | exact c.changed _ _ _ h

theorem CoreClosed.addBase (c : CoreClosed Q) (group mask : Byte) (start : Half) (plan mode : Byte) (h : Q t []) :
    Q (addBase group mask start plan mode t).state [] := by
  unfold Machine.addBase addBaseChecked
  dsimp only
  repeat' split
  all_goals first | exact h | exact c.changed _ _ _ h

theorem CoreClosed.addEvent (c : CoreClosed Q) (group : Byte) (startDay startMinute endDay endMinute : Half)
    (plan priority mode : Byte) (h : Q t []) : Q (addEvent group startDay startMinute endDay endMinute plan priority mode t).state [] := by
  unfold Machine.addEvent addEventChecked
  dsimp only
  repeat' split
  all_goals first | exact h | exact c.changed _ _ _ h

theorem CoreClosed.cutEntry (c : CoreClosed Q) (kind : Byte) (id : Half) (h : Q t []) : Q (cutEntry kind id t).state [] := by
  unfold Machine.cutEntry cutBase cutEvent
  dsimp only
  repeat' split
  all_goals first | exact h | exact c.changed _ _ _ h

theorem CoreClosed.directPlan (c : CoreClosed Q) (group plan : Byte) (duration : Half) (h : Q t []) :
    Q (directPlan group plan duration t).state [] := by
  unfold Machine.directPlan
  repeat' split
  all_goals first | exact h | exact c.changed _ _ _ h

theorem CoreClosed.endDirect (c : CoreClosed Q) (group : Byte) (h : Q t []) : Q (endDirect group t).state [] := by
  unfold Machine.endDirect
  repeat' split
  all_goals first | exact h | exact c.changed _ _ _ h

theorem CoreClosed.overSlots (_ : CoreClosed Q) {f : State → Fin 64 → Sent}
    (hf : ∀ t es i, Q t es → Q (f t i).1 (es ++ (f t i).2)) (is : List (Fin 64)) (h : Q t []) : Q (overSlots is f t).1 (overSlots is f t).2 :=
  List.foldlRecOn (motive := fun a : Sent => Q a.1 a.2) is _ h fun a ha i _ => hf a.1 a.2 i ha

theorem CoreClosed.setHold (c : CoreClosed Q) (l : Fin 4) (x : HoldLine) (h : Q t es) : Q (t.setHold l x) es :=
  c.congr _ t _ ⟨rfl, rfl, rfl, rfl⟩ h

theorem CoreClosed.activationEdge (c : CoreClosed Q) (l : Fin 4) (h : Q t []) : Q (t.activationEdge l).deliver [] :=
  c.deliverAll (c.overSlots (fun t es i ht => c.joinCause t es i _ ht) _ (c.setHold _ _ h))

theorem CoreClosed.releaseEdge (c : CoreClosed Q) (l : Fin 4) (h : Q t []) : Q (t.releaseEdge l) [] :=
  keeps_foldl (Q := fun t => Q t []) (fun _ i ht => c.leaveCause _ _ i _ ht) _ (c.setHold _ _ h)

theorem CoreClosed.sampleHolds (c : CoreClosed Q) (pins : PinSample) (h : Q t []) : Q (t.sampleHolds pins) [] := by
  refine keeps_foldl (Q := fun t => Q t []) (fun u l hu => ?_) _ h
  unfold State.sampleHold
  split
  · exact c.activationEdge l hu
  · exact c.setHold _ _ hu

theorem CoreClosed.setHoldMap (c : CoreClosed Q) (l : Fin 4) (map : SlotSet) (h : Q t []) : Q (t.setHoldMap l map) [] := by
  unfold State.setHoldMap
  dsimp only
  split
  · exact c.setHold _ _ h
  · refine c.deliverAll (c.overSlots (fun u es i hu => ?_) _ (c.setHold _ _ h))
    unfold State.holdDifference
    split
    · exact c.joinCause _ _ i _ hu
    · split
      · simpa using c.leaveCause _ _ i _ hu
      · simpa using hu

theorem CoreClosed.clearOverride (c : CoreClosed Q) (slot : Byte) (h : Q t []) : Q (clearOverride slot t).state [] := by
  refine c.onDefinedSlot slot h fun i defined => ?_
  split
  · exact h
  · exact c.latch _ i h defined

theorem CoreClosed.mirrorFilter (c : CoreClosed Q) (filter : SlotSet) (h : Q t []) : Q (t.mirrorFilter filter) [] := by
  unfold State.mirrorFilter
  generalize List.finRange 64 = slots
  refine keeps_foldl (Q := fun t => Q t []) (fun u i hu => ?_) _ h
  split
  · exact hu
  · exact c.recording _ i _ hu ‹_›

theorem CoreClosed.setRecording (c : CoreClosed Q) (filter : SlotSet) (reload choice : Byte) (h : Q t []) :
    Q (setRecording filter reload choice t).state [] := by
  unfold Machine.setRecording
  split
  · exact h
  · dsimp only
    exact c.mirrorFilter _ (c.congr _ t _ ⟨rfl, rfl, rfl, rfl⟩ h)

/-! ### Field events and trunk frames -/

theorem CoreClosed.setPort (c : CoreClosed Q) (p : Fin 4) (q : Port) (h : Q t es) : Q (t.setPort p q) es :=
  c.congr _ t _ ⟨rfl, rfl, rfl, rfl⟩ h

theorem CoreClosed.reportOutcome (c : CoreClosed Q) (x : Exchange) (o : ExchangeOutcome) (r : FieldOverride) (h : Q t []) :
    Q (t.reportOutcome x o r) [] := by
  unfold State.reportOutcome
  split
  · exact h
  · exact c.deliverAll (c.outcome _ _ _ _ h)

theorem CoreClosed.takeStatus (c : CoreClosed Q) (p : Fin 4) (f : StatusFields) (ms : Nat) (line : LineCondition) (h : Q t []) :
    Q (t.takeStatus p f ms line) [] := by
  unfold State.takeStatus
  dsimp only
  split
  · exact h
  · split
    · exact c.setPort _ _ h
    · split
      · exact c.reportOutcome _ _ _ (c.setPort _ _ h)
      · exact c.setPort _ _ h

theorem CoreClosed.fieldReception (c : CoreClosed Q) (p : Fin 4) (ms : Nat) (bytes : List Byte) (line : LineCondition) (h : Q t []) :
    Q (t.fieldReception p ms bytes line) [] := by
  unfold State.fieldReception
  split
  · exact c.takeStatus p _ ms line h
  · exact c.setPort _ _ h

theorem CoreClosed.fieldReceptions (c : CoreClosed Q) (p : Fin 4) (ms : Nat) (line : LineCondition) :
    ∀ (runs : List (List Byte)) {t : State}, Q t [] → Q (t.fieldReceptions p ms line runs) []
  | [], _, h => h
  | [_], _, h => c.fieldReception p ms _ line h
  | _ :: next :: rest, _, h => c.fieldReceptions p ms line (next :: rest) (c.fieldReception p ms _ .active h)

theorem CoreClosed.expireWindow (c : CoreClosed Q) (p : Fin 4) (line : LineCondition) (h : Q t []) : Q (t.expireWindow p line) [] := by
  unfold State.expireWindow
  split
  · split
    · exact c.reportOutcome _ _ _ (c.setPort _ _ h)
    · exact h
  · exact h

theorem CoreClosed.blockLine (c : CoreClosed Q) (p : Fin 4) (h : Q t []) : Q (t.blockLine p) [] := by
  unfold State.blockLine
  dsimp only
  split
  · exact h
  · split
    · exact c.reportOutcome _ _ _ (c.setPort _ _ h)
    · exact c.setPort _ _ h

theorem CoreClosed.takeMark (c : CoreClosed Q) (m : Mark) (h : Q t []) : Q (t.takeMark m) [] := by
  have timed : ∀ k, Q ((t.setTime (t.time.takeMark m).time).raiseOpt k) [] := by
    have set : Q (t.setTime (t.time.takeMark m).time) [] := c.congr _ t _ ⟨rfl, rfl, rfl, rfl⟩ h
    rintro (- | k)
    · exact set
    · exact c.raise k set
  unfold State.takeMark
  dsimp only
  split
  · exact c.stepEvent (timed _)
  · exact timed _

theorem CoreClosed.takeCue (c : CoreClosed Q) (n : Nat) (h : Q t []) : Q (t.takeCue n) [] := by
  unfold State.takeCue
  split
  · refine c.evaluates _ (List.foldlRecOn (motive := fun a : State × List (Fin 16) => Q a.1 []) _ _ h fun a ha e _ => ?_)
    exact c.frame (bs := [.tables, .records]) ha (changesOnly_applyCue (by simp) (by simp) a e changesOnly_refl) (by decide)
  · exact h

theorem CoreClosed.takeCancel (c : CoreClosed Q) (n : Nat) (h : Q t []) : Q (t.takeCancel n) [] := c.evaluates _ (c.setTables _ h)

theorem CoreClosed.countMalformed (c : CoreClosed Q) (h : Q t []) : Q t.countMalformed [] := c.congr _ t _ ⟨rfl, rfl, rfl, rfl⟩ h

theorem CoreClosed.actOn (c : CoreClosed Q) (own : Byte) (f : TrunkFrame) (h : Q t []) : Q (t.actOn own f) [] := by
  have malformed := c.countMalformed h
  unfold State.actOn
  split
  · split
    · exact c.takeMark _ h
    · exact malformed
  · split
    · split
      · exact c.takeCue _ h
      · exact malformed
    · split
      · split
        · exact c.takeCancel _ h
        · exact malformed
      · split
        · split
          · exact c.frame (bs := [.trunk, .mgmt, .records]) h
              (changesOnly_offerRequest _ (by simp) (by simp) (by simp) changesOnly_refl) (by decide)
          · exact malformed
        · exact h

theorem CoreClosed.acceptedFrame (c : CoreClosed Q) (p : TrunkPort) (f : TrunkFrame) (h : Q t []) : Q (t.acceptedFrame p f) [] := by
  have passes : ∀ {u : State}, Q u [] → Q (u.passOn p f) [] := fun hu =>
    c.frame (bs := [.trunk, .records]) hu (changesOnly_passOn (by simp) (by simp) p f changesOnly_refl) (by decide)
  have counted : Q (t.countAccepted p f) [] :=
    c.frame (bs := [.trunk]) h (changesOnly_count (by simp) p _ changesOnly_refl) (by decide)
  unfold State.acceptedFrame
  dsimp only
  split
  · split
    · exact c.actOn _ f counted
    · exact passes (c.actOn _ f counted)
  · exact passes counted

theorem CoreClosed.countDrop (c : CoreClosed Q) (p : TrunkPort) (f : PortCounts → PortCounts) (h : Q t []) : Q (t.count p f) [] :=
  c.frame (bs := [.trunk]) h (changesOnly_count (by simp) p f changesOnly_refl) (by decide)

theorem CoreClosed.reception (c : CoreClosed Q) (p : TrunkPort) (bytes : List Byte) (h : Q t []) : Q (t.reception p bytes) [] := by
  unfold State.reception
  split
  · exact c.acceptedFrame p _ h
  · exact c.countDrop _ _ h

theorem CoreClosed.frameFromA (c : CoreClosed Q) (kind station hops : Byte) (body : List Byte) (h : Q t []) :
    Q (t.frameFromA kind station hops body) [] := by
  unfold State.frameFromA
  split
  · exact h
  · split
    · exact c.acceptedFrame .a _ h
    · exact c.countDrop _ _ h

/-! ### Resets -/

theorem CoreClosed.restartNow (c : CoreClosed Q) (k : RestartKind) (reply : Option TrunkFrame) (pins : PinSample) (h : Q t []) :
    Q (t.restartNow k reply pins) [] := by
  refine c.sampleHolds pins ?_
  cases k with
  | cold => exact c.congr _ t.coldBlocks _ ⟨rfl, rfl, rfl, rfl⟩ (c.cold _ h)
  | warm => exact c.congr _ t.warmBlocks _ ⟨rfl, rfl, rfl, rfl⟩ (c.warm _ h)

/-- A command that touches no block of the core keeps the property. -/
theorem CoreClosed.untouched (c : CoreClosed Q) {i : Instr} (h : Q t []) (resets : Instr.resets i = false)
    (core : ∀ b ∈ [Block.slots, .groups, .members, .store], b ∉ touched i) : Q (Machine.after i t) [] :=
  c.frame h (after_frame i resets) core

/-- Every command is made of operations on the core, and of updates outside it. -/
theorem CoreClosed.after (c : CoreClosed Q) (i : Instr) (h : Q t []) : Q (after i t) [] := by
  cases i with
  | tick order => exact keeps_unlessReset (Q := (Q · [])) h (c.tick order)
  | transitionLimitReached g =>
    exact keeps_unlessReset (Q := (Q · [])) h fun h => c.forceAll _ (c.checkLimit g h)
  | timeMark _ _ _ => exact c.frameFromA _ _ _ _ h
  | cue _ _ _ => exact c.frameFromA _ _ _ _ h
  | cueCancel _ _ _ => exact c.frameFromA _ _ _ _ h
  | request _ _ _ => exact c.frameFromA _ _ _ _ h
  | trunkFrame p line =>
    exact keeps_unlessReset (Q := (Q · [])) h
      (keeps_foldl (Q := (Q · [])) (f := State.reception p) (fun _ b ht => c.reception p b ht) (receptions line))
  | restartEffect pins =>
    refine keeps_unlessReset (Q := (Q · [])) h fun h => ?_
    unfold State.restartEffect
    split
    · exact c.restartNow _ _ _ h
    · exact h
  | setDay _ day => exact c.owned rfl h (c.setDayNumber _)
  | defineSlot _ _ _ _ _ _ _ _ => exact c.owned rfl h (c.defineSlot _ _ _ _ _ _ _)
  | releaseSlot _ slot => exact c.owned rfl h fun h => c.onDefinedSlot slot h fun i defined => c.release _ i h defined
  | loadPlan _ _ _ _ _ _ _ _ _ => exact c.owned rfl h (c.loadPlan _ _ _)
  | dropPlan _ _ _ _ => exact c.owned rfl h (c.dropPlan _ _ _)
  | readPlan _ _ _ _ => exact c.owned rfl h (c.readPlan _ _ _)
  | setGroup _ _ _ _ _ _ _ =>
    refine c.owned rfl h fun h => ?_
    unfold setGroup
    split
    · exact c.regroup _ _ h
    · exact h
  | setCalendar _ _ _ _ => exact c.owned rfl h (c.setCalendar _ _ _)
  | addBase _ _ _ _ _ _ => exact c.owned rfl h (c.addBase _ _ _ _ _)
  | addEvent _ _ _ _ _ _ _ _ _ => exact c.owned rfl h (c.addEvent _ _ _ _ _ _ _ _)
  | cutEntry _ _ _ => exact c.owned rfl h (c.cutEntry _ _)
  | directPlan _ _ _ _ => exact c.owned rfl h (c.directPlan _ _ _)
  | endDirect _ _ => exact c.owned rfl h (c.endDirect _)
  | setHoldMap _ line map =>
    refine c.owned rfl h fun h => ?_
    unfold Machine.setHoldMap
    split
    · exact h
    · exact c.setHoldMap _ _ h
  | clearOverride _ slot => exact c.owned rfl h (c.clearOverride _)
  | restartWarm src pins =>
    show Q (match encodeRequest (.restartWarm src pins) with
      | none => t
      | some r => if !t.carries r then t else if r.src.broadcast then t.restartNow .warm none pins else t.acceptRestart .warm r) []
    split
    · exact h
    · split
      · exact h
      · split
        · exact c.restartNow _ _ _ h
        · exact c.frame (bs := [.trunk, .mgmt]) h (acceptRestart_frame _ _) (by decide)
  | setRecording _ _ _ _ => exact c.owned rfl h (c.setRecording _ _ _)
  | checksumPlans _ _ _ _ => exact c.owned rfl h (c.checksumPlans _ _ _)
  | testLocation _ _ => exact c.owned rfl h (c.testLocation _)
  | forceCheck _ _ _ _ _ => exact c.owned rfl h (c.forceCheck _ _ _ _)
  | scrubControl _ _ => exact c.owned rfl h (c.scrubControl _)
  | status p d x pl n o ms line =>
    refine keeps_unlessReset (Q := (Q · [])) (u := match statusFields d x pl n o with
      | some f => t.takeStatus p f ms line
      | none => t.takeBadFrame p ms line) h fun h => ?_
    split
    · exact c.takeStatus p _ ms line h
    · exact c.setPort _ _ h
  | badFrame p bytes ms line => exact keeps_unlessReset (Q := (Q · [])) h (c.fieldReceptions p ms line _)
  | responseWindowExpiry p line => exact keeps_unlessReset (Q := (Q · [])) h (c.expireWindow p line)
  | lineBlocked p => exact keeps_unlessReset (Q := (Q · [])) h (c.blockLine p)
  | holdActivationEdge l =>
    exact keeps_unlessReset (Q := (Q · [])) h fun h => keeps_ite (Q := (Q · [])) h (fun _ => c.activationEdge l) fun _ h => h
  | holdReleaseEdge l =>
    exact keeps_unlessReset (Q := (Q · [])) h fun h => keeps_ite (Q := (Q · [])) h (fun _ => c.releaseEdge l) fun _ h => h
  | resetAssert => exact c.congr _ t.coldBlocks _ ⟨rfl, rfl, rfl, rfl⟩ (c.cold _ h)
  | resetRelease straps pins =>
    exact keeps_ite (Q := (Q · [])) h
      (fun _ h => c.sampleHolds pins (c.congr (t.lineSampled straps pins) t _ ⟨rfl, rfl, rfl, rfl⟩ h)) fun _ h => h
  | _ => exact c.untouched h rfl (by simp [touched])

theorem CoreClosed.step (c : CoreClosed Q) (h : Q t []) (hs : step t = .next u) : Q u [] :=
  step_keeps (Q := (Q · [])) (fun t _ h => c.congr _ t _ ⟨rfl, rfl, rfl, rfl⟩ h) (fun i _ h => c.after i h) h hs

end

end Sys2Proof.Machine
end

section
/-! PROOFS. Every command keeps every slot in the shape of its state (O56). -/

namespace Sys2Proof.Machine

variable {s t u : State} {i j : Fin 64}

theorem shapely_targetEvent (hs : s.shapely) (i : Fin 64) (n : Nat) (k : Option Layer) (m : Option Mode) :
    (s.targetEvent i n k m).1.shapely := by
  by_cases defined : (s.slot i).state = .unused
  · rw [State.targetEvent, if_pos defined]
    exact hs
  · exact shapely_of_engine hs defined (fun _ q h => q.targetEvent n k m h) fun h => fits_targetEvent h n k m

theorem shapely_takeOutcome (hs : s.shapely) (i : Fin 64) (o : ExchangeOutcome) (r : FieldOverride) :
    (s.takeOutcome i o r).1.shapely := by
  by_cases defined : (s.slot i).state = .unused
  · have nothing : s.takeOutcome i o r = (s, []) := if_pos (.inl defined)
    rw [nothing]
    exact hs
  · exact shapely_of_engine hs defined (fun _ q h => q.takeOutcome o r h) fun h => fits_takeOutcome h o r

theorem run_of_unused (hs : s.shapely) (h : (s.slot i).state = .unused) : (s.slot i).run = none := by
  rw [(hs i).1 h]
  rfl

theorem shapely_advanceSlot (hs : s.shapely) (i : Fin 64) (k : Nat) : (s.advanceSlot i k).1.shapely := by
  by_cases defined : (s.slot i).state = .unused
  · rw [State.advanceSlot, run_of_unused hs defined]
    exact hs
  · exact shapely_of_engine hs defined (fun _ q h => q.advanceSlot k h) fun h => fits_advanceSlot h k

theorem shapely_setSlot (hs : s.shapely) {x : Slot} (hx : x.shaped) : (s.setSlot i x).shapely := fun j => by
  rw [State.setSlot_slot]
  split
  · exact hx
  · exact hs j

theorem shapely_forceImmediate (hs : s.shapely) (i : Fin 64) : (s.forceImmediate i).shapely := by
  refine shapely_setSlot hs ?_
  have shaped := hs i
  refine ⟨fun unused => ?_, by simpa [Slot.shaped] using shaped.2⟩
  rw [shaped.1 unused]
  rfl

/-- An update of a defined slot that fits. -/
theorem shapely_write (hs : s.shapely) (defined : (s.slot i).state ≠ .unused) {x : Slot} (state : x.state = (s.slot i).state)
    (fits : (s.slot i).fits → x.fits) : (s.setSlot i x).shapely :=
  shapely_setSlot hs ((Slot.shaped_of_defined (state ▸ defined)).mpr (fits ((Slot.shaped_of_defined defined).mp (hs i))))

theorem groupClosed_shapely : GroupClosed State.shapely where
  raise _ _ _ h := shapely_congr rfl h
  force _ i h := shapely_forceImmediate h i
  group _ _ _ h := shapely_congr rfl h
  member _ _ _ h := shapely_congr rfl h

/-- The coordinator leaves every value of a slot but the forced-immediate flag of its transition. -/
theorem groupClosed_slot {α : Type} (i : Fin 64) (f : Slot → α) (forced : ∀ x tr, f { x with trans := tr } = f x) (a : α) :
    GroupClosed fun t => f (t.slot i) = a where
  raise _ _ _ h := h
  force t j h := by
    unfold State.forceImmediate
    rw [State.setSlot_slot]
    split
    next e => rw [forced, e, h]
    next => exact h
  group _ _ _ h := h
  member _ _ _ h := h

theorem shapely_define (hs : s.shapely) (d : SlotIdentity) : (s.define d).shapely := by
  have shaped : (s.newSlot d).shaped := by simp [State.newSlot, Slot.shaped, Slot.unused]
  have placed := groupClosed_shapely.takeMember ⟨d.slot, .joining, 0, some d.group⟩ (shapely_setSlot (i := d.slot) hs shaped)
  refine groupClosed_shapely.deliver (shapely_of_engine placed ?_ (fun _ q h => q.positionAttempt h) fits_positionAttempt)
  have state := (groupClosed_slot d.slot Slot.state (fun _ _ => rfl) .joining).takeMember (t := s.setSlot d.slot (s.newSlot d))
    ⟨d.slot, .joining, 0, some d.group⟩ (by simp [State.newSlot])
  rw [state]
  simp

theorem shapely_releaseSlot (hs : s.shapely) (i : Fin 64) : (s.releaseSlot i).shapely := by
  refine groupClosed_shapely.takeMember _ fun j => ?_
  rw [State.setSlot_slot]
  split
  next => exact Slot.shaped_unused
  next hj =>
    have stands := (slotClosed_other (x := s.slot j) (Ne.symm hj)).endTransition .released rfl
    simpa [stands] using hs j

theorem Slot.warm_shaped {x : Slot} (h : x.shaped) : x.warm.shaped := by
  unfold Slot.warm
  split
  · exact h
  · simp [Slot.shaped, Slot.unused]

theorem coreClosed_shapes : CoreClosed fun t _ => t.shapely where
  congr t u es h hu := shapely_congr h.1 hu
  advance t es i k h := shapely_advanceSlot h i k
  joinCause t es i c h := shapely_joinCause h i c
  leaveCause t es i c h := shapely_leaveCause h i c
  outcome t i o r h := shapely_takeOutcome h i o r
  select t es g r h _ := groupClosed_shapely.takeSelection (fun _ i n k m h => shapely_targetEvent h i n k m) g r h
  force t es i h := shapely_forceImmediate h i
  flag t es i h run := shapely_write h (fun unused => by simp [run_of_unused h unused] at run) rfl (by simp [Slot.fits])
  deliver t es p h := groupClosed_shapely.takeMembers _ h
  group t es g x h _ := shapely_congr rfl h
  settle t g x h := groupClosed_shapely.settle g true (shapely_congr rfl h)
  rewrite t es l l' h _ _ := shapely_congr rfl h
  scalars t es st h _ := shapely_congr rfl h
  load t i plan p w h _ _ _ _ := shapely_congr rfl h
  dropRecord t i plan r h _ _ := shapely_congr rfl h
  dropShadow t i plan r sh h _ _ := shapely_congr rfl h
  define t d h _ := shapely_define h d
  release t i h _ := shapely_releaseSlot h i
  recording t i b h defined := shapely_write h defined rfl (by simp [Slot.fits])
  latch t i h defined := shapely_write h defined rfl (by grind [Slot.fits])
  warm t h i := by simpa [State.warmBlocks, State.slot] using Slot.warm_shaped (h i)
  cold t _ i := by simpa [State.coldBlocks, State.slot] using Slot.shaped_unused

/-- Settles O56: the shapes outlive every operation on the slots. -/
theorem slotShapesKept : Obligations.SlotShapesKept := fun _ _ h hs => coreClosed_shapes.step h hs

end Sys2Proof.Machine
end

section
/-! PROOFS. Every command keeps the member view true and every group decided (O58). What the events still on their way will show
of a slot is what its context says. -/

namespace Sys2Proof.Machine

variable {s t u : State} {i j : Fin 64} {es fs : List MemberEvent}

/-! ### What the member view is to show -/

/-- R81: what the member view is to hold of a slot. -/
def Slot.view (x : Slot) : Option Member := if x.state = .unused then none else some ⟨x.group, x.state, x.current⟩

/-- R81: what the member view holds of a slot after an event of it, when it held `v` before. -/
def MemberEvent.seen (v : Option Member) (e : MemberEvent) : Option Member :=
  v.bind fun m => if e.state = .unused then none else some ⟨m.group, e.state, e.current⟩

/-- What the member view will hold of slot `i` when `es` have arrived. -/
def seenBy (i : Fin 64) (es : List MemberEvent) (v : Option Member) : Option Member :=
  (es.filter fun e => decide (e.slot = i)).foldl MemberEvent.seen v

@[simp] theorem seenBy_nil (i : Fin 64) (v : Option Member) : seenBy i [] v = v := rfl

theorem seenBy_append (i : Fin 64) (es fs : List MemberEvent) (v : Option Member) : seenBy i (es ++ fs) v = seenBy i fs (seenBy i es v) := by
  simp [seenBy]

theorem seenBy_others {v : Option Member} (h : ∀ e ∈ es, e.slot ≠ i) : seenBy i es v = v := by
  have empty : (es.filter fun e => decide (e.slot = i)) = [] := List.filter_eq_nil_iff.mpr fun e he => by simpa using h e he
  simp [seenBy, empty]

theorem seenBy_cons (i : Fin 64) (e : MemberEvent) (es : List MemberEvent) (v : Option Member) :
    seenBy i (e :: es) v = seenBy i es (if e.slot = i then MemberEvent.seen v e else v) := by
  unfold seenBy
  split <;> simp [*]

/-- Events chosen by their slots: all of a slot's or none of them. -/
theorem seenBy_filter (p : Fin 64 → Bool) (i : Fin 64) (es : List MemberEvent) (v : Option Member) :
    seenBy i (es.filter fun e => p e.slot) v = if p i then seenBy i es v else v := by
  split
  next chosen =>
    unfold seenBy
    rw [List.filter_filter]
    congr 1
    refine List.filter_congr fun e _ => ?_
    by_cases h : e.slot = i <;> simp [h, chosen]
  next left =>
    refine seenBy_others fun e he h => left ?_
    rw [← h]
    exact (List.mem_filter.mp he).2

/-! ### Operations tell what they change -/

/-- An operation leaves the coordinator, and sends the events that bring the member view to what it leaves at the slots. -/
structure Tells (s : State) (a : Sent) : Prop where
  groups : a.1.groups = s.groups
  members : a.1.members = s.members
  plain : ∀ e ∈ a.2, e.group = none
  seen : ∀ j, seenBy j a.2 (s.slot j).view = (a.1.slot j).view

theorem Tells.andThen {a : Sent} {f : State → Sent} (h : Tells s a) (hf : Tells a.1 (f a.1)) : Tells s (a.andThen f) where
  groups := hf.groups.trans h.groups
  members := hf.members.trans h.members
  plain e he := (List.mem_append.mp he).elim (h.plain e) (hf.plain e)
  seen j := by
    rw [Sent.andThen, seenBy_append, h.seen j]
    exact hf.seen j

/-- An operation that sends nothing, and one after it. -/
theorem Tells.after {a : Sent} (ha : Tells t a) (h : Tells s (t, [])) : Tells s a := h.andThen (f := fun _ => a) ha

theorem tells_refl (s : State) : Tells s (s, []) := ⟨rfl, rfl, fun _ h => (nomatch h), fun _ => rfl⟩

theorem slotClosed_coordinator (i : Fin 64) (s : State) : SlotClosed i fun t => t.groups = s.groups ∧ t.members = s.members where
  slot _ _ ht _ := ht
  read _ _ ht _ _ := ht
  promote _ _ ht := ht
  removeEntry _ ht := ht
  handOver _ _ ht := ht
  raise _ _ _ ht := ht
  record _ _ ht _ := ht

theorem slotClosed_identity (i : Fin 64) (s : State) : SlotClosed i fun t => (t.slot i).identity = (s.slot i).identity where
  slot t y ht hw := by
    rw [State.setSlot_slot_same, hw.1]
    exact ht
  read _ _ ht _ _ := ht
  promote _ _ ht := ht
  removeEntry _ ht := ht
  handOver _ _ ht := ht
  raise _ _ _ ht := ht
  record _ _ ht _ := ht

theorem group_of_engine (closed : ∀ Q, SlotClosed i Q → Q s → Q t) : (t.slot i).group = (s.slot i).group :=
  congrArg (fun d : Nat × Fin 4 × Nat × Fin 16 × Nat × OverrideMode × Bool => d.2.2.2.1) (closed _ (slotClosed_identity i s) rfl)

/-- An operation of one slot's engine tells what it tells of that slot. -/
theorem tells_of_slot {a : Sent} (closed : ∀ Q, SlotClosed i Q → Q s → Q a.1) (own : ∀ e ∈ a.2, e.slot = i ∧ e.group = none)
    (seen : seenBy i a.2 (s.slot i).view = (a.1.slot i).view) : Tells s a where
  groups := (closed _ (slotClosed_coordinator i s) ⟨rfl, rfl⟩).1
  members := (closed _ (slotClosed_coordinator i s) ⟨rfl, rfl⟩).2
  plain e he := (own e he).2
  seen j := by
    by_cases h : j = i
    · rw [h]
      exact seen
    · rw [closed _ (slotClosed_other (x := s.slot j) h) rfl]
      exact seenBy_others fun e he same => h (same ▸ (own e he).1)

/-- An operation that sends nothing, and changes neither state nor current plan. -/
theorem tells_nothing (closed : ∀ Q, SlotClosed i Q → Q s → Q t) (state : (t.slot i).state = (s.slot i).state)
    (current : (t.slot i).current = (s.slot i).current) : Tells s (t, []) := by
  refine tells_of_slot closed (fun _ h => nomatch h) ?_
  simp [Slot.view, state, current, group_of_engine closed]

/-- An operation at a defined slot that sends what it leaves there. -/
theorem tells_change {a : Sent} (closed : ∀ Q, SlotClosed i Q → Q s → Q a.1) (defined : (s.slot i).state ≠ .unused)
    (sent : a.2 = [memberEvent i (a.1.slot i).state (a.1.slot i).current]) : Tells s a := by
  refine tells_of_slot closed (by simp [sent, memberEvent]) ?_
  have still := closed _ slotClosed_defined defined
  simp [sent, seenBy, memberEvent, MemberEvent.seen, Slot.view, defined, still, group_of_engine closed]

theorem tells_enterOverridden (defined : (s.slot i).state ≠ .unused) : Tells s (s.enterOverridden i) := by
  refine tells_change (fun _ c h => c.enterOverridden h) defined ?_
  have slot := enterOverridden_slot s i
  rw [slot.1]
  exact slot.2

/-- An update of the slot that leaves what the member view holds of it. -/
theorem tells_write {x : Slot} (identity : x.identity = (s.slot i).identity) (state : x.state = (s.slot i).state)
    (run : (s.slot i).run.isSome = true → x.run.isSome = true) (current : x.current = (s.slot i).current) :
    Tells s (s.setSlot i x, []) :=
  tells_nothing (i := i) (fun _ c h => c.write h identity (by rw [state]; exact id) run) (by simpa using state) (by simpa using current)

theorem tells_joinCause (s : State) (i : Fin 64) (c : OverrideCause) : Tells s (s.joinCause i c) := by
  rcases joinCause_cases s i c with ⟨-, e⟩ | ⟨-, -, -, e⟩ | ⟨defined, -, -, -, e⟩ <;> rw [e]
  · exact tells_refl s
  · exact tells_write rfl rfl id rfl
  · exact (tells_enterOverridden (by simpa using defined)).after (tells_write rfl rfl id rfl)

theorem tells_leaveCause (s : State) (i : Fin 64) (c : OverrideCause) : Tells s (s.leaveCause i c, []) := tells_write rfl rfl id rfl

theorem place_closed (s : State) (i : Fin 64) (pl : Plan) (Q : State → Prop) (c : SlotClosed i Q) (h : Q s) : Q (s.place i pl) :=
  c.write (c.readRecord i _ h) (by rw [readRecord_slot]; rfl) (by rw [readRecord_slot]; exact id)

theorem tells_positionAttempt (s : State) (i : Fin 64) : Tells s (s.positionAttempt i) := by
  have placed : ∀ pl, s.seeks i → Tells s (s.place i pl, [memberEvent i .joining (s.slot i).target]) := fun pl seeks =>
    tells_change (place_closed s i pl) (by simp [seeks.1]) (by simp [place_slot, seeks.1])
  rcases positionAttempt_cases s i with ⟨-, e⟩ | ⟨-, -, e⟩ | ⟨seeks, pl, -, -, e⟩ | ⟨seeks, pl, -, -, e⟩ <;> rw [e]
  · exact tells_refl s
  · exact tells_nothing (i := i) (fun _ c h => c.readRecord i _ h) (by rw [readRecord_slot]) (by rw [readRecord_slot])
  · exact placed pl seeks
  · exact (placed pl seeks).andThen (f := fun t => t.enterOverridden i) (tells_enterOverridden (by simp [place_slot, seeks.1]))

theorem tells_targetEvent (s : State) (i : Fin 64) (n : Nat) (k : Option Layer) (m : Option Mode) : Tells s (s.targetEvent i n k m) := by
  unfold State.targetEvent
  dsimp only
  split
  · exact tells_refl s
  · exact (tells_positionAttempt _ i).after (tells_write rfl rfl id rfl)

theorem tells_enterLost (defined : (s.slot i).state ≠ .unused) : Tells s (s.enterLost i) := by
  refine tells_change (fun _ c h => c.enterLost h) defined ?_
  simp [enterLost_slot, enterLost_events]

theorem tells_miss (s : State) (i : Fin 64) (k : MissKind) : Tells s (s.miss i k) := by
  have current : ((s.slot i).countMiss k).current = (s.slot i).current := by cases k <;> rfl
  have run : (s.slot i).run.isSome = true → ((s.slot i).countMiss k).run.isSome = true := by rw [Slot.countMiss_run]; exact id
  have taken : Tells s (s.setSlot i ((s.slot i).takeMiss k), []) :=
    tells_write (Slot.countMiss_identity _ k) (Slot.countMiss_state _ k) run current
  rcases miss_cases s i k with ⟨-, e⟩ | ⟨-, -, e⟩ | ⟨counts, -, e⟩ <;> rw [e]
  · exact tells_write (Slot.countMiss_identity _ k) (Slot.countMiss_state _ k) run current
  · exact taken
  · refine (tells_enterLost ?_).after taken
    rw [State.setSlot_slot_same, show ((s.slot i).takeMiss k).state = _ from Slot.countMiss_state _ k]
    rcases counts with h | h <;> simp [h]

theorem tells_goodOutcome (s : State) (i : Fin 64) : Tells s (s.goodOutcome i) := by
  have closed := fun (Q : State → Prop) (c : SlotClosed i Q) (h : Q s) => c.goodOutcome h
  unfold State.goodOutcome at closed ⊢
  dsimp only at closed ⊢
  split
  next state => simp only [state] at closed; exact tells_change closed (by simp [state]) (by simp)
  next state => simp only [state] at closed; exact tells_change closed (by simp [state]) (by simp)
  · exact tells_write rfl rfl id rfl

theorem tells_takeOverride (s : State) (i : Fin 64) (o : FieldOverride) : Tells s (s.takeOverride i o) := by
  have reported : Tells s (s.setSlot i { s.slot i with lastOverride := o }, []) := tells_write rfl rfl id rfl
  unfold State.takeOverride
  dsimp only
  split
  · exact (tells_leaveCause _ i _).after reported
  · exact (tells_joinCause _ i _).after reported

theorem tells_takeOutcome (s : State) (i : Fin 64) (o : ExchangeOutcome) (r : FieldOverride) : Tells s (s.takeOutcome i o r) := by
  unfold State.takeOutcome
  dsimp only
  split
  · exact tells_refl s
  · split
    · exact (tells_goodOutcome s i).andThen (f := fun t => t.takeOverride i r) (tells_takeOverride _ i r)
    · exact tells_miss s i _
    · exact tells_miss s i _
    · exact (tells_miss s i .content).andThen (f := fun t => t.takeOverride i r) (tells_takeOverride _ i r)

/-! ### A boundary tells what it changes -/

/-- The steps of a boundary leave an UNUSED slot UNUSED. -/
theorem boundarySteps_unused (h : (s.slot i).state = .unused) (p : Nat) : ((s.boundarySteps i p).slot i).state = .unused := by
  have begun : ((s.setSlot i ((s.slot i).beginCycle p)).slot i).state = .unused := by simpa [Slot.beginCycle] using h
  have exit : ∀ {t : State}, (t.slot i).state = .unused → t.exitStep i = t := fun ht => by simp [State.exitStep, ht]
  have target : ∀ {t : State}, (t.slot i).state = .unused → t.adoptTarget i = (t, none) := fun ht => by
    simp [State.adoptTarget, Slot.adopts, ht]
  have shadow : ∀ {t : State} (n a), (t.slot i).state = .unused → ((t.shadowStep i n a).1.slot i).state = .unused := fun {t} n a ht => by
    unfold State.shadowStep
    dsimp only
    split
    · split
      · exact ht
      · have slot := readRecord_slot (t.setStore (t.store.promote i n)) i n i
        split <;> rename_i e <;> rw [e] at slot <;> simpa [slot] using ht
    · exact ht
  have evaluated : ∀ {t : State} (a), (t.slot i).state = .unused → ((t.stepAndEvaluate i a).slot i).state = .unused := fun a ht => by
    simp [State.stepAndEvaluate, State.evaluationStep, ht]
  unfold State.boundarySteps
  dsimp only
  rw [exit begun]
  refine evaluated _ ?_
  rw [State.adoptionStep, target begun]
  exact shadow _ _ begun

theorem tells_changeEvents (closed : ∀ Q, SlotClosed i Q → Q s → Q t)
    (unused : (s.slot i).state = .unused → (t.slot i).state = .unused) : Tells s (t, changeEvents i (s.slot i) (t.slot i)) := by
  by_cases changed : (t.slot i).state ≠ (s.slot i).state ∨ (t.slot i).current ≠ (s.slot i).current
  · rw [changeEvents, if_pos changed]
    by_cases defined : (s.slot i).state = .unused
    · refine tells_of_slot closed (by simp [memberEvent]) ?_
      simp [Slot.view, defined, unused defined, seenBy, memberEvent, MemberEvent.seen]
    · exact tells_change closed defined rfl
  · rw [changeEvents, if_neg changed]
    obtain ⟨state, current⟩ := not_or.mp changed
    exact tells_nothing closed (not_not.mp state) (not_not.mp current)

theorem tells_handOverStep (s : State) (i : Fin 64) : Tells s (s.handOverStep i) := by
  have handed : Tells s (s.setPort (s.slot i).port ((s.port (s.slot i).port).handOver i (s.slot i).decideFrame).1, []) :=
    tells_nothing (i := i) (fun _ c h => c.handOver _ _ h) rfl rfl
  unfold State.handOverStep
  dsimp only
  split
  · exact handed
  · exact (tells_miss _ i _).after handed

theorem tells_boundary (s : State) (i : Fin 64) (p : Nat) : Tells s (s.boundary i p) := by
  have steps := tells_changeEvents (fun _ c h => c.boundarySteps p h) (boundarySteps_unused (s := s) (i := i) · p)
  unfold State.boundary
  dsimp only
  generalize s.boundarySteps i p = u at steps ⊢
  exact steps.andThen (f := fun t => t.handOverStep i) (tells_handOverStep u i)

theorem tells_advanceSlot (s : State) (i : Fin 64) (k : Nat) : Tells s (s.advanceSlot i k) := by
  unfold State.advanceSlot
  split
  · exact tells_refl s
  · split
    · exact tells_write rfl rfl (fun _ => rfl) rfl
    · exact tells_boundary s i _

end Sys2Proof.Machine
end

section
/-! PROOFS. The settlement decision reads a group's settings and its own members alone, and each settlement takes it (O58). -/

namespace Sys2Proof.Machine

variable {s t u : State} {i j : Fin 64} {g h : Fin 16} {es fs : List MemberEvent}

/-! ### What a decision reads -/

/-- The members of a group in the member view. -/
def State.inView (s : State) (g : Fin 16) (i : Fin 64) : Option Member := (s.member i).filter fun m => m.group == g

theorem inView_isSome (s : State) (g : Fin 16) (i : Fin 64) : (s.inView g i).isSome = (s.member i).any fun m => m.group == g := by
  unfold State.inView
  cases s.member i with
  | none => rfl
  | some m => simp only [Option.filter_some, Option.any_some]; split <;> simp_all

theorem inView_of_mem (hi : i ∈ s.membersOf g) : s.inView g i = s.member i := by
  have held : ((s.member i).any fun m => m.group == g) = true := (List.mem_filter.mp hi).2
  unfold State.inView
  cases e : s.member i with
  | none => rfl
  | some m => rw [Option.filter_some, if_pos (by simpa [e] using held)]

theorem membersOf_congr (view : ∀ i, t.inView g i = s.inView g i) : t.membersOf g = s.membersOf g := by
  refine List.filter_congr fun i _ => ?_
  rw [← inView_isSome, ← inView_isSome, view]

/-- What the decision of a group reads. -/
def Group.reads (x : Group) : Policy × Nat × Bool := (x.policy, x.target, x.adopted)

/-- R82, R83: the decision reads a group's policy, target and adopted flag, and its members. -/
theorem decision_congr (group : (t.group g).reads = (s.group g).reads) (view : ∀ i, t.inView g i = s.inView g i) :
    t.decision g = s.decision g := by
  obtain ⟨policy, target, adopted⟩ : (t.group g).policy = (s.group g).policy ∧ (t.group g).target = (s.group g).target ∧
      (t.group g).adopted = (s.group g).adopted := by simpa [Group.reads] using group
  have members := membersOf_congr view
  have member : ∀ i ∈ s.membersOf g, t.member i = s.member i := fun i hi => by
    rw [← inView_of_mem hi, ← view i, inView_of_mem (members ▸ hi)]
  have settles : (t.group g).settles = (s.group g).settles := funext fun m => by simp [Group.settles, policy, target]
  have settled : t.allSettled g = s.allSettled g := by
    unfold State.allSettled
    rw [members, settles]
    exact Bool.eq_iff_iff.mpr (by simp only [List.all_eq_true]; exact forall₂_congr fun i hi => by rw [member i hi])
  have overridden : t.someOverridden g none = s.someOverridden g none := by
    unfold State.someOverridden
    rw [members]
    exact Bool.eq_iff_iff.mpr (by simp only [List.any_eq_true]; exact exists_congr fun i => and_congr_right fun hi => by rw [member i hi])
  simp only [State.decision, settled, overridden, policy, adopted]

theorem inView_setMember_other (m : Option Member) (old : (s.inView g j) = none) (new : m.filter (fun m => m.group == g) = none) (i : Fin 64) :
    (s.setMember j m).inView g i = s.inView g i := by
  unfold State.inView at *
  rw [State.setMember_member]
  split
  next same => rw [← same, old, new]
  next => rfl

/-! ### Settlements -/

/-- Every group but perhaps `g` is in its decided state. -/
def State.decidedBut (s : State) (g : Fin 16) : Prop := ∀ h, h ≠ g → (s.group h).state = s.decision h

theorem decidedBut_setGroup (hs : s.decidedBut g) (x : Group) : (s.setGroup g x).decidedBut g := fun h hg => by
  have stands : (s.setGroup g x).group h = s.group h := State.setGroup_group_ne _ _ _ _ (Ne.symm hg)
  rw [stands, hs h hg]
  exact (decision_congr (s := s) (t := s.setGroup g x) (by rw [stands]) fun _ => rfl).symm

/-- R83: a settlement decides its group. -/
theorem groupsDecided_settle (hs : s.decidedBut g) (change : Bool) : (s.settle g change).groupsDecided := by
  have taken : ∀ {t : State}, t.decidedBut g → (t.setGroup g { t.group g with state := t.decision g }).groupsDecided := fun {t} ht h => by
    by_cases hg : h = g
    · subst hg
      rw [State.setGroup_group_same]
      exact (decision_congr (s := t) (t := t.setGroup h { t.group h with state := t.decision h }) (by rw [State.setGroup_group_same]; rfl) fun _ => rfl).symm
    · exact decidedBut_setGroup ht _ h hg
  unfold State.settle
  dsimp only
  split
  · have settled := taken (decidedBut_setGroup hs { s.group g with elapsed := 0, reported := false, adopted := true })
    split <;> exact settled
  · have settled := taken hs
    split <;> exact settled

/-- A change of a slot's entry in the view, in its own group, leaves every other group decided. -/
theorem decidedBut_setMember (hs : s.decidedBut g) {m : Option Member} (old : ∀ x, s.member i = some x → x.group = g)
    (new : ∀ x, m = some x → x.group = g) : (s.setMember i m).decidedBut g := fun h hg => by
  have other : ∀ {v : Option Member}, (∀ x, v = some x → x.group = g) → v.filter (fun x => x.group == h) = none := fun {v} hv =>
    Option.filter_eq_none_iff.mpr fun x hx => by simp [hv x hx, Ne.symm hg]
  rw [State.setMember_group, hs h hg]
  exact (decision_congr (s := s) (t := s.setMember i m) (by rw [State.setMember_group]) (inView_setMember_other m (other old) (other new))).symm

theorem groupsDecided_forceImmediate (hs : s.groupsDecided) (i : Fin 64) : (s.forceImmediate i).groupsDecided := hs

/-- R81, R83: a member event of a slot that stays in its group, or enters one, leaves every group decided. -/
theorem groupsDecided_takeMember (hs : s.groupsDecided) (e : MemberEvent)
    (stays : ∀ g, e.group = some g → ∀ x, s.member e.slot = some x → x.group = g) : (s.takeMember e).groupsDecided := by
  have decided : ∀ g, s.decidedBut g := fun g h _ => hs h
  unfold State.takeMember
  split
  next _ _ g entered => exact groupsDecided_settle (decidedBut_setMember (decided _) (stays g entered) (by simp)) _
  next => exact hs
  next old _ held =>
    have own : ∀ x, s.member e.slot = some x → x.group = old.group := fun x hx => by
      rw [held] at hx
      rw [Option.some.inj hx]
    have adopted : (s.adoptedBy old.group old e.current).decidedBut old.group := by
      unfold State.adoptedBy
      split
      · exact decidedBut_setGroup (decided _) _
      · exact decided _
    have view : (s.adoptedBy old.group old e.current).member e.slot = s.member e.slot := by
      unfold State.adoptedBy
      split <;> rfl
    dsimp only
    split
    · exact groupsDecided_settle (decidedBut_setMember (decided _) own (by simp)) _
    · have settled := groupsDecided_settle (decidedBut_setMember (m := some ⟨old.group, e.state, e.current⟩) adopted (by rwa [view]) (by simp)) true
      split
      · exact groupsDecided_forceImmediate settled _
      · exact settled

/-! ### Member events arrive -/

theorem settle_members (s : State) (g : Fin 16) (change : Bool) : (s.settle g change).members = s.members :=
  (changesOnly_settle (bs := [.groups, .records]) g change (by simp) (by simp) changesOnly_refl).2.2 .members (by simp)

theorem settle_slots (s : State) (g : Fin 16) (change : Bool) : (s.settle g change).slots = s.slots :=
  (changesOnly_settle (bs := [.groups, .records]) g change (by simp) (by simp) changesOnly_refl).2.2 .slots (by simp)

theorem member_congr (h : t.members = s.members) (i : Fin 64) : t.member i = s.member i := congrArg (Vector.get · i) h

/-- R81: what the member view holds after a member event of a slot that stays in its group. -/
theorem takeMember_member (e : MemberEvent) (plain : e.group = none) (i : Fin 64) :
    (s.takeMember e).member i = if e.slot = i then MemberEvent.seen (s.member i) e else s.member i := by
  unfold State.takeMember
  rw [plain]
  cases held : s.member e.slot with
  | none =>
    dsimp only
    split
    next same => rw [← same, held]; rfl
    next => rfl
  | some old =>
    have adopted : (s.adoptedBy old.group old e.current).members = s.members := by
      unfold State.adoptedBy
      split <;> rfl
    have written : ∀ m, (if e.state = .unused then none else some ⟨old.group, e.state, e.current⟩) = m →
        ∀ t : State, t.members = s.members → (t.setMember e.slot m).member i =
          if e.slot = i then MemberEvent.seen (s.member i) e else s.member i := by
      intro m hm t ht
      rw [State.setMember_member, member_congr ht]
      split
      next same => rw [← same, held, ← hm]; rfl
      next => rfl
    dsimp only
    split
    next unused => rw [member_congr (settle_members _ _ _), written none (by simp [unused]) s rfl]
    next unused =>
      have settled : ∀ u : State, u.members = ((((s.adoptedBy old.group old e.current).setMember e.slot
          (some ⟨old.group, e.state, e.current⟩)).settle old.group true)).members → u.member i =
          if e.slot = i then MemberEvent.seen (s.member i) e else s.member i := fun u hu => by
        rw [member_congr hu, member_congr (settle_members _ _ _), written _ (by simp [unused]) _ adopted]
      split
      · exact settled _ rfl
      · exact settled _ rfl

theorem takeMembers_member (es : List MemberEvent) (plain : ∀ e ∈ es, e.group = none) (i : Fin 64) :
    (s.takeMembers es).member i = seenBy i es (s.member i) := by
  induction es generalizing s with
  | nil => rfl
  | cons e es ih =>
    rw [State.takeMembers, List.foldl_cons, ← State.takeMembers, ih fun d hd => plain d (by simp [hd]),
      takeMember_member e (plain e (by simp)), seenBy_cons]

theorem groupsDecided_takeMembers (hs : s.groupsDecided) (es : List MemberEvent) (plain : ∀ e ∈ es, e.group = none) :
    (s.takeMembers es).groupsDecided :=
  List.foldlRecOn (motive := State.groupsDecided) es _ hs fun t ht e he => groupsDecided_takeMember ht e (by simp [plain e he])

/-! ### The member view and the groups -/

/-- The member view will be true when `es` have arrived, and every group is decided. -/
structure InStep (t : State) (es : List MemberEvent) : Prop where
  plain : ∀ e ∈ es, e.group = none
  view : ∀ i, seenBy i es (t.member i) = (t.slot i).view
  decided : t.groupsDecided

theorem inStep_nil_iff : InStep t [] ↔ t.viewAgrees ∧ t.groupsDecided :=
  ⟨fun h => ⟨h.view, h.decided⟩, fun h => ⟨fun _ he => (nomatch he), h.1, h.2⟩⟩

theorem group_congr (h : t.groups = s.groups) (g : Fin 16) : t.group g = s.group g := congrArg (Vector.get · g) h

theorem slot_congr (h : t.slots = s.slots) (i : Fin 64) : t.slot i = s.slot i := congrArg (Vector.get · i) h

theorem groupsDecided_congr (groups : t.groups = s.groups) (members : t.members = s.members) (hs : s.groupsDecided) : t.groupsDecided :=
  fun g => by
    rw [group_congr groups, hs g]
    exact (decision_congr (by rw [group_congr groups]) fun i => by rw [State.inView, member_congr members]; rfl).symm

/-- Another state of the slots of which the view says the same. -/
theorem InStep.congr (h : InStep s es) (groups : t.groups = s.groups) (members : t.members = s.members)
    (slots : ∀ i, (t.slot i).view = (s.slot i).view) : InStep t es where
  plain := h.plain
  view i := by rw [member_congr members, h.view, slots]
  decided := groupsDecided_congr groups members h.decided

/-- An operation that tells what it changes keeps the view in step. -/
theorem InStep.tells {a : Sent} (h : InStep s es) (ha : Tells s a) : InStep a.1 (es ++ a.2) where
  plain e he := (List.mem_append.mp he).elim (h.plain e) (ha.plain e)
  view i := by rw [seenBy_append, member_congr ha.members, h.view, ha.seen]
  decided := groupsDecided_congr ha.groups ha.members h.decided

theorem InStep.write (h : InStep s es) {x : Slot} (same : x.view = (s.slot i).view) : InStep (s.setSlot i x) es :=
  h.congr rfl rfl fun j => by
    rw [State.setSlot_slot]
    split
    next e => rw [same, e]
    next => rfl

/-- The coordinator leaves what the view is to hold of a slot. -/
theorem groupClosed_view (i : Fin 64) (v : Option Member) : GroupClosed fun t => (t.slot i).view = v :=
  groupClosed_slot i Slot.view (fun _ _ => rfl) v

/-- R81: events of chosen slots arrive. -/
theorem InStep.deliver (h : InStep s es) (p : Fin 64 → Bool) :
    InStep (s.takeMembers (es.filter fun e => p e.slot)) (es.filter fun e => !p e.slot) where
  plain e he := h.plain e (List.mem_of_mem_filter he)
  view i := by
    rw [takeMembers_member _ fun e he => h.plain e (List.mem_of_mem_filter he), seenBy_filter, seenBy_filter (fun j => !p j),
      (groupClosed_view i (s.slot i).view).takeMembers _ rfl, ← h.view i]
    cases p i <;> rfl
  decided := groupsDecided_takeMembers h.decided _ fun e he => h.plain e (List.mem_of_mem_filter he)

theorem InStep.deliverAll {a : Sent} (h : InStep a.1 a.2) : InStep a.deliver [] := by
  have taken := h.deliver fun _ => true
  simpa [Sent.deliver] using taken

/-- R83: a group record is replaced, and its settlement decided. -/
theorem InStep.settle (h : InStep s es) (x : Group) (change : Bool) : InStep ((s.setGroup g x).settle g change) es where
  plain := h.plain
  view i := by
    rw [member_congr (settle_members _ _ _), State.setGroup_member, h.view i, slot_congr (settle_slots _ _ _), State.setGroup_slot]
  decided := groupsDecided_settle (decidedBut_setGroup (fun g _ => h.decided g) x) change

/-! ### Selections -/

/-- Operations at slots in turn: what they tell together. -/
theorem tells_overSlots {f : State → Fin 64 → Sent} (hf : ∀ t i, Tells t (f t i)) (is : List (Fin 64)) (s : State) :
    Tells s (overSlots is f s) :=
  List.foldlRecOn (motive := Tells s) is _ (tells_refl s) fun _ ha i _ => ha.andThen (hf _ i)

/-- R30: only slots without a position answer a target event with an event of their own. -/
theorem targetEvent_events {e : MemberEvent} {n : Nat} {k : Option Layer} {m : Option Mode} (he : e ∈ (s.targetEvent i n k m).2) :
    e.slot = i ∧ (s.slot i).run.isSome = false := by
  unfold State.targetEvent at he
  dsimp only at he
  split at he
  · exact nomatch he
  · generalize hu : s.setSlot i { s.slot i with target := n, targetCause := k, targetMode := m, failReported := _ } = u at he
    have run : (u.slot i).run = (s.slot i).run := by rw [← hu, State.setSlot_slot_same]
    have away : u.seeks i → (s.slot i).run.isSome = false := fun seeks => by
      have still := seeks.2.1
      rwa [Slot.running, run] at still
    rcases positionAttempt_cases u i with ⟨-, e⟩ | ⟨-, -, e⟩ | ⟨seeks, pl, -, -, e⟩ | ⟨seeks, pl, -, -, e⟩ <;> rw [e] at he
    · exact nomatch he
    · exact nomatch he
    · rw [List.mem_singleton.mp he]
      exact ⟨rfl, away seeks⟩
    · rw [Sent.andThen, (enterOverridden_slot _ i).2] at he
      simp only [List.cons_append, List.nil_append, List.mem_cons, List.not_mem_nil, or_false] at he
      rcases he with rfl | rfl <;> exact ⟨rfl, away seeks⟩

/-- R85: the members' own events of a selection are of slots that did not run before it. -/
theorem selection_events {e : MemberEvent} (is : List (Fin 64)) (n : Nat) (k : Option Layer) (m : Option Mode)
    (he : e ∈ (overSlots is (fun t i => t.targetEvent i n k m) s).2) : (s.slot e.slot).run.isSome = false := by
  have all : ∀ e ∈ (overSlots is (fun t i => t.targetEvent i n k m) s).2, (s.slot e.slot).run.isSome = false := by
    refine (List.foldlRecOn (motive := fun a : Sent => (∀ i, (s.slot i).run.isSome = true → (a.1.slot i).run.isSome = true) ∧
      ∀ e ∈ a.2, (s.slot e.slot).run.isSome = false) is _ ⟨fun _ h => h, fun _ h => absurd h List.not_mem_nil⟩ ?_).2
    rintro a ⟨runs, silent⟩ j -
    refine ⟨fun i hi => (slotClosed_runs i j).targetEvent n k m (runs i hi), fun e he => ?_⟩
    rcases List.mem_append.mp he with old | new
    · exact silent e old
    · obtain ⟨same, still⟩ := targetEvent_events new
      rw [same]
      refine Bool.eq_false_iff.mpr fun running => ?_
      rw [runs j running] at still
      exact nomatch still
  exact all e he

/-- R85: a selection result, while the events on their way are of slots that run. -/
theorem InStep.select (h : InStep s es) (run : eventsRun s es) (g : Fin 16) (r : Selection) : InStep (s.takeSelection g r) es := by
  generalize hq : (s.group g).select r = q
  generalize hs1 : s.setGroup g q = s1
  generalize ha : overSlots (s1.membersOf g) (fun t i => t.targetEvent i q.target q.layer q.targetMode) s1 = a
  have same : s.takeSelection g r = (a.1.settle g false).takeMembers a.2 := by rw [State.takeSelection, hq, hs1, ha]
  have told : Tells s1 a := ha ▸ tells_overSlots (fun t i => tells_targetEvent t i _ _ _) _ s1
  have silent : ∀ e ∈ a.2, ∀ d ∈ es, d.slot ≠ e.slot := fun e he d hd same => by
    have still := selection_events (s := s1) (s1.membersOf g) q.target q.layer q.targetMode (ha ▸ he)
    rw [← hs1, State.setGroup_slot, ← same, run d hd] at still
    exact nomatch still
  have but : a.1.decidedBut g := fun k hk => by
    rw [group_congr told.groups]
    rw [show a.1.decision k = s1.decision k from
      decision_congr (by rw [group_congr told.groups]) fun i => by rw [State.inView, member_congr told.members]; rfl, ← hs1]
    exact decidedBut_setGroup (fun g _ => h.decided g) q k hk
  rw [same]
  refine ⟨h.plain, fun i => ?_, groupsDecided_takeMembers (groupsDecided_settle but _) _ told.plain⟩
  have view : s1.member i = s.member i := by rw [← hs1, State.setGroup_member]
  have slot : s1.slot i = s.slot i := by rw [← hs1, State.setGroup_slot]
  have told_i := told.seen i
  rw [slot, ← h.view i] at told_i
  rw [takeMembers_member _ told.plain, member_congr (settle_members _ _ _), member_congr told.members, view,
    (groupClosed_view i (a.1.slot i).view).takeMembers _ (by rw [slot_congr (settle_slots _ _ _)]), ← told_i]
  by_cases quiet : ∀ e ∈ a.2, e.slot ≠ i
  · rw [seenBy_others quiet, seenBy_others quiet]
  · obtain ⟨e, he, rfl⟩ : ∃ e ∈ a.2, e.slot = i := by simpa using quiet
    rw [seenBy_others (es := es) (silent e he), seenBy_others (es := es) (silent e he)]

/-! ### Slots come and go -/

theorem InStep.define (h : InStep s []) {d : SlotIdentity} (unused : (s.slot d.slot).state = .unused) : InStep (s.define d) [] := by
  have away : s.member d.slot = none := by
    have view := h.view d.slot
    rwa [Slot.view, if_pos unused] at view
  generalize he : (⟨d.slot, .joining, 0, some d.group⟩ : MemberEvent) = e
  have taken : InStep ((s.setSlot d.slot (s.newSlot d)).takeMember e) [] := by
    refine ⟨fun _ h => (nomatch h), fun i => ?_, groupsDecided_takeMember (s := s.setSlot d.slot (s.newSlot d)) (groupsDecided_congr rfl rfl h.decided) e ?_⟩
    · rw [(groupClosed_view i _).takeMember e rfl, ← he]
      show (State.settle _ _ _).member i = _
      rw [member_congr (settle_members _ _ _), State.setMember_member, State.setSlot_slot]
      split
      · rfl
      · exact h.view i
    · rw [← he]
      intro g _ x hx
      rw [State.setSlot_member, away] at hx
      exact nomatch hx
  rw [State.define, he]
  exact (taken.tells (tells_positionAttempt _ d.slot)).deliverAll

theorem InStep.release (h : InStep s []) (i : Fin 64) : InStep (s.releaseSlot i) [] := by
  unfold State.releaseSlot
  dsimp only
  generalize hu : State.setSlot _ i Slot.unused = u
  have groups : u.groups = s.groups ∧ u.members = s.members := by
    rw [← hu]
    exact (slotClosed_coordinator i s).endTransition .released ⟨rfl, rfl⟩
  have slots : ∀ j, u.slot j = if i = j then Slot.unused else s.slot j := fun j => by
    rw [← hu, State.setSlot_slot]
    split
    · rfl
    next other => exact (slotClosed_other (x := s.slot j) (Ne.symm other)).endTransition .released rfl
  refine ⟨fun _ h => (nomatch h), fun j => ?_, groupsDecided_takeMember (groupsDecided_congr groups.1 groups.2 h.decided) _ (by simp [memberEvent])⟩
  rw [(groupClosed_view j _).takeMember (memberEvent i .unused 0) rfl, seenBy_nil, takeMember_member _ rfl, slots, member_congr groups.2]
  by_cases same : i = j
  · rw [if_pos same, if_pos (show (memberEvent i .unused 0).slot = j from same)]
    cases s.member j <;> rfl
  · rw [if_neg same, if_neg (show (memberEvent i .unused 0).slot ≠ j from same)]
    exact h.view j

/-! ### Resets -/

theorem Group.warm_settles (x : Group) (m : Member) : x.warm.settles m = true := rfl

theorem decision_of_settles (h : ∀ m, (s.group g).settles m = true) : s.decision g = .steady := by
  refine if_pos (List.all_eq_true.mpr fun i hi => ?_)
  have held : ((s.member i).any fun m => m.group == g) = true := (List.mem_filter.mp hi).2
  cases e : s.member i with
  | none => simp [e] at held
  | some m => simpa using h m

theorem InStep.warm (h : InStep s []) : InStep s.warmBlocks [] := by
  have group : ∀ g, s.warmBlocks.group g = (s.group g).warm := fun g => by simp [State.warmBlocks, State.group]
  refine ⟨h.plain, fun i => ?_, fun g => ?_⟩
  · have member : s.warmBlocks.member i = (s.member i).map Member.warm := by simp [State.warmBlocks, State.member]
    have slot : s.warmBlocks.slot i = (s.slot i).warm := by simp [State.warmBlocks, State.slot]
    have view := h.view i
    rw [seenBy_nil] at view ⊢
    rw [member, slot, view]
    unfold Slot.view Slot.warm
    by_cases unused : (s.slot i).state = .unused <;> simp [unused, Member.warm, Slot.unused]
  · rw [decision_of_settles (fun m => by rw [group]; exact Group.warm_settles _ m), group]
    rfl

theorem InStep.cold (s : State) : InStep s.coldBlocks [] := by
  have group : ∀ g, s.coldBlocks.group g = .cold := fun g => by simp [State.coldBlocks, State.group]
  refine ⟨fun _ h => (nomatch h), fun i => by simp [State.coldBlocks, State.member, State.slot, Slot.view, Slot.unused], fun g => ?_⟩
  rw [decision_of_settles (fun m => by rw [group]; rfl), group]
  rfl

theorem coreClosed_inStep : CoreClosed InStep where
  congr t u es h hu := hu.congr h.2.1 h.2.2.1 fun i => by rw [slot_congr h.1]
  advance t es i k h := h.tells (tells_advanceSlot t i k)
  joinCause t es i c h := h.tells (tells_joinCause t i c)
  leaveCause t es i c h := by simpa using h.tells (tells_leaveCause t i c)
  outcome t i o r h := by simpa using h.tells (tells_takeOutcome t i o r)
  select t es g r h run := h.select run g r
  force t es i h := h.write rfl
  flag t es i h _ := h.write rfl
  deliver t es p h := h.deliver p
  group t es g x h hx := ⟨h.plain, h.view, fun k => by
    simp only [Group.decisive, Prod.mk.injEq] at hx
    by_cases hk : k = g
    · subst hk
      rw [State.setGroup_group_same, hx.2.1, h.decided]
      exact (decision_congr (s := t) (t := t.setGroup k x) (by simp [Group.reads, hx]) fun _ => rfl).symm
    · exact decidedBut_setGroup (fun g _ => h.decided g) x k hk⟩
  settle t g x h := h.settle x true
  rewrite t es l l' h _ _ := h.congr rfl rfl fun _ => rfl
  scalars t es st h _ := h.congr rfl rfl fun _ => rfl
  load t i plan p w h _ _ _ _ := h.congr rfl rfl fun _ => rfl
  dropRecord t i plan r h _ _ := h.congr rfl rfl fun _ => rfl
  dropShadow t i plan r sh h _ _ := h.congr rfl rfl fun _ => rfl
  define t d h unused := h.define unused
  release t i h _ := h.release i
  recording t i b h _ := h.write rfl
  latch t i h _ := h.write rfl
  warm t h := h.warm
  cold t _ := InStep.cold t

/-- Settles O58: the view with the events on their way stays true, and every group decided, through every operation. -/
theorem groupsStayDecided : Obligations.GroupsStayDecided := fun _ _ view decided hs =>
  inStep_nil_iff.mp (coreClosed_inStep.step (inStep_nil_iff.mpr ⟨view, decided⟩) hs)

end Sys2Proof.Machine
end

section
/-! PROOFS. The plan store's law (R62) through the store's own operations. -/

namespace Sys2Proof.Machine

variable {st : PlanStore} {l l' m r a b sh : Location} {n k : Nat} {i j : Fin 64} {plan : Nat}

/-- The store's list is in its form, and its keys are in order. -/
def PlanStore.lawful (st : PlanStore) : Prop := st.wf = true ∧ st.keyed

/-! ### Keys -/

theorem PlanStore.lawful.record_unique (h : st.lawful) (ha : a ∈ st.held) (hb : b ∈ st.held) (ra : a.occupancy = .record)
    (rb : b.occupancy = .record) (same : a.sameKey b) : a = b :=
  PlanStore.eq_of_num h.1 ha hb (h.2.1 a ha b hb ra rb same)

/-- R61: the key map finds the one record of a key. -/
theorem PlanStore.lawful.recordOf_iff (h : st.lawful) :
    st.recordOf i plan = some r ↔ r ∈ st.held ∧ r.occupancy = .record ∧ r.slot = i ∧ r.plan = plan := by
  refine ⟨PlanStore.recordOf_some, fun ⟨mem, record, slot, key⟩ => ?_⟩
  cases e : st.recordOf i plan with
  | none => exact absurd key (PlanStore.recordOf_none.mp e r mem record slot)
  | some b =>
    obtain ⟨mem', record', slot', key'⟩ := PlanStore.recordOf_some e
    rw [h.record_unique mem' mem record' record ⟨slot'.trans slot.symm, key'.trans key.symm⟩]

/-- R62: the shadow link of a key's record finds the one shadow of the key. -/
theorem PlanStore.lawful.shadowOf_iff (h : st.lawful) :
    st.shadowOf i plan = some a ↔ a ∈ st.held ∧ a.occupancy = .shadow ∧ a.slot = i ∧ a.plan = plan := by
  constructor
  · intro found
    obtain ⟨mem, shadow, r, hr, link⟩ := PlanStore.shadowOf_some found
    obtain ⟨mem', record, slot, key⟩ := PlanStore.recordOf_some hr
    obtain ⟨b, hb, -, num, same⟩ := h.2.2.2 r mem' record a.num link
    rw [PlanStore.eq_of_num h.1 hb mem num] at same
    exact ⟨mem, shadow, same.1 ▸ slot, same.2 ▸ key⟩
  · rintro ⟨mem, shadow, slot, key⟩
    obtain ⟨r, hr, record, same, link⟩ := h.2.2.1 a mem shadow
    have found : st.recordOf i plan = some r := h.recordOf_iff.mpr ⟨hr, record, same.1.trans slot, same.2.trans key⟩
    have at_ : st.at? a.num = some a := (PlanStore.at?_iff h.1).mpr ⟨mem, rfl⟩
    simp [PlanStore.shadowOf, found, link, at_, shadow]

/-! ### The store's operations keep its law -/

/-- Other words or another mark at a location leave the keys. -/
theorem PlanStore.lawful.rewrite (h : st.lawful) (hl : l ∈ st.held) (same : l'.rewrites l) : (st.put l').lawful := by
  obtain ⟨num, occupancy, slot, key, link, words⟩ := same
  obtain ⟨low, long⟩ := (PlanStore.wf_iff.mp h.1).2 l hl
  refine ⟨PlanStore.put_wf h.1 (num ▸ low) (words ▸ long), ?_⟩
  have mem : ∀ m, m ∈ (st.put l').held ↔ m = l' ∨ (m.num ≠ l'.num ∧ m ∈ st.held) := fun m => PlanStore.mem_put h.1
  have own : ∀ m ∈ st.held, m.num = l.num → m = l := fun m hm e => PlanStore.eq_of_num h.1 hm hl e
  obtain ⟨records, shadows, links⟩ := h.2
  simp only [PlanStore.keyed, Location.sameKey, mem] at records shadows links ⊢
  refine ⟨?_, ?_, ?_⟩
  · grind
  · grind
  · grind

/-- R69: what a promotion does to the list. -/
theorem PlanStore.lawful.promote_cases (h : st.lawful) (i : Fin 64) (plan : Nat) :
    ((∀ a ∈ st.held, a.occupancy = .shadow → a.slot = i → a.plan ≠ plan) ∧ st.promote i plan = st) ∨
    ∃ r sh, (r ∈ st.held ∧ r.occupancy = .record ∧ r.slot = i ∧ r.plan = plan) ∧
      (sh ∈ st.held ∧ sh.occupancy = .shadow ∧ sh.slot = i ∧ sh.plan = plan) ∧ r.link = some sh.num ∧
      st.promote i plan = (st.free r.num).put { sh with occupancy := .record, link := none } := by
  unfold PlanStore.promote
  split
  next r sh hr hs =>
    obtain ⟨-, -, r', hr', link⟩ := PlanStore.shadowOf_some hs
    rw [hr, Option.some.injEq] at hr'
    subst hr'
    exact .inr ⟨r, sh, h.recordOf_iff.mp hr, h.shadowOf_iff.mp hs, link, rfl⟩
  next none =>
    refine .inl ⟨fun a ha shadow slot key => ?_, rfl⟩
    have found := h.shadowOf_iff.mpr ⟨ha, shadow, slot, key⟩
    obtain ⟨-, -, r, hr, -⟩ := PlanStore.shadowOf_some found
    exact none r a hr found

theorem PlanStore.lawful.promote (h : st.lawful) (i : Fin 64) (plan : Nat) : (st.promote i plan).lawful := by
  refine ⟨PlanStore.promote_wf h.1 i plan, ?_⟩
  rcases h.promote_cases i plan with ⟨-, e⟩ | ⟨r, sh, ⟨hr, record, rslot, rkey⟩, ⟨hs, shadow, sslot, skey⟩, link, e⟩ <;> rw [e]
  · exact h.2
  · have mem : ∀ m, m ∈ ((st.free r.num).put { sh with occupancy := .record, link := none }).held ↔
        m = { sh with occupancy := .record, link := none } ∨ (m.num ≠ sh.num ∧ m ∈ st.held ∧ m.num ≠ r.num) := fun m => by
      rw [PlanStore.mem_put (PlanStore.free_wf h.1 _), PlanStore.mem_free]
    have own : ∀ m ∈ st.held, m.num = r.num → m = r := fun m hm e => PlanStore.eq_of_num h.1 hm hr e
    have own' : ∀ m ∈ st.held, m.num = sh.num → m = sh := fun m hm e => PlanStore.eq_of_num h.1 hm hs e
    obtain ⟨records, shadows, links⟩ := h.2
    simp only [PlanStore.keyed, Location.sameKey, mem] at records shadows links ⊢
    refine ⟨?_, ?_, ?_⟩
    · grind
    · grind
    · grind

/-- R69: the shadows after a promotion are those of other keys. -/
theorem PlanStore.lawful.promote_shadow (h : st.lawful) (i : Fin 64) (plan : Nat) (hm : m ∈ (st.promote i plan).held)
    (shadow : m.occupancy = .shadow) : m ∈ st.held ∧ ¬(m.slot = i ∧ m.plan = plan) := by
  rcases h.promote_cases i plan with ⟨away, e⟩ | ⟨r, sh, -, ⟨hs, shadow', slot, key⟩, -, e⟩ <;> rw [e] at hm
  · exact ⟨hm, fun ⟨slot, key⟩ => away m hm shadow slot key⟩
  · rw [PlanStore.mem_put (PlanStore.free_wf h.1 _), PlanStore.mem_free] at hm
    rcases hm with rfl | ⟨other, held, -⟩
    · exact nomatch shadow
    · refine ⟨held, fun ⟨slot', key'⟩ => other ?_⟩
      have one := h.shadowOf_iff.mpr ⟨held, shadow, slot', key'⟩
      rw [h.shadowOf_iff.mpr ⟨hs, shadow', slot, key⟩] at one
      rw [Option.some.inj one]

/-- R69: a promotion brings no new key. -/
theorem PlanStore.lawful.promote_key (h : st.lawful) (i : Fin 64) (plan : Nat) (hm : m ∈ (st.promote i plan).held) :
    ∃ b ∈ st.held, b.sameKey m := by
  rcases h.promote_cases i plan with ⟨-, e⟩ | ⟨r, sh, -, ⟨hs, -⟩, -, e⟩ <;> rw [e] at hm
  · exact ⟨m, hm, rfl, rfl⟩
  · rw [PlanStore.mem_put (PlanStore.free_wf h.1 _), PlanStore.mem_free] at hm
    rcases hm with rfl | ⟨-, held, -⟩
    · exact ⟨sh, hs, rfl, rfl⟩
    · exact ⟨m, held, rfl, rfl⟩

/-- R70: a record without a shadow is freed. -/
theorem PlanStore.lawful.free (h : st.lawful) (hr : r ∈ st.held) (record : r.occupancy = .record) (link : r.link = none) :
    (st.free r.num).lawful := by
  refine ⟨PlanStore.free_wf h.1 _, ?_⟩
  have own : ∀ m ∈ st.held, m.num = r.num → m = r := fun m hm e => PlanStore.eq_of_num h.1 hm hr e
  obtain ⟨records, shadows, links⟩ := h.2
  simp only [PlanStore.keyed, Location.sameKey, PlanStore.mem_free] at records shadows links ⊢
  refine ⟨?_, ?_, ?_⟩
  · grind
  · grind
  · grind

/-- R70: a shadow is freed, and its record's link cleared. -/
theorem PlanStore.lawful.dropShadow (h : st.lawful) (hr : r ∈ st.held) (record : r.occupancy = .record) (hs : sh ∈ st.held)
    (shadow : sh.occupancy = .shadow) (same : r.sameKey sh) (link : r.link = some sh.num) :
    ((st.free sh.num).put { r with link := none }).lawful := by
  obtain ⟨low, long⟩ := (PlanStore.wf_iff.mp h.1).2 r hr
  refine ⟨PlanStore.put_wf (PlanStore.free_wf h.1 _) low long, ?_⟩
  have mem : ∀ m, m ∈ ((st.free sh.num).put { r with link := none }).held ↔
      m = { r with link := none } ∨ (m.num ≠ r.num ∧ m ∈ st.held ∧ m.num ≠ sh.num) := fun m => by
    rw [PlanStore.mem_put (PlanStore.free_wf h.1 _), PlanStore.mem_free]
  have own : ∀ m ∈ st.held, m.num = r.num → m = r := fun m hm e => PlanStore.eq_of_num h.1 hm hr e
  have own' : ∀ m ∈ st.held, m.num = sh.num → m = sh := fun m hm e => PlanStore.eq_of_num h.1 hm hs e
  obtain ⟨records, shadows, links⟩ := h.2
  simp only [PlanStore.keyed, Location.sameKey, mem] at records shadows links same ⊢
  refine ⟨?_, ?_, ?_⟩
  · grind
  · grind
  · grind

/-- R71: a slot's locations are freed. -/
theorem PlanStore.lawful.freeSlot (h : st.lawful) (i : Fin 64) : (st.freeSlot i).lawful := by
  refine ⟨PlanStore.freeSlot_wf h.1 _, ?_⟩
  have mem : ∀ m, m ∈ (st.freeSlot i).held ↔ m ∈ st.held ∧ m.slot ≠ i := fun m => by simp [PlanStore.freeSlot]
  obtain ⟨records, shadows, links⟩ := h.2
  simp only [PlanStore.keyed, Location.sameKey, mem] at records shadows links ⊢
  refine ⟨?_, ?_, ?_⟩
  · grind
  · grind
  · grind

/-! ### LOAD PLAN -/

theorem occupied_length (st : PlanStore) (num : Nat) (i : Fin 64) (plan : Nat) (p : Plan) :
    (st.writeImage num (planImage i plan p num)).length = 32 := by rw [PlanStore.writeImage_length, planImage_length]

/-- R66, R67: a location overwritten keeps its key. -/
theorem PlanStore.lawful.overwrite (h : st.lawful) (hl : l ∈ st.held) (p : Plan) : (st.overwrite l p).lawful := by
  refine h.rewrite hl ⟨rfl, rfl, rfl, rfl, rfl, ?_⟩
  rw [((PlanStore.wf_iff.mp h.1).2 l hl).2]
  exact occupied_length st l.num l.slot l.plan p

/-- R65: a new key's record in a free location. -/
theorem PlanStore.lawful.occupyRecord (h : st.lawful) (none : st.recordOf i plan = none) (free : st.lowestFree = some n) (p : Plan) :
    (st.occupy n .record i plan p).lawful := by
  obtain ⟨low, unheld, -⟩ := PlanStore.lowestFree_some h.1 free
  refine ⟨PlanStore.put_wf h.1 low (occupied_length st n i plan p), ?_⟩
  have mem : ∀ m, m ∈ (st.occupy n .record i plan p).held ↔ _ := fun m => PlanStore.mem_put h.1
  have away := PlanStore.recordOf_none.mp none
  obtain ⟨records, shadows, links⟩ := h.2
  simp only [PlanStore.keyed, Location.sameKey, mem] at records shadows links ⊢
  refine ⟨?_, ?_, ?_⟩
  · grind
  · grind
  · grind

/-- R67: a new shadow in a free location, and its record's link. -/
theorem PlanStore.lawful.occupyShadow (h : st.lawful) (hr : r ∈ st.held) (record : r.occupancy = .record)
    (none : st.shadowOf r.slot r.plan = none) (free : st.lowestFree = some n) (p : Plan) :
    ((st.occupy n .shadow r.slot r.plan p).put { r with link := some n }).lawful := by
  obtain ⟨low, unheld, -⟩ := PlanStore.lowestFree_some h.1 free
  obtain ⟨rlow, rlong⟩ := (PlanStore.wf_iff.mp h.1).2 r hr
  have wf := PlanStore.put_wf h.1 (l := ⟨n, .shadow, r.slot, r.plan, false, .none, st.writeImage n (planImage r.slot r.plan p n)⟩) low
    (occupied_length st n r.slot r.plan p)
  refine ⟨PlanStore.put_wf wf rlow rlong, ?_⟩
  have mem : ∀ m, m ∈ ((st.occupy n .shadow r.slot r.plan p).put { r with link := some n }).held ↔ _ := fun m =>
    (PlanStore.mem_put wf).trans (or_congr_right (and_congr_right fun _ => PlanStore.mem_put h.1))
  have away : ∀ a ∈ st.held, a.occupancy = .shadow → a.slot = r.slot → a.plan ≠ r.plan := fun a ha shadow slot key => by
    rw [h.shadowOf_iff.mpr ⟨ha, shadow, slot, key⟩] at none
    exact nomatch none
  have own : ∀ m ∈ st.held, m.num = r.num → m = r := fun m hm e => PlanStore.eq_of_num h.1 hm hr e
  have unlinked : r.link = .none := by
    cases e : r.link with
    | none => rfl
    | some k =>
      obtain ⟨a, ha, shadow, -, same⟩ := h.2.2.2 r hr record k e
      exact absurd same.2.symm (away a ha shadow same.1.symm)
  obtain ⟨records, shadows, links⟩ := h.2
  simp only [PlanStore.keyed, Location.sameKey, mem] at records shadows links ⊢
  refine ⟨?_, fun a ha shadow => ?_, fun b hb yes k hk => ?_⟩
  · grind
  · rcases ha with rfl | ⟨-, rfl | ⟨-, ha⟩⟩
    · exact absurd (record.symm.trans shadow) (by decide)
    · exact ⟨_, .inl rfl, record, ⟨rfl, rfl⟩, rfl⟩
    · obtain ⟨b, hb, key⟩ := shadows a ha shadow
      exact ⟨b, .inr ⟨by grind, .inr ⟨unheld b hb, hb⟩⟩, key⟩
  · rcases hb with rfl | ⟨-, rfl | ⟨-, hb⟩⟩
    · exact ⟨_, .inr ⟨Ne.symm (unheld r hr), .inl rfl⟩, rfl, Option.some.inj hk, rfl, rfl⟩
    · exact nomatch yes
    · obtain ⟨a, ha, shadow, key⟩ := links b hb yes k hk
      exact ⟨a, .inr ⟨by grind, .inr ⟨unheld a ha, ha⟩⟩, shadow, key⟩

/-- R65 to R67: LOAD PLAN keeps the law, and writes a shadow for a current plan alone. -/
theorem PlanStore.lawful.load (h : st.lawful) {current : Bool} {p : Plan} {w : Placed} (e : st.load i plan current p = some w) :
    w.store.lawful ∧ ∀ m ∈ w.store.held, (∃ b ∈ st.held, b.sameKey m ∧ b.occupancy = m.occupancy) ∨
      (m.slot = i ∧ m.plan = plan ∧ (m.occupancy = .shadow → current = true)) := by
  have held : ∀ m : Location, m ∈ st.held → ∃ b ∈ st.held, b.sameKey m ∧ b.occupancy = m.occupancy := fun m hm => ⟨m, hm, ⟨rfl, rfl⟩, rfl⟩
  have written : ∀ l ∈ st.held, ∀ m ∈ (st.overwrite l p).held, ∃ b ∈ st.held, b.sameKey m ∧ b.occupancy = m.occupancy := fun l hl m hm => by
    rcases (PlanStore.mem_put h.1).mp hm with rfl | ⟨-, hm⟩
    · exact ⟨l, hl, ⟨rfl, rfl⟩, rfl⟩
    · exact held m hm
  unfold PlanStore.load at e
  split at e
  next none =>
    obtain ⟨n, free, rfl⟩ := Option.map_eq_some_iff.mp e
    refine ⟨h.occupyRecord none free p, fun m hm => ?_⟩
    rcases (PlanStore.mem_put h.1).mp hm with rfl | ⟨-, hm⟩
    · exact .inr ⟨rfl, rfl, fun h => nomatch h⟩
    · exact .inl (held m hm)
  next r found =>
    obtain ⟨hr, record, slot, key⟩ := PlanStore.recordOf_some found
    split at e
    next yes =>
      unfold PlanStore.loadShadow at e
      split at e
      next sh shadow =>
        obtain rfl := Option.some.inj e
        have hs := (h.shadowOf_iff.mp shadow).1
        exact ⟨h.overwrite hs p, fun m hm => .inl (written sh hs m hm)⟩
      next none =>
        obtain ⟨n, free, rfl⟩ := Option.map_eq_some_iff.mp e
        refine ⟨h.occupyShadow hr record none free p, fun m hm => ?_⟩
        rcases of_mem_insertLocation hm with rfl | hm
        · exact .inl ⟨r, hr, ⟨rfl, rfl⟩, rfl⟩
        · rcases of_mem_insertLocation hm with rfl | hm
          · exact .inr ⟨slot, key, fun _ => yes⟩
          · exact .inl (held m hm)
    · obtain rfl := Option.some.inj e
      exact ⟨h.overwrite hr p, fun m hm => .inl (written r hr m hm)⟩

/-! ### RESTART WARM -/

/-- R80: every shadow is promoted. -/
theorem PlanStore.lawful.promoteAll (h : st.lawful) : st.promoteAll.lawful ∧ (∀ m ∈ st.promoteAll.held, ∃ b ∈ st.held, b.sameKey m) ∧
    ∀ m ∈ st.promoteAll.held, m.occupancy = .record := by
  have run : ∀ (ls : List Location) (u : PlanStore), u.lawful →
      let w := ls.foldl (fun st l => if l.occupancy == .record then st.promote l.slot l.plan else st) u
      w.lawful ∧ (∀ m ∈ w.held, ∃ b ∈ u.held, b.sameKey m) ∧
        ∀ m ∈ w.held, m.occupancy = .shadow → m ∈ u.held ∧ ∀ l ∈ ls, l.occupancy = .record → ¬l.sameKey m := by
    intro ls
    induction ls with
    | nil => exact fun u hu => ⟨hu, fun m hm => ⟨m, hm, rfl, rfl⟩, fun m hm _ => ⟨hm, fun l hl => nomatch hl⟩⟩
    | cons l ls ih =>
      intro u hu
      rw [List.foldl_cons]
      by_cases record : l.occupancy = .record
      · rw [if_pos (by simpa using record)]
        obtain ⟨law, keys, shadows⟩ := ih _ (hu.promote l.slot l.plan)
        refine ⟨law, fun m hm => ?_, fun m hm shadow => ?_⟩
        · obtain ⟨b, hb, same⟩ := keys m hm
          obtain ⟨c, hc, same'⟩ := hu.promote_key l.slot l.plan hb
          exact ⟨c, hc, same'.1.trans same.1, same'.2.trans same.2⟩
        · obtain ⟨held, away⟩ := shadows m hm shadow
          obtain ⟨held, other⟩ := hu.promote_shadow l.slot l.plan held shadow
          refine ⟨held, fun k hk => ?_⟩
          rcases List.mem_cons.mp hk with rfl | hk
          · exact fun _ same => other ⟨same.1.symm, same.2.symm⟩
          · exact away k hk
      · rw [if_neg (by simpa using record)]
        obtain ⟨law, keys, shadows⟩ := ih u hu
        refine ⟨law, keys, fun m hm shadow => ⟨(shadows m hm shadow).1, fun k hk => ?_⟩⟩
        rcases List.mem_cons.mp hk with rfl | hk
        · exact fun yes => absurd yes record
        · exact (shadows m hm shadow).2 k hk
  obtain ⟨law, keys, shadows⟩ := run st.held st h
  refine ⟨law, keys, fun m hm => ?_⟩
  cases e : m.occupancy with
  | record => rfl
  | shadow =>
    obtain ⟨held, away⟩ := shadows m hm e
    obtain ⟨r, hr, record, same, -⟩ := h.2.2.1 m held e
    exact absurd same (away r hr record)

end Sys2Proof.Machine
end

section
/-! PROOFS. Every command keeps the plan store's law (O57): every plan with a defined slot, every shadow under its slot's current plan. -/

namespace Sys2Proof.Machine

variable {s t u : State} {i j : Fin 64} {st : PlanStore}

/-! ### What leaves a slot's current plan -/

theorem enterOverridden_current (s : State) (i : Fin 64) : ((s.enterOverridden i).1.slot i).current = (s.slot i).current := by
  rw [(enterOverridden_slot s i).1]

theorem joinCause_current (s : State) (i : Fin 64) (c : OverrideCause) : ((s.joinCause i c).1.slot i).current = (s.slot i).current := by
  rcases joinCause_cases s i c with ⟨-, e⟩ | ⟨-, -, -, e⟩ | ⟨-, -, -, -, e⟩ <;> rw [e]
  · rw [State.setSlot_slot_same]
  · rw [enterOverridden_current, State.setSlot_slot_same]

theorem leaveCause_current (s : State) (i : Fin 64) (c : OverrideCause) : ((s.leaveCause i c).slot i).current = (s.slot i).current := by
  rw [State.leaveCause, State.setSlot_slot_same]

theorem countMiss_current (x : Slot) (k : MissKind) : (x.countMiss k).current = x.current := by cases k <;> rfl

theorem miss_current (s : State) (i : Fin 64) (k : MissKind) : ((s.miss i k).1.slot i).current = (s.slot i).current := by
  rcases miss_cases s i k with ⟨-, e⟩ | ⟨-, -, e⟩ | ⟨-, -, e⟩ <;> rw [e]
  · rw [State.setSlot_slot_same, countMiss_current]
  · rw [State.setSlot_slot_same]
    exact countMiss_current _ k
  · rw [enterLost_slot, State.setSlot_slot_same]
    exact countMiss_current _ k

theorem goodOutcome_current (s : State) (i : Fin 64) : ((s.goodOutcome i).1.slot i).current = (s.slot i).current := by
  unfold State.goodOutcome
  dsimp only
  split <;> simp

theorem takeOverride_current (s : State) (i : Fin 64) (o : FieldOverride) : ((s.takeOverride i o).1.slot i).current = (s.slot i).current := by
  unfold State.takeOverride
  dsimp only
  split
  · rw [leaveCause_current, State.setSlot_slot_same]
  · rw [joinCause_current, State.setSlot_slot_same]

theorem takeOutcome_current (s : State) (i : Fin 64) (o : ExchangeOutcome) (r : FieldOverride) :
    ((s.takeOutcome i o r).1.slot i).current = (s.slot i).current := by
  unfold State.takeOutcome
  dsimp only
  split
  · rfl
  · split
    · exact (takeOverride_current _ i r).trans (goodOutcome_current s i)
    · exact miss_current s i _
    · exact miss_current s i _
    · exact (takeOverride_current _ i r).trans (miss_current s i _)

theorem endTransition_current (s : State) (i : Fin 64) (o : RecordOutcome) : ((s.endTransition i o).slot i).current = (s.slot i).current := by
  rw [endTransition_slot]

theorem exitStep_current (s : State) (i : Fin 64) : ((s.exitStep i).slot i).current = (s.slot i).current := by
  unfold State.exitStep
  dsimp only
  split
  · rw [raise_slot, State.setSlot_slot_same]
    split <;> rfl
  · rfl

theorem planCycle_current (s : State) (i : Fin 64) : ((s.planCycle i).slot i).current = (s.slot i).current := by
  obtain ⟨v, -, e⟩ := planCycle_slot s i
  rw [e]

theorem evaluateCause_current (s : State) (i : Fin 64) (c : EvalCause) : ((s.evaluateCause i c).slot i).current = (s.slot i).current := by
  unfold State.evaluateCause
  dsimp only
  split
  · split
    · rw [planCycle_current]
      split <;> rfl
    · rw [transitionCycle_slot]
  · rfl

theorem evaluateCoordinated_current (s : State) (i : Fin 64) (a : Option EvalCause) (b : Bool) :
    ((s.evaluateCoordinated i a b).slot i).current = (s.slot i).current := by
  unfold State.evaluateCoordinated
  dsimp only
  split
  · rw [planCycle_current, State.setSlot_slot_same]
  · rw [evaluateCause_current, State.setSlot_slot_same]

theorem evaluationStep_current (s : State) (i : Fin 64) (a : Option EvalCause) (b : Bool) :
    ((s.evaluationStep i a b).slot i).current = (s.slot i).current := by
  unfold State.evaluationStep
  split
  · exact evaluateCoordinated_current s i a b
  · unfold State.evaluateTransition
    dsimp only
    split
    · rw [evaluateCoordinated_current, State.setSlot_slot_same, endTransition_current]
    · split
      · split
        · rw [planCycle_current, State.setSlot_slot_same, endTransition_current]
        · rw [transitionCycle_slot]
      · rfl
  · unfold State.evaluateJoining
    dsimp only
    split
    · split
      · rw [State.setSlot_slot_same]
      · exact planCycle_current s i
    · rfl
  · rw [planCycle_current, State.setSlot_slot_same]
  · exact planCycle_current s i
  · rfl

theorem stepAndEvaluate_current (s : State) (i : Fin 64) (a : Option EvalCause) :
    ((s.stepAndEvaluate i a).slot i).current = (s.slot i).current := by
  rw [State.stepAndEvaluate, evaluationStep_current, State.setSlot_slot_same]

theorem handOverStep_current (s : State) (i : Fin 64) : ((s.handOverStep i).1.slot i).current = (s.slot i).current := by
  unfold State.handOverStep
  dsimp only
  split
  · rfl
  · exact miss_current (s.setPort _ _) i _

theorem adoptionFailed_current (s : State) (i : Fin 64) (k : Notice) : ((s.adoptionFailed i k).slot i).current = (s.slot i).current := by
  unfold State.adoptionFailed
  split
  · rfl
  · rw [raise_slot, State.setSlot_slot_same]

/-- R21: a target is adopted in a state other than OVERRIDDEN, or the current plan stands. -/
theorem adoptTarget_current (s : State) (i : Fin 64) :
    ((s.adoptTarget i).2 = none ∧ ((s.adoptTarget i).1.slot i).current = (s.slot i).current) ∨
    ((s.adoptTarget i).2.isSome = true ∧ ((s.adoptTarget i).1.slot i).state ≠ .overridden) := by
  have slot := readRecord_slot s i (s.slot i).target i
  unfold State.adoptTarget
  dsimp only
  split
  next sought =>
    split <;> rename_i e <;> rw [e] at slot
    · refine .inr ⟨rfl, ?_⟩
      rw [State.setSlot_slot_same]
      intro away
      have adopts := sought.1
      simp [Slot.adopts, show (s.slot i).state = .overridden from away] at adopts
    · exact .inl ⟨rfl, by rw [adoptionFailed_current, slot]⟩
    · exact .inl ⟨rfl, by rw [adoptionFailed_current, slot]⟩
  · exact .inl ⟨rfl, rfl⟩

theorem shadowStep_current (s : State) (i : Fin 64) (n : Nat) (a : Option EvalCause) :
    ((s.shadowStep i n a).1.slot i).current = (s.slot i).current := by
  unfold State.shadowStep
  dsimp only
  split
  · split
    · rfl
    · have slot := readRecord_slot (s.setStore (s.store.promote i n)) i n i
      split <;> rename_i e <;> rw [e] at slot <;> simp [slot]
  · rfl

/-! ### Whose plans the store holds -/

/-- Every location of `st'` has a key of `st`, and a shadow one of a shadow. -/
def PlanStore.covers (st st' : PlanStore) : Prop :=
  ∀ m ∈ st'.held, ∃ b ∈ st.held, b.sameKey m ∧ (m.occupancy = .shadow → b.occupancy = .shadow)

theorem PlanStore.lawful_congr {st st' : PlanStore} (e : st'.held = st.held) (h : st.lawful) : st'.lawful := by
  simpa only [PlanStore.lawful, PlanStore.wf, PlanStore.keyed, e] using h

theorem PlanStore.covers_of_rewrite (h : st.lawful) {l l' : Location} (hl : l ∈ st.held) (same : l'.rewrites l) :
    st.covers (st.put l') := fun m hm => by
  rcases (PlanStore.mem_put h.1).mp hm with rfl | ⟨-, hm⟩
  · exact ⟨l, hl, ⟨same.2.2.1.symm, same.2.2.2.1.symm⟩, fun shadow => same.2.1 ▸ shadow⟩
  · exact ⟨m, hm, ⟨rfl, rfl⟩, id⟩

theorem PlanStore.covers_of_subset {st st' : PlanStore} (h : ∀ m ∈ st'.held, m ∈ st.held) : st.covers st' :=
  fun m hm => ⟨m, h m hm, ⟨rfl, rfl⟩, id⟩

/-- The store keeps its law, its plans are of defined slots, and every shadow is of its slot's current plan; the shadow of slot `i` is
of plan `b`. -/
structure OwnedFor (i : Fin 64) (b : Nat) (t : State) : Prop where
  law : t.store.lawful
  named : ∀ l ∈ t.store.held, 1 ≤ l.plan ∧ l.plan ≤ 250 ∧ (t.slot l.slot).state ≠ .unused
  shadows : ∀ l ∈ t.store.held, l.occupancy = .shadow → if l.slot = i then l.plan = b else (t.slot l.slot).current = l.plan

/-- The store keeps its law (R62), and what it holds is owned. -/
def State.owned (t : State) : Prop := t.store.lawful ∧ t.storeOwned

theorem State.owned.for (h : t.owned) (i : Fin 64) : OwnedFor i (t.slot i).current t where
  law := h.1
  named l hl := ⟨(h.2 l hl).1, (h.2 l hl).2.1, (h.2 l hl).2.2.1⟩
  shadows l hl shadow := by
    have current := (h.2 l hl).2.2.2 shadow
    split
    next same => rw [← current, same]
    next => exact current

theorem OwnedFor.owned {b : Nat} (h : OwnedFor i b t) (own : ∀ l ∈ t.store.held, l.occupancy = .shadow → l.slot = i → b = (t.slot i).current) :
    t.owned := ⟨h.law, fun l hl => by
  obtain ⟨low, high, defined⟩ := h.named l hl
  refine ⟨low, high, defined, fun shadow => ?_⟩
  have current := h.shadows l hl shadow
  split at current
  next same => rw [current, own l hl shadow same, same]
  next => exact current⟩

theorem OwnedFor.setStore {b : Nat} (h : OwnedFor i b t) (law : st.lawful) (covers : t.store.covers st) : OwnedFor i b (t.setStore st) where
  law := law
  named m hm := by
    obtain ⟨l, hl, ⟨slot, key⟩, -⟩ := covers m hm
    rw [← slot, ← key]
    exact h.named l hl
  shadows m hm shadow := by
    obtain ⟨l, hl, ⟨slot, key⟩, role⟩ := covers m hm
    rw [← slot, ← key]
    exact h.shadows l hl (role shadow)

theorem OwnedFor.read {b : Nat} (h : OwnedFor i b t) {l : Location} (hl : l ∈ t.store.held) : OwnedFor i b (t.setStore (t.store.read l).store) := by
  obtain ⟨l', same, held⟩ := Location.read_rewrites t.store l
  refine h.setStore (PlanStore.lawful_congr held (h.law.rewrite hl same)) ?_
  unfold PlanStore.covers
  rw [held]
  exact PlanStore.covers_of_rewrite h.law hl same

theorem OwnedFor.promote {b : Nat} (h : OwnedFor i b t) (j : Fin 64) (n : Nat) : OwnedFor i b (t.setStore (t.store.promote j n)) :=
  h.setStore (h.law.promote j n) fun m hm => by
    cases role : m.occupancy with
    | shadow => exact ⟨m, (h.law.promote_shadow j n hm role).1, ⟨rfl, rfl⟩, fun _ => role⟩
    | record =>
      obtain ⟨l, hl, same⟩ := h.law.promote_key j n hm
      exact ⟨l, hl, same, fun no => nomatch no⟩

theorem slotClosed_ownedFor (i : Fin 64) (b : Nat) : SlotClosed i (OwnedFor i b) where
  slot t x h hx := by
    refine ⟨h.law, fun l hl => ?_, fun l hl shadow => ?_⟩
    · obtain ⟨low, high, defined⟩ := h.named l hl
      refine ⟨low, high, ?_⟩
      rw [State.setSlot_slot]
      split
      next same => exact fun unused => defined (same ▸ hx.2.1 unused)
      next => exact defined
    · have current := h.shadows l hl shadow
      split at current
      next same => rwa [if_pos same]
      next other => rwa [if_neg other, State.setSlot_slot_ne _ _ _ _ (Ne.symm other)]
  read t l h hl _ := h.read hl
  promote t n h := h.promote i n
  removeEntry _ h := ⟨h.law, h.named, h.shadows⟩
  handOver _ _ h := ⟨h.law, h.named, h.shadows⟩
  raise _ _ _ h := ⟨h.law, h.named, h.shadows⟩
  record _ _ h _ := ⟨h.law, h.named, h.shadows⟩

/-- An operation of the slot engine that leaves the current plan leaves the store owned. -/
theorem State.owned.engine (h : s.owned) (closed : ∀ Q, SlotClosed i Q → Q s → Q t) (current : (t.slot i).current = (s.slot i).current) :
    t.owned := (closed _ (slotClosed_ownedFor i _) (h.for i)).owned fun _ _ _ _ => current.symm

/-- Before a slot has a current plan it has no shadow. -/
theorem OwnedFor.owned_of_zero (h : OwnedFor i 0 t) : t.owned := h.owned fun l hl shadow same => by
  have plan := h.shadows l hl shadow
  rw [if_pos same] at plan
  have low := (h.named l hl).1
  omega

/-! ### A boundary leaves the store owned -/

/-- R22, R69: with a target adopted, the shadow of the plan before it is promoted. -/
theorem OwnedFor.shadowStep_adopted {n : Nat} (h : OwnedFor i n t) (away : (t.slot i).state ≠ .overridden) (a : EvalCause) :
    (t.shadowStep i n (some a)).1.owned := by
  have gone : ∀ {u : State}, OwnedFor i n u → (∀ l ∈ u.store.held, l.occupancy = .shadow → ¬(l.slot = i ∧ l.plan = n)) → u.owned :=
    fun hu none => hu.owned fun l hl shadow same => absurd ⟨same, by simpa [same] using hu.shadows l hl shadow⟩ (none l hl shadow)
  unfold State.shadowStep
  dsimp only
  split
  next => exact gone (h.promote i n) fun l hl shadow => (h.law.promote_shadow i n hl shadow).2
  next none =>
    refine gone h fun l hl shadow key => none ⟨away, ?_⟩
    rw [h.law.shadowOf_iff.mpr ⟨hl, shadow, key.1, key.2⟩]
    rfl

theorem State.owned.adoptionStep (h : s.owned) (i : Fin 64) : (s.adoptionStep i).1.owned := by
  unfold State.adoptionStep
  dsimp only
  rcases adoptTarget_current s i with ⟨none, current⟩ | ⟨adopted, away⟩
  · exact (h.engine (fun _ c h => c.adoptTarget h) current).engine (fun _ c h => c.shadowStep _ _ h) (shadowStep_current _ i _ _)
  · obtain ⟨a, ha⟩ := Option.isSome_iff_exists.mp adopted
    rw [ha]
    exact ((slotClosed_ownedFor i _).adoptTarget (h.for i)).shadowStep_adopted away a

theorem State.owned.boundarySteps (h : s.owned) (i : Fin 64) (p : Nat) : (s.boundarySteps i p).owned := by
  have begun : (s.setSlot i ((s.slot i).beginCycle p)).owned :=
    h.engine (i := i) (fun _ c h => c.write h rfl id (by simp [Slot.beginCycle])) (by simp [Slot.beginCycle])
  have exit := begun.engine (t := (s.setSlot i ((s.slot i).beginCycle p)).exitStep i) (fun _ c h => c.exitStep h) (exitStep_current _ i)
  exact (exit.adoptionStep i).engine (fun _ c h => c.stepAndEvaluate _ h) (stepAndEvaluate_current _ i _)

theorem State.owned.advanceSlot (h : s.owned) (i : Fin 64) (k : Nat) : (s.advanceSlot i k).1.owned := by
  unfold State.advanceSlot
  split
  · exact h
  · split
    · exact h.engine (i := i) (fun _ c h => c.write h rfl id) (by simp)
    · rw [boundary_fst]
      exact (h.boundarySteps i _).engine (fun _ c h => c.handOverStep h) (handOverStep_current _ i)

/-! ### The other operations -/

theorem State.owned.congr (h : s.owned) (store : t.store = s.store) (slots : t.slots = s.slots) : t.owned := by
  have slot : ∀ i, t.slot i = s.slot i := slot_congr slots
  simpa only [State.owned, State.storeOwned, store, slot] using h

theorem State.owned.positionAttempt (h : s.owned) (shapes : s.shapely) (i : Fin 64) : (s.positionAttempt i).1.owned := by
  by_cases seeks : s.seeks i
  · have current : (s.slot i).current = 0 := by
      have run : (s.slot i).run = none := by simpa [Slot.running] using seeks.2.1
      obtain ⟨-, -, -, placed, -⟩ := shapes i
      simpa [run] using placed
    exact (((slotClosed_ownedFor i 0).positionAttempt (current ▸ h.for i))).owned_of_zero
  · have nothing : s.positionAttempt i = (s, []) := if_neg (by simpa [State.seeks] using seeks)
    rw [nothing]
    exact h

theorem State.owned.write (h : s.owned) {x : Slot} (state : x.state = .unused → (s.slot i).state = .unused)
    (current : x.current = (s.slot i).current) : (s.setSlot i x).owned := by
  refine ⟨h.1, fun l hl => ?_⟩
  obtain ⟨low, high, defined, own⟩ := h.2 l hl
  rw [State.setSlot_slot]
  split
  next same => exact ⟨low, high, fun unused => defined (same ▸ state unused), fun shadow => by rw [current, same, own shadow]⟩
  next => exact ⟨low, high, defined, own⟩

theorem State.owned.setStore (h : s.owned) (law : st.lawful) (covers : s.store.covers st) : (s.setStore st).owned :=
  ((h.for 0).setStore law covers).owned fun _ _ _ _ => rfl

/-- Every slot in its shape, and the store owned. -/
def State.keepsStore (s : State) : Prop := s.shapely ∧ s.owned

theorem groupClosed_keepsStore : GroupClosed State.keepsStore where
  raise _ _ _ h := ⟨shapely_congr rfl h.1, h.2.congr rfl rfl⟩
  force _ i h := ⟨shapely_forceImmediate h.1 i, h.2.write id rfl⟩
  group _ _ _ h := ⟨shapely_congr rfl h.1, h.2.congr rfl rfl⟩
  member _ _ _ h := ⟨shapely_congr rfl h.1, h.2.congr rfl rfl⟩

theorem State.keepsStore.targetEvent (h : s.keepsStore) (i : Fin 64) (n : Nat) (k : Option Layer) (m : Option Mode) :
    (s.targetEvent i n k m).1.keepsStore := by
  refine ⟨shapely_targetEvent h.1 i n k m, ?_⟩
  unfold State.targetEvent
  dsimp only
  split
  next => exact h.2
  next defined =>
    refine State.owned.positionAttempt ?_ ?_ i
    · exact h.2.write id rfl
    · exact shapely_write h.1 defined rfl (by simp [Slot.fits])

theorem State.keepsStore.define (h : s.keepsStore) {d : SlotIdentity} (unused : (s.slot d.slot).state = .unused) :
    (s.define d).keepsStore := by
  refine ⟨shapely_define h.1 d, ?_⟩
  have shaped : (s.newSlot d).shaped := by simp [State.newSlot, Slot.shaped, Slot.unused]
  have placed : (s.setSlot d.slot (s.newSlot d)).keepsStore := by
    refine ⟨shapely_setSlot h.1 shaped, h.2.1, fun l hl => ?_⟩
    obtain ⟨low, high, defined, own⟩ := h.2.2 l hl
    have other : d.slot ≠ l.slot := fun same => defined (same ▸ unused)
    rw [State.setSlot_slot_ne _ _ _ _ other]
    exact ⟨low, high, defined, own⟩
  have taken := groupClosed_keepsStore.takeMember ⟨d.slot, .joining, 0, some d.group⟩ placed
  have attempted : ((s.setSlot d.slot (s.newSlot d)).takeMember ⟨d.slot, .joining, 0, some d.group⟩).positionAttempt d.slot |>.1 |>.keepsStore := by
    refine ⟨?_, taken.2.positionAttempt taken.1 d.slot⟩
    refine shapely_of_engine taken.1 ?_ (fun _ q h => q.positionAttempt h) fits_positionAttempt
    rw [(groupClosed_slot d.slot Slot.state (fun _ _ => rfl) .joining).takeMember (t := s.setSlot d.slot (s.newSlot d)) _
      (by simp [State.newSlot])]
    simp
  exact (groupClosed_keepsStore.deliver attempted).2

theorem State.keepsStore.release (h : s.keepsStore) (i : Fin 64) : (s.releaseSlot i).keepsStore := by
  refine ⟨shapely_releaseSlot h.1 i, ?_⟩
  have ended : (s.endTransition i .released).owned := h.2.engine (fun _ c h => c.endTransition _ h) (endTransition_current s i _)
  refine (groupClosed_keepsStore.takeMember (memberEvent i .unused 0) ⟨?_, ?_, ?_⟩).2
  · intro j
    rw [State.setSlot_slot]
    split
    next => exact Slot.shaped_unused
    next other =>
      have stands := (slotClosed_other (x := s.slot j) (Ne.symm other)).endTransition .released rfl
      simpa [stands] using h.1 j
  · exact ended.1.freeSlot i
  · intro l hl
    have kept : l ∈ (s.endTransition i .released).store.held ∧ l.slot ≠ i := by simpa [PlanStore.freeSlot] using hl
    rw [State.setSlot_slot_ne _ _ _ _ (Ne.symm kept.2)]
    exact ended.2 l kept.1

theorem State.keepsStore.warm (h : s.keepsStore) : s.warmBlocks.keepsStore := by
  refine ⟨fun i => by simpa [State.warmBlocks, State.slot] using Slot.warm_shaped (h.1 i), ?_⟩
  obtain ⟨law, keys, records⟩ := h.2.1.promoteAll
  refine ⟨PlanStore.lawful_congr rfl law, fun m hm => ?_⟩
  obtain ⟨l, hl, slot, key⟩ := keys m hm
  obtain ⟨low, high, defined, -⟩ := h.2.2 l hl
  have warm : s.warmBlocks.slot m.slot = (s.slot m.slot).warm := by simp [State.warmBlocks, State.slot]
  refine ⟨key ▸ low, key ▸ high, ?_, fun shadow => absurd ((records m hm).symm.trans shadow) (by decide)⟩
  rw [warm, Slot.warm, if_neg (slot ▸ defined)]
  exact nofun

theorem coreClosed_keepsStore : CoreClosed fun t _ => t.keepsStore where
  congr t u es h hu := ⟨shapely_congr h.1 hu.1, hu.2.congr h.2.2.2 h.1⟩
  advance t es i k h := ⟨shapely_advanceSlot h.1 i k, h.2.advanceSlot i k⟩
  joinCause t es i c h := ⟨shapely_joinCause h.1 i c, h.2.engine (fun _ q h => q.joinCause c h) (joinCause_current t i c)⟩
  leaveCause t es i c h := ⟨shapely_leaveCause h.1 i c, h.2.engine (fun _ q h => q.leaveCause c h) (leaveCause_current t i c)⟩
  outcome t i o r h := ⟨shapely_takeOutcome h.1 i o r, h.2.engine (fun _ q h => q.takeOutcome o r h) (takeOutcome_current t i o r)⟩
  select t es g r h _ := groupClosed_keepsStore.takeSelection (fun _ i n k m h => h.targetEvent i n k m) g r h
  force t es i h := groupClosed_keepsStore.force _ i h
  flag t es i h run := ⟨coreClosed_shapes.flag t es i h.1 run, h.2.write id rfl⟩
  deliver t es p h := groupClosed_keepsStore.takeMembers _ h
  group t es g x h _ := groupClosed_keepsStore.group _ g x h
  settle t g x h := groupClosed_keepsStore.settle g true (groupClosed_keepsStore.group _ g x h)
  rewrite t es l l' h hl same := ⟨shapely_congr rfl h.1, h.2.setStore (h.2.1.rewrite hl same) (PlanStore.covers_of_rewrite h.2.1 hl same)⟩
  scalars t es st h same := ⟨shapely_congr rfl h.1, h.2.setStore (PlanStore.lawful_congr same h.2.1)
    (PlanStore.covers_of_subset fun m hm => same ▸ hm)⟩
  load t i plan p w h defined low high e := by
    obtain ⟨law, keys⟩ := h.2.1.load e
    refine ⟨shapely_congr rfl h.1, law, fun m hm => ?_⟩
    rw [State.setStore_slot]
    rcases keys m hm with ⟨b, hb, ⟨slot, key⟩, role⟩ | ⟨slot, key, role⟩
    · rw [← slot, ← key, ← role]
      exact h.2.2 b hb
    · rw [slot, key]
      exact ⟨low, high, defined, fun shadow => by simpa [State.pinCurrent] using role shadow⟩
  dropRecord t i plan r h found unpinned := by
    obtain ⟨hr, record, -⟩ := PlanStore.recordOf_some found
    have unlinked : r.link = none := by
      simp only [State.pinned, Bool.or_eq_false_iff] at unpinned
      simpa using unpinned.2
    exact ⟨shapely_congr rfl h.1, h.2.setStore (h.2.1.free hr record unlinked)
      (PlanStore.covers_of_subset fun m hm => (PlanStore.mem_free.mp hm).1)⟩
  dropShadow t i plan r sh h found shadow := by
    obtain ⟨hr, record, rslot, rkey⟩ := PlanStore.recordOf_some found
    obtain ⟨hs, role, slot, key⟩ := h.2.1.shadowOf_iff.mp shadow
    obtain ⟨-, -, r', found', link⟩ := PlanStore.shadowOf_some shadow
    rw [found, Option.some.injEq] at found'
    subst found'
    refine ⟨shapely_congr rfl h.1, h.2.setStore
      (h.2.1.dropShadow hr record hs role ⟨rslot.trans slot.symm, rkey.trans key.symm⟩ link) fun m hm => ?_⟩
    rcases of_mem_insertLocation hm with rfl | hm
    · exact ⟨r, hr, ⟨rfl, rfl⟩, id⟩
    · exact ⟨m, (PlanStore.mem_free.mp hm).1, ⟨rfl, rfl⟩, id⟩
  define t d h unused := h.define unused
  release t i h _ := h.release i
  recording t i b h defined := ⟨coreClosed_shapes.recording t i b h.1 defined, h.2.write id rfl⟩
  latch t i h defined := ⟨coreClosed_shapes.latch t i h.1 defined, h.2.write id rfl⟩
  warm t h := h.warm
  cold t h := ⟨coreClosed_shapes.cold t h.1, ⟨PlanStore.cold_wf _, by simp [State.coldBlocks, PlanStore.cold, PlanStore.keyed]⟩,
    fun l hl => nomatch hl⟩

/-- Settles O57: the law outlives every operation on the store and on the slots. -/
theorem storeLawKept : Obligations.StoreLawKept := fun _ _ shapes wf keyed owned hs => by
  obtain ⟨-, law, own⟩ := coreClosed_keepsStore.step ⟨shapes, ⟨wf, keyed⟩, owned⟩ hs
  exact ⟨law.1, law.2, own⟩

end Sys2Proof.Machine
end

section
/-! PROOFS. The requests that edit the timetables (O31, O32, O33, O35, O36). -/

namespace Sys2Proof.Machine

variable {s t u : State} {i : Instr} {r : Request} {o : State → Answer}

/-! ### Requests that change the tables, addressed or broadcast -/

theorem refuse_any (ready : s.readyForAny i r) (kept : discarded r = false) {out : RequestOutcome} (e : o s = refuse out s) :
    s.refusedWith (carryOut i o s) r out :=
  have h := answered_any (bs := []) ready kept e changesOnly_refl (by simp) (by simp)
  ⟨h.1, h.2.2⟩

/-- A request that its owner answers and leaves the state as it is. -/
theorem answered_any_of_read (ready : s.readyForAny i r) (kept : discarded r = false) {out : RequestOutcome} {fields : List Byte}
    (e : o s = ⟨s, out, fields⟩) : s.answered (carryOut i o s) r out fields ∧ s.changesOnly (carryOut i o s) [.trunk, .mgmt] :=
  have h := answered_any (bs := []) ready kept e changesOnly_refl (by simp) (by simp)
  ⟨h.1, h.2.2⟩

theorem changed_any {tables : Timetable} {gs : List (Fin 16)} {fields : List Byte} (ready : s.readyForAny i r)
    (kept : discarded r = false) (ho : o s = changed s tables gs fields) :
    (carryOut i o s).tables = tables ∧ s.answered (carryOut i o s) r .done fields ∧ s.retabled (carryOut i o s) gs := by
  have engine := evaluateNow_frame (s.setTables tables) gs
  have stored : s.changesOnly (s.setTables tables) [.tables] := changesOnly_setTables tables (by simp) changesOnly_refl
  obtain ⟨answered, reply, -⟩ := answered_any (bs := .tables :: Block.engine) ready kept ho
    (changesOnly_trans (changesOnly_mono stored (by simp)) (changesOnly_mono engine (by simp))) (by decide) (by decide)
  refine ⟨?_, answered, fun unset => ?_, fun timeSet => ⟨fun g hg => ?_, ?_⟩⟩
  · exact (reply.2.2 .tables (by decide)).trans (engine.2.2 .tables (by decide))
  · rw [evaluateNow_of_unset (s.setTables tables) gs unset] at reply
    exact changesOnly_trans (changesOnly_mono stored (by simp)) (changesOnly_mono reply (by simp))
  · have shown := shownStands_of_groups (reply.2.2 .groups (by decide)) g
    exact (showsSelection_congr (reply.2.2 .tables (by decide)) (reply.2.2 .time (by decide)) shown).mpr
      (evaluateNow_showsSelection _ timeSet hg)
  · exact changesOnly_trans (changesOnly_mono stored (by simp))
      (changesOnly_trans (changesOnly_mono engine (by decide)) (changesOnly_mono reply (by simp)))

/-! ### SET CALENDAR -/

theorem setCalendar_of_bad {day : Half} {action dayType : Byte} (bad : 1 < action.toNat ∨ (action = 0#8 ∧ 7 < dayType.toNat)) :
    setCalendar day action dayType s = refuse .badValue s := by
  unfold setCalendar
  rcases bad with unknown | ⟨rfl, high⟩
  · split
    · omega
    · omega
    · rfl
  · exact if_neg (Nat.not_le.mpr high)

theorem setCalendar_set {day : Half} {dayType : Byte} (low : dayType.toNat ≤ 7) :
    setCalendar day 0#8 dayType s = calendarSet day.toNat dayType.toNat s := if_pos low

/-- Settles O31: the entry of the day, found by its key, decides; the calendar stays in day order. -/
theorem setCalendarSets : Obligations.SetCalendarSets := by
  rintro s src day action dayType r ready ⟨days, -⟩
  have kept : discarded r = false := by
    obtain rfl := Option.some.inj ready.1
    exact Bool.and_false _
  refine ⟨_, exec_of_owner rfl s, fun bad => refuse_any ready kept (setCalendar_of_bad bad), ?_, ?_⟩
  · rintro rfl low
    have given := setCalendar_set (s := s) (day := day) low
    have absent : (∀ e ∈ s.tables.calendar, e.day ≠ day.toNat) → s.tables.calendar.find? (fun e => e.day == day.toNat) = none :=
      fun h => by simpa using h
    have found : ∀ e ∈ s.tables.calendar, e.day = day.toNat → s.tables.calendar.find? (fun e => e.day == day.toNat) = some e :=
      fun e he hd => hd ▸ find?_key_of_pairwise days he
    refine ⟨fun held => ?_, fun none full => ?_, fun new room => ?_⟩
    · exact answered_any_of_read ready kept (given.trans (by simp [calendarSet, found _ held rfl]))
    · exact refuse_any ready kept (given.trans (by simp [calendarSet, absent none, full, Config.calendarCap]))
    · have change : calendarSet day.toNat dayType.toNat s =
          changed s { s.tables with calendar := insertDay ⟨day.toNat, dayType.toNat⟩ s.tables.calendar } (List.finRange 16) [] := by
        unfold calendarSet
        dsimp only
        by_cases day_held : ∃ e ∈ s.tables.calendar, e.day = day.toNat
        · obtain ⟨e, he, hd⟩ := day_held
          rw [found e he hd]
          refine if_neg fun same => new ?_
          rwa [← hd, ← same]
        · rw [absent fun e he hd => day_held ⟨e, he, hd⟩]
          exact if_pos (room.resolve_left day_held)
      obtain ⟨tables, answered, shown⟩ := changed_any ready kept (given.trans change)
      rw [tables, insertDay_eq]
      exact ⟨fun e => (mem_insertKey days).trans (or_congr_right And.comm), insertKey_pairwise days, rfl, answered, shown⟩
  · rintro rfl
    refine ⟨fun none => ?_, fun held => ?_⟩
    · exact refuse_any ready kept (if_neg (by simpa using none))
    · exact changed_any ready kept (if_pos (by simpa using held))

/-! ### Values of requests -/

theorem index?_iff {n v : Nat} {k : Fin n} : index? n v = some k ↔ v = k.val := by
  refine ⟨fun h => ?_, index?_val⟩
  unfold index? at h
  split at h
  next => exact congrArg Fin.val (Option.some.inj h)
  next => exact nomatch h

theorem minute?_iff {m : Half} {n : Nat} : minute? m = some n ↔ m.toNat ≤ 1439 ∧ m.toNat = n := by
  simp [minute?, Nat.lt_succ_iff]

theorem tablePlan_iff {b : Byte} {n : Nat} : tablePlan b = some n ↔ (1 ≤ b.toNat ∧ b.toNat ≤ 250) ∧ b.toNat = n := by
  simp [tablePlan]

theorem priority?_iff {b : Byte} {n : Nat} : priority? b = some n ↔ b.toNat ≤ 7 ∧ b.toNat = n := by
  simp [priority?]

theorem modeOfCode_isSome (b : Byte) : (modeOfCode b).isSome = true ↔ b.toNat ≤ 3 := by
  unfold modeOfCode
  split
  next h => simp [h]
  next h => simp [h]
  next h => simp [h]
  next h => simp [h]
  next =>
    refine ⟨nofun, fun low => ?_⟩
    interval_cases b.toNat <;> contradiction

theorem optModeOfCode_iff {b : Byte} {m : Option Mode} : optModeOfCode b = some m ↔ knownMode b ∧ modeOfCode b = m := by
  unfold optModeOfCode knownMode
  split
  next h =>
    subst h
    rw [show modeOfCode 0xFF#8 = none from rfl]
    simp
  next h =>
    rw [← modeOfCode_isSome b]
    cases modeOfCode b <;> simp [h]

/-! ### ADD BASE -/

theorem addBase_of_legal {group mask : Byte} {start : Half} {plan mode : Byte} {g : Fin 16} (hg : group.toNat = g.val)
    (hm : mask ≠ 0#8) (hs : start.toNat ≤ 1439) (hp : 1 ≤ plan.toNat ∧ plan.toNat ≤ 250) (hd : knownMode mode) :
    addBase group mask start plan mode s = addBaseChecked ⟨0, g, mask, start.toNat, plan.toNat, modeOfCode mode⟩ s := by
  simp [addBase, index?_iff.mpr hg, minute?_iff.mpr ⟨hs, rfl⟩, tablePlan_iff.mpr ⟨hp, rfl⟩, optModeOfCode_iff.mpr ⟨hd, rfl⟩, hm]

theorem addBase_of_illegal {group mask : Byte} {start : Half} {plan mode : Byte}
    (illegal : ¬(group.toNat ≤ 15 ∧ mask ≠ 0#8 ∧ start.toNat ≤ 1439 ∧ 1 ≤ plan.toNat ∧ plan.toNat ≤ 250 ∧ knownMode mode)) :
    addBase group mask start plan mode s = refuse .badValue s := by
  unfold addBase
  split
  next g m p md hg hs hp hd =>
    rw [index?_iff] at hg
    refine if_pos (Classical.byContradiction fun hm => illegal ?_)
    exact ⟨hg ▸ Nat.le_of_lt_succ g.isLt, hm, (minute?_iff.mp hs).1, (tablePlan_iff.mp hp).1.1, (tablePlan_iff.mp hp).1.2,
      (optModeOfCode_iff.mp hd).1⟩
  next => rfl

/-- R98: an entry clashes with one of its group, its start and a day type of its mask. -/
theorem any_clashes_iff {l : List BaseEntry} {e : BaseEntry} : l.any e.clashes = true ↔
    ∃ x ∈ l, x.group.val = e.group.val ∧ x.start = e.start ∧ e.mask &&& x.mask ≠ 0#8 := by
  simp only [List.any_eq_true, BaseEntry.clashes, Bool.and_eq_true, beq_iff_eq, bne_iff_ne, ← Fin.ext_iff, and_assoc]
  exact exists_congr fun x => and_congr_right fun _ => and_congr eq_comm (and_congr_left' eq_comm)

/-- The lowest free id of an ordered collection is the one id that is not used and below which all are. -/
theorem lowestId_eq {α : Type} {id : α → Nat} {l : List α} (ids : l.Pairwise fun a b => id a < id b) {n : Nat}
    (free : ∀ e ∈ l, id e ≠ n) (low : ∀ m, m < n → ∃ e ∈ l, id e = m) : lowestIdFrom 0 (l.map id) = n := by
  obtain ⟨-, absent, lowest⟩ := lowestId_spec ids (Nat.lt_succ_self l.length)
  refine Nat.le_antisymm (Nat.not_lt.mp fun lt => ?_) (Nat.not_lt.mp fun lt => ?_)
  · obtain ⟨e, he, same⟩ := lowest n lt
    exact free e he same
  · obtain ⟨e, he, same⟩ := low _ lt
    exact absent e he same

/-- An item joins an ordered collection under an id that no other has. -/
theorem mem_insertKey_of_free {α : Type} {key : α → Nat} {e x : α} {l : List α} (ids : l.Pairwise fun a b => key a < key b)
    (free : ∀ y ∈ l, key y ≠ key e) : x ∈ insertKey key e l ↔ x ∈ l ∨ x = e := by
  rw [mem_insertKey ids, or_comm]
  exact or_congr_left ⟨And.right, fun hx => ⟨free x hx, hx⟩⟩

/-- Settles O32: the checks in their order; the lowest free id is the only one that no entry has and below which every id is used. -/
theorem addBaseAdds : Obligations.AddBaseAdds := by
  rintro s src group mask start plan mode r ready ⟨-, -, ids, -⟩
  refine ⟨_, exec_of_owner rfl s, fun illegal => ?_, ?_, ?_, ?_⟩
  · exact carryOut_refuse ready _ _ (addBase_of_illegal illegal)
  · rintro ⟨hg, hm, hs, low, high, hd⟩ clash
    have given := addBase_of_legal (s := s) (g := ⟨group.toNat, Nat.lt_succ_of_le hg⟩) rfl hm hs ⟨low, high⟩ hd
    exact carryOut_refuse ready _ _ (given.trans (if_pos (any_clashes_iff.mpr clash)))
  · rintro ⟨hg, hm, hs, low, high, hd⟩ none full
    have given := addBase_of_legal (s := s) (g := ⟨group.toNat, Nat.lt_succ_of_le hg⟩) rfl hm hs ⟨low, high⟩ hd
    exact carryOut_refuse ready _ _ (given.trans ((if_neg fun clash => none (any_clashes_iff.mp clash)).trans (if_pos full.ge)))
  · rintro ⟨-, hm, hs, low, high, hd⟩ none room g id hgroup free below
    have lowest : lowestIdFrom 0 (s.tables.base.map BaseEntry.id) = id := lowestId_eq ids free below
    have change : addBase group mask start plan mode s =
        changed s { s.tables with base := insertBase ⟨id, g, mask, start.toNat, plan.toNat, modeOfCode mode⟩ s.tables.base } [g] (num2 id) := by
      rw [addBase_of_legal hgroup hm hs ⟨low, high⟩ hd, addBaseChecked]
      dsimp only
      rw [if_neg fun clash => none (by simpa only [hgroup] using any_clashes_iff.mp clash), if_neg (by simpa [Config.baseCap] using room), lowest]
    obtain ⟨tables, answered, shown⟩ := carryOut_changed ready change
    rw [tables, insertBase_eq free]
    exact ⟨fun e => mem_insertKey_of_free ids free, insertKey_pairwise ids, rfl, answered, shown⟩

/-! ### ADD EVENT -/

theorem eventGiven_of_legal {group : Byte} {startDay startMinute endDay endMinute : Half} {plan priority mode : Byte} {g : Fin 16}
    (hg : group.toNat = g.val) (hs : startMinute.toNat ≤ 1439) (he : endMinute.toNat ≤ 1439)
    (hp : 1 ≤ plan.toNat ∧ plan.toNat ≤ 250) (hr : priority.toNat ≤ 7) (hd : knownMode mode) :
    eventGiven group startDay startMinute endDay endMinute plan priority mode =
      some ⟨0, g, startDay.toNat, startMinute.toNat, endDay.toNat, endMinute.toNat, plan.toNat, priority.toNat, modeOfCode mode⟩ := by
  simp [eventGiven, index?_iff.mpr hg, minute?_iff.mpr ⟨hs, rfl⟩, minute?_iff.mpr ⟨he, rfl⟩, tablePlan_iff.mpr ⟨hp, rfl⟩,
    priority?_iff.mpr ⟨hr, rfl⟩, optModeOfCode_iff.mpr ⟨hd, rfl⟩]

theorem legal_of_eventGiven {group : Byte} {startDay startMinute endDay endMinute : Half} {plan priority mode : Byte} {e : EventEntry}
    (given : eventGiven group startDay startMinute endDay endMinute plan priority mode = some e) :
    (group.toNat ≤ 15 ∧ startMinute.toNat ≤ 1439 ∧ endMinute.toNat ≤ 1439 ∧ 1 ≤ plan.toNat ∧ plan.toNat ≤ 250 ∧
      priority.toNat ≤ 7 ∧ knownMode mode) ∧
    e.span = ((endDay.toNat : Int) - startDay.toNat) * 1440 + ((endMinute.toNat : Int) - startMinute.toNat) := by
  unfold eventGiven at given
  split at given
  next g sm em hg hs he =>
    split at given
    next p pr md hp hr hd =>
      obtain rfl := Option.some.inj given
      rw [index?_iff] at hg
      rw [minute?_iff] at hs he
      rw [tablePlan_iff] at hp
      rw [priority?_iff] at hr
      rw [optModeOfCode_iff] at hd
      refine ⟨⟨hg ▸ Nat.le_of_lt_succ g.isLt, hs.1, he.1, hp.1.1, hp.1.2, hr.1, hd.1⟩, ?_⟩
      rw [EventEntry.span, hs.2, he.2]
    next => exact nomatch given
  next => exact nomatch given

theorem pairLe_iff {d m d' m' : Nat} : pairLe d m d' m' = true ↔ pairAtOrBefore d m d' m' := by
  simp [pairLe, pairAtOrBefore]

theorem isSet_iff {x : TimeBase} : x.isSet = true ↔ x.disc ≠ .unset := by simp [TimeBase.isSet]

theorem addEvent_of_legal {group : Byte} {startDay startMinute endDay endMinute : Half} {plan priority mode : Byte} {g : Fin 16}
    (hg : group.toNat = g.val) (hs : startMinute.toNat ≤ 1439) (he : endMinute.toNat ≤ 1439)
    (hp : 1 ≤ plan.toNat ∧ plan.toNat ≤ 250) (hr : priority.toNat ≤ 7) (hd : knownMode mode)
    (inside : 0 < ((endDay.toNat : Int) - startDay.toNat) * 1440 + ((endMinute.toNat : Int) - startMinute.toNat) ∧
      ((endDay.toNat : Int) - startDay.toNat) * 1440 + ((endMinute.toNat : Int) - startMinute.toNat) ≤ 20160) :
    addEvent group startDay startMinute endDay endMinute plan priority mode s = addEventChecked
      ⟨0, g, startDay.toNat, startMinute.toNat, endDay.toNat, endMinute.toNat, plan.toNat, priority.toNat, modeOfCode mode⟩ s := by
  rw [addEvent, eventGiven_of_legal hg hs he hp hr hd]
  exact if_neg (by simp only [EventEntry.span, Config.eventSpan]; omega)

/-- R100, check 3: the entry has ended before the present minute is over. -/
theorem passed_iff {day minute : Nat} : s.time.isSet = true ∧ pairLe day minute s.time.day s.time.minute = true ↔
    s.time.disc ≠ .unset ∧ pairAtOrBefore day minute s.time.day (s.time.nt / 600) :=
  and_congr isSet_iff pairLe_iff

/-- Settles O33: the four checks in their order, and an entry under the lowest free id. -/
theorem addEventAdds : Obligations.AddEventAdds := by
  rintro s src group startDay startMinute endDay endMinute plan priority mode r ready ⟨-, -, -, -, -, ids, -⟩
  refine ⟨_, exec_of_owner rfl s, fun illegal => ?_, ?_, ?_, ?_⟩
  · refine carryOut_refuse ready _ _ ?_
    unfold addEvent
    split
    next => rfl
    next e given =>
      obtain ⟨⟨hg, hs, he, low, high, hr, hd⟩, span⟩ := legal_of_eventGiven given
      refine if_pos (Classical.byContradiction fun inside => illegal ⟨hg, hs, he, low, high, hr, hd, ?_⟩)
      rw [← span]
      simpa [Config.eventSpan] using inside
  · rintro ⟨hg, hs, he, low, high, hr, hd, inside⟩ past
    have given := addEvent_of_legal (s := s) (g := ⟨group.toNat, Nat.lt_succ_of_le hg⟩) rfl hs he ⟨low, high⟩ hr hd inside
    exact carryOut_refuse ready _ _ (given.trans (if_pos (passed_iff.mpr past)))
  · rintro ⟨hg, hs, he, low, high, hr, hd, inside⟩ ahead full
    have given := addEvent_of_legal (s := s) (g := ⟨group.toNat, Nat.lt_succ_of_le hg⟩) rfl hs he ⟨low, high⟩ hr hd inside
    exact carryOut_refuse ready _ _ (given.trans ((if_neg fun past => ahead (passed_iff.mp past)).trans (if_pos full.ge)))
  · rintro ⟨-, hs, he, low, high, hr, hd, inside⟩ ahead room g id hgroup free below
    have lowest : lowestIdFrom 0 (s.tables.events.map EventEntry.id) = id := lowestId_eq ids free below
    have change : addEvent group startDay startMinute endDay endMinute plan priority mode s =
        changed s { s.tables with events := insertEvent ⟨id, g, startDay.toNat, startMinute.toNat, endDay.toNat, endMinute.toNat,
          plan.toNat, priority.toNat, modeOfCode mode⟩ s.tables.events } [g] (num2 id) := by
      rw [addEvent_of_legal hgroup hs he ⟨low, high⟩ hr hd inside, addEventChecked]
      dsimp only
      rw [if_neg fun past => ahead (passed_iff.mp past), if_neg (by simpa [Config.eventCap] using room), lowest]
    obtain ⟨tables, answered, shown⟩ := carryOut_changed ready change
    rw [tables, insertEvent_eq free]
    exact ⟨fun e => mem_insertKey_of_free ids free, insertKey_pairwise ids, rfl, answered, shown⟩

/-! ### SET CUE and CUT CUE -/

theorem CueEntry.key_eq_iff {a b : CueEntry} : a.key = b.key ↔ a.number = b.number ∧ a.group = b.group := by
  have ha := a.group.isLt
  have hb := b.group.isLt
  rw [Fin.ext_iff]
  unfold CueEntry.key
  omega

theorem CueEntry.key_lt_iff {a b : CueEntry} : a.key < b.key ↔ a.number < b.number ∨ (a.number = b.number ∧ a.group < b.group) := by
  have ha := a.group.isLt
  have hb := b.group.isLt
  rw [Fin.lt_def]
  unfold CueEntry.key
  omega

/-- Settles O35: the key of an entry is its number and group, in whose order the table stands. -/
theorem cueTableEdits : Obligations.CueTableEdits := by
  refine ⟨?_, ?_⟩
  · rintro s src cue group plan duration priority r ready ⟨-, -, -, -, -, -, -, -, keys, -⟩
    refine ⟨_, exec_of_owner rfl s, fun illegal => ?_, ?_, ?_⟩
    · refine carryOut_refuse ready _ _ ?_
      unfold setCue
      split
      next g p pr hg hp hr =>
        rw [index?_iff] at hg
        refine if_pos (Classical.byContradiction fun hc => illegal ?_)
        exact ⟨hc, hg ▸ Nat.le_of_lt_succ g.isLt, (tablePlan_iff.mp hp).1.1, (tablePlan_iff.mp hp).1.2, (priority?_iff.mp hr).1⟩
      next => rfl
    all_goals rintro ⟨hc, hg, low, high, hr⟩
    all_goals
      have given : ∀ g : Fin 16, group.toNat = g.val → setCue cue group plan duration priority s =
          setCueChecked ⟨cue.toNat, g, plan.toNat, max 1 (min 720 duration.toNat), priority.toNat⟩ s := fun g h => by
        simp [setCue, index?_iff.mpr h, tablePlan_iff.mpr ⟨⟨low, high⟩, rfl⟩, priority?_iff.mpr ⟨hr, rfl⟩, hc, clampDuration]
      have held : ∀ (g : Fin 16) (d p pr : Nat), group.toNat = g.val →
          ((s.tables.cues.any fun x => x.key == (CueEntry.mk cue.toNat g p d pr).key) = true ↔
            ∃ e ∈ s.tables.cues, e.number = cue.toNat ∧ e.group.val = group.toNat) := fun g d p pr h => by
        simp only [List.any_eq_true, beq_iff_eq, CueEntry.key_eq_iff, h, Fin.ext_iff]
    · intro absent full
      refine carryOut_refuse ready _ _ ((given ⟨group.toNat, Nat.lt_succ_of_le hg⟩ rfl).trans (if_neg ?_))
      rw [Bool.or_eq_true, held _ _ _ _ rfl]
      simp [absent, full, Config.cueCap]
    · intro room g hgroup
      have stored : setCue cue group plan duration priority s = ⟨s.setTables { s.tables with
          cues := insertCue ⟨cue.toNat, g, plan.toNat, max 1 (min 720 duration.toNat), priority.toNat⟩ s.tables.cues }, .done,
          num2 (max 1 (min 720 duration.toNat))⟩ := by
        rw [given g hgroup]
        refine if_pos ?_
        rw [Bool.or_eq_true, held _ _ _ _ hgroup]
        exact room.imp_right decide_eq_true
      obtain ⟨answered, left, frame⟩ := answered_of (bs := [.tables]) ready stored (changesOnly_setTables _ (by simp) changesOnly_refl)
        (by decide) (by decide)
      rw [left.2.2 .tables (by decide), State.setTables_tables, insertCue_eq]
      refine ⟨fun e => ?_, (insertKey_pairwise keys).imp CueEntry.key_lt_iff.mp, rfl, answered, changesOnly_mono frame (by simp)⟩
      rw [mem_insertKey keys, Ne, CueEntry.key_eq_iff, and_comm (a := ¬_)]
  · intro s src cue group r ready
    refine ⟨_, exec_of_owner rfl s, fun bad => ?_, fun hc g hgroup => ⟨fun absent => ?_, fun held => ?_⟩⟩
    · refine carryOut_refuse ready _ _ ?_
      unfold cutCue
      split
      next => rfl
      next g hg =>
        rw [index?_iff] at hg
        exact if_pos (bad.resolve_right (by have := g.isLt; omega))
    · refine carryOut_refuse ready _ _ ?_
      simp only [cutCue, index?_iff.mpr hgroup, if_neg hc]
      exact if_neg (by simpa using absent)
    · have cut : cutCue cue group s = ⟨s.setTables { s.tables with
          cues := s.tables.cues.filter fun x => !(x.number == cue.toNat && x.group == g) }, .done, []⟩ := by
        simp only [cutCue, index?_iff.mpr hgroup, if_neg hc]
        exact if_pos (by simpa using held)
      obtain ⟨answered, left, frame⟩ := answered_of (bs := [.tables]) ready cut (changesOnly_setTables _ (by simp) changesOnly_refl)
        (by decide) (by decide)
      rw [left.2.2 .tables (by decide), State.setTables_tables]
      exact ⟨fun e => by simp [List.mem_filter, ← not_and_or], rfl, answered, changesOnly_mono frame (by simp)⟩

/-! ### DIRECT PLAN and END DIRECT -/

theorem setDirect_get (t : Timetable) (g : Fin 16) (d : Option DirectSelection) : (t.setDirect g d).direct.get g = d :=
  Vector.getElem_set_self g.isLt

theorem setDirect_get_ne (t : Timetable) {g h : Fin 16} (hne : h ≠ g) (d : Option DirectSelection) :
    (t.setDirect g d).direct.get h = t.direct.get h :=
  Vector.getElem_set_ne g.isLt h.isLt fun same => hne (Fin.ext same.symm)

/-- Settles O36: the group's direct selection is written, and the group evaluated. -/
theorem directSelectionsMove : Obligations.DirectSelectionsMove := by
  refine ⟨?_, ?_⟩
  · intro s src group plan duration r ready
    have zero : duration.toNat = 0 ↔ duration = 0#16 := by bv_omega
    refine ⟨_, exec_of_owner rfl s, fun illegal => ?_, ?_, ?_⟩
    · refine carryOut_refuse ready _ _ ?_
      unfold directPlan
      split
      next g p hg hp =>
        rw [index?_iff] at hg
        exact absurd ⟨hg ▸ Nat.le_of_lt_succ g.isLt, (tablePlan_iff.mp hp).1.1, (tablePlan_iff.mp hp).1.2⟩ illegal
      next => rfl
    all_goals rintro ⟨hg, low, high⟩
    · intro timed unset
      refine carryOut_refuse ready _ _ ?_
      simp only [directPlan, index?_val (k := (⟨group.toNat, Nat.lt_succ_of_le hg⟩ : Fin 16)) (v := group.toNat) rfl, tablePlan_iff.mpr ⟨⟨low, high⟩, rfl⟩]
      exact if_pos ⟨fun h => timed (zero.mp h), by simp [TimeBase.isSet, unset]⟩
    · intro may g hgroup
      have change : directPlan group plan duration s = changed s (s.tables.setDirect g (some ⟨plan.toNat,
          if duration = 0#16 then none else some (s.time.day * 864000 + s.time.nt + 600 * min 1440 duration.toNat)⟩)) [g] [] := by
        simp only [directPlan, index?_iff.mpr hgroup, tablePlan_iff.mpr ⟨⟨low, high⟩, rfl⟩]
        refine (if_neg ?_).trans ?_
        · rintro ⟨timed, unset⟩
          rcases may with h | h
          · exact timed (zero.mpr h)
          · simp [isSet_iff.mpr h] at unset
        · simp only [directGiven, zero]
          rfl
      obtain ⟨tables, answered, shown⟩ := carryOut_changed ready change
      rw [tables]
      exact ⟨setDirect_get _ _ _, fun h hne => setDirect_get_ne _ hne _, rfl, answered, shown⟩
  · intro s src group r ready
    refine ⟨_, exec_of_owner rfl s, fun bad => ?_, fun g hgroup => ⟨fun none => ?_, fun held => ?_⟩⟩
    · exact carryOut_refuse ready _ _ (by rw [endDirect, index?_of_le bad])
    · exact carryOut_refuse ready _ _ (by simp only [endDirect, index?_iff.mpr hgroup, none])
    · obtain ⟨d, hd⟩ := Option.ne_none_iff_exists'.mp held
      obtain ⟨tables, answered, shown⟩ := carryOut_changed (tables := s.tables.setDirect g none) (gs := [g]) (fields := []) ready
        (owner := endDirect group) (by simp only [endDirect, index?_iff.mpr hgroup, hd])
      rw [tables]
      exact ⟨setDirect_get _ _ _, fun h hne => setDirect_get_ne _ hne _, rfl, answered, shown⟩

end Sys2Proof.Machine
end

section
/-! PROOFS. What the layers of the timetable engine select (O38, O39). -/

namespace Sys2Proof.Machine

variable {t : Timetable} {g : Fin 16} {day minute : Nat}

/-! ### The order of the layers -/

theorem DirectSelection.inForce_iff {d : DirectSelection} {n : Nat} : d.inForce n = true ↔ ∀ e, d.endR = some e → n < e := by
  unfold DirectSelection.inForce
  split
  next h => simp [h]
  next e h => simp [h]

theorem ActiveCue.inForce_iff {c : ActiveCue} {n : Nat} : c.inForce n = true ↔ n < c.endR := by simp [ActiveCue.inForce]

/-- An option of which nothing passes a filter. -/
theorem filter_none_of_not {α : Type} {x : Option α} {p : α → Bool} {P : α → Prop} (hp : ∀ a, p a = true ↔ P a)
    (h : ¬∃ a, x = some a ∧ P a) : x.filter p = none :=
  Option.filter_eq_none_iff.mpr fun a ha pa => h ⟨a, ha, (hp a).mp pa⟩

/-- Settles O38: each layer in turn is passed where nothing of it is in force. -/
theorem layersSelectInOrder : Obligations.LayersSelectInOrder := by
  intro t g defaultPlan day minute
  dsimp only
  have direct := fun h => filter_none_of_not (x := t.direct.get g) (fun d => DirectSelection.inForce_iff (d := d) (n := instantOf day minute)) h
  have cue := fun h => filter_none_of_not (x := t.active.get g) (fun c => ActiveCue.inForce_iff (c := c) (n := instantOf day minute)) h
  refine ⟨fun d hd hin => ?_, fun hd c hc hin => ?_, fun hd hc e he => ?_, fun hd hc he e hb => ?_, fun hd hc he hb => ?_⟩
  · have found : (t.direct.get g).filter (·.inForce (instantOf day minute)) = some d :=
      Option.filter_eq_some_iff.mpr ⟨hd, DirectSelection.inForce_iff.mpr hin⟩
    simp only [Timetable.select, found]
  · have found : (t.active.get g).filter (·.inForce (instantOf day minute)) = some c :=
      Option.filter_eq_some_iff.mpr ⟨hc, ActiveCue.inForce_iff.mpr hin⟩
    simp only [Timetable.select, direct hd, found]
  · simp only [Timetable.select, direct hd, cue hc, he]
  · simp only [Timetable.select, direct hd, cue hc, he, hb]
  · simp only [Timetable.select, direct hd, cue hc, he, hb]

/-! ### The best of a list -/

section
variable {α : Type} {better : α → α → Prop} [DecidableRel better] {l : List α} {e m : α}

/-- One step of the search for the best item of a list. -/
def takeBetter (better : α → α → Prop) [DecidableRel better] (best : Option α) (e : α) : Option α :=
  match best with
  | none => some e
  | some b => if better e b then some e else some b

/-- The best item of a list, the first of those that no other betters. -/
def bestOf (better : α → α → Prop) [DecidableRel better] (l : List α) : Option α := l.foldl (takeBetter better) none

theorem foldl_takeBetter (irrefl : ∀ a, ¬better a a) (trans : ∀ a b c, better a b → better b c → better a c) (l : List α) :
    ∀ b : α, ∃ m, l.foldl (takeBetter better) (some b) = some m ∧ (m = b ∨ (m ∈ l ∧ better m b)) ∧ ∀ x ∈ l, ¬better x m := by
  induction l with
  | nil => exact fun b => ⟨b, rfl, .inl rfl, fun x hx => nomatch hx⟩
  | cons e l ih =>
    intro b
    by_cases h : better e b
    · obtain ⟨m, found, own, rest⟩ := ih e
      refine ⟨m, by rw [List.foldl_cons, takeBetter, if_pos h, found], .inr ?_, List.forall_mem_cons.mpr ⟨?_, rest⟩⟩
      · rcases own with rfl | ⟨own, above⟩
        · exact ⟨List.mem_cons_self, h⟩
        · exact ⟨List.mem_cons_of_mem _ own, trans _ _ _ above h⟩
      · rcases own with rfl | ⟨-, above⟩
        · exact irrefl _
        · exact fun below => irrefl _ (trans _ _ _ below above)
    · obtain ⟨m, found, own, rest⟩ := ih b
      refine ⟨m, by rw [List.foldl_cons, takeBetter, if_neg h, found], own.imp_right (And.imp_left (List.mem_cons_of_mem _)),
        List.forall_mem_cons.mpr ⟨?_, rest⟩⟩
      rcases own with rfl | ⟨-, above⟩
      · exact h
      · exact fun below => h (trans _ _ _ below above)

/-- The best of a list is an item of it that no other betters; a list with an item has one. -/
theorem bestOf_spec (irrefl : ∀ a, ¬better a a) (trans : ∀ a b c, better a b → better b c → better a c) (l : List α) :
    (l = [] ∧ bestOf better l = none) ∨ ∃ m ∈ l, bestOf better l = some m ∧ ∀ x ∈ l, ¬better x m := by
  cases l with
  | nil => exact .inl ⟨rfl, rfl⟩
  | cons b l =>
    obtain ⟨m, found, own, rest⟩ := foldl_takeBetter irrefl trans l b
    refine .inr ⟨m, ?_, found, List.forall_mem_cons.mpr ⟨?_, rest⟩⟩
    · rcases own with rfl | ⟨own, -⟩
      · exact List.mem_cons_self
      · exact List.mem_cons_of_mem _ own
    · rcases own with rfl | ⟨-, above⟩
      · exact irrefl _
      · exact fun below => irrefl _ (trans _ _ _ below above)

/-- Where of two different items one betters the other, the best item is the one that no other betters. -/
theorem bestOf_iff (irrefl : ∀ a, ¬better a a) (trans : ∀ a b c, better a b → better b c → better a c)
    (total : ∀ x ∈ l, ∀ y ∈ l, x ≠ y → better x y ∨ better y x) :
    bestOf better l = some e ↔ e ∈ l ∧ ∀ x ∈ l, ¬better x e := by
  rcases bestOf_spec irrefl trans l with ⟨rfl, found⟩ | ⟨m, hm, found, best⟩
  · simp [found]
  · rw [found, Option.some.injEq]
    constructor
    · rintro rfl
      exact ⟨hm, best⟩
    · rintro ⟨he, top⟩
      refine Classical.byContradiction fun ne => ?_
      exact (total m hm e he ne).elim (top m hm) (best e he)

end

/-! ### The base layer -/

theorem latestStart_eq (l : List BaseEntry) : latestStart l = bestOf (fun e b => b.start < e.start) l := by
  unfold latestStart bestOf
  congr 1
  funext best e
  cases best <;> rfl

/-- Of two different items of a list one stands before the other. -/
theorem rel_of_pairwise {α : Type} {R : α → α → Prop} {l : List α} (h : l.Pairwise R) {x y : α} (hx : x ∈ l) (hy : y ∈ l) (ne : x ≠ y) :
    R x y ∨ R y x := by
  induction h with
  | nil => exact absurd hx List.not_mem_nil
  | @cons a l first _ ih =>
    rcases List.mem_cons.mp hx with hx' | hx' <;> rcases List.mem_cons.mp hy with hy' | hy'
    · exact absurd (hx'.trans hy'.symm) ne
    · exact .inl (hx' ▸ first y hy')
    · exact .inr (hy' ▸ first x hx')
    · exact ih hx' hy'

/-- R98: entries of one group with a common day type have different starts. -/
theorem start_ne_of_noClash (law : t.noClash) {x y : BaseEntry} (hx : x ∈ t.base)
    (hy : y ∈ t.base) (group : x.group = y.group) {k : Nat} (mx : x.mask.getLsbD k = true) (my : y.mask.getLsbD k = true) (ne : x ≠ y) :
    x.start ≠ y.start := by
  have apart : x.clashes y = false := (rel_of_pairwise law hx hy ne).elim id fun h => (BaseEntry.clashes_comm x y).trans h
  intro start
  have common : x.mask &&& y.mask ≠ 0#8 := fun zero => by
    have bit := congrArg (fun w => BitVec.getLsbD w k) zero
    simp [mx, my] at bit
  simp [BaseEntry.clashes, group, start, common] at apart

/-- R99: the latest start among entries of one group and day type. -/
theorem latestStart_iff (law : t.noClash) {l : List BaseEntry} {k : Nat}
    (within : ∀ x ∈ l, x ∈ t.base ∧ x.group = g ∧ x.mask.getLsbD k = true) (e : BaseEntry) :
    latestStart l = some e ↔ e ∈ l ∧ ∀ x ∈ l, x.start ≤ e.start := by
  rw [latestStart_eq, bestOf_iff (better := fun e b : BaseEntry => b.start < e.start) (fun a => Nat.lt_irrefl _) (fun a b c h1 h2 => Nat.lt_trans h2 h1)]
  · simp only [Nat.not_lt]
  · intro x hx y hy ne
    obtain ⟨bx, gx, mx⟩ := within x hx
    obtain ⟨b_y, gy, my⟩ := within y hy
    exact (Nat.lt_or_gt_of_ne (start_ne_of_noClash law bx b_y (gx.trans gy.symm) mx my ne)).symm

/-- R99 (with R96): the base layer by its two lists. -/
theorem baseLayer_iff (law : t.noClash) (g : Fin 16) (day minute : Nat) :
    let today := fun (e : BaseEntry) => e ∈ t.base ∧ e.group = g ∧ e.mask.getLsbD (t.dayType day) = true ∧ e.start ≤ minute
    let before := fun (e : BaseEntry) => e ∈ t.base ∧ e.group = g ∧ e.mask.getLsbD (t.dayType (yesterday day)) = true
    ((∃ e, today e) → ∀ e, t.baseLayer g day minute = some e ↔ today e ∧ ∀ x, today x → x.start ≤ e.start) ∧
    ((¬∃ e, today e) → ∀ e, t.baseLayer g day minute = some e ↔ before e ∧ ∀ x, before x → x.start ≤ e.start) := by
  intro today before
  generalize hl : ((t.baseOn g (t.dayType day)).filter fun e => decide (e.start ≤ minute)) = l
  generalize hm : t.baseOn g (t.dayType (yesterday day)) = m
  have inl : ∀ e, e ∈ l ↔ today e := fun e => by
    simp only [← hl, today, Timetable.baseOn, List.mem_filter, Bool.and_eq_true, beq_iff_eq, decide_eq_true_eq, and_assoc]
  have inm : ∀ e, e ∈ m ↔ before e := fun e => by simp [← hm, before, Timetable.baseOn]
  have latest := latestStart_iff law (l := l) (g := g) fun x hx =>
    ⟨((inl x).mp hx).1, ((inl x).mp hx).2.1, ((inl x).mp hx).2.2.1⟩
  have earlier := latestStart_iff law (l := m) (g := g) fun x hx => (inm x).mp hx
  simp only [inl] at latest
  simp only [inm] at earlier
  have layer : t.baseLayer g day minute = (latestStart l).or (latestStart m) := by
    rw [Timetable.baseLayer, hl, hm]
    cases latestStart l <;> rfl
  refine ⟨fun some e => ?_, fun none e => ?_⟩
  · rw [layer, ← latest]
    cases found : latestStart l with
    | some b => rfl
    | none =>
      obtain ⟨x, hx⟩ := some
      rcases bestOf_spec (better := fun e b : BaseEntry => b.start < e.start) (fun a => Nat.lt_irrefl _)
        (fun a b c h1 h2 => Nat.lt_trans h2 h1) l with ⟨rfl, -⟩ | ⟨b, -, best, -⟩
      · exact absurd ((inl x).mpr hx) List.not_mem_nil
      · rw [latestStart_eq, best] at found
        exact nomatch found
  · have empty : l = [] := List.eq_nil_iff_forall_not_mem.mpr fun x hx => none ⟨x, (inl x).mp hx⟩
    rw [layer, empty, ← earlier]
    rfl

/-! ### The event layer -/

/-- R101: an entry is active on a minute of a day. -/
theorem EventEntry.activeAt_iff {e : EventEntry} : e.activeAt day minute = true ↔
    pairAtOrBefore e.startDay e.startMinute day minute ∧ ¬pairAtOrBefore e.endDay e.endMinute day minute := by
  rw [EventEntry.activeAt, Bool.and_eq_true, pairLe_iff, Bool.not_eq_true', ← Bool.not_eq_true, pairLe_iff]

/-- R101: the preference among entries: priority, then the later start, then the lower id. -/
theorem EventEntry.beats_iff {e x : EventEntry} : e.beats x = true ↔ x.priority < e.priority ∨ (x.priority = e.priority ∧
    (¬pairAtOrBefore e.startDay e.startMinute x.startDay x.startMinute ∨
      ((e.startDay = x.startDay ∧ e.startMinute = x.startMinute) ∧ e.id < x.id))) := by
  have start : (!pairLe e.startDay e.startMinute x.startDay x.startMinute) = true ↔
      ¬pairAtOrBefore e.startDay e.startMinute x.startDay x.startMinute := by
    rw [Bool.not_eq_true', ← Bool.not_eq_true, pairLe_iff]
  simp only [EventEntry.beats, Bool.or_eq_true, Bool.and_eq_true, decide_eq_true_eq, beq_iff_eq, start]

theorem EventEntry.beats_irrefl (e : EventEntry) : ¬e.beats e = true := by
  rw [EventEntry.beats_iff]
  unfold pairAtOrBefore
  omega

theorem EventEntry.beats_trans (a b c : EventEntry) (hab : a.beats b = true) (hbc : b.beats c = true) : a.beats c = true := by
  rw [EventEntry.beats_iff] at *
  unfold pairAtOrBefore at *
  omega

theorem EventEntry.beats_total {a b : EventEntry} (ids : a.id ≠ b.id) : a.beats b = true ∨ b.beats a = true := by
  rw [EventEntry.beats_iff, EventEntry.beats_iff]
  unfold pairAtOrBefore
  omega

/-- R101: the event layer takes the entry that every other active one of the group is behind. -/
theorem eventLayer_eq (g : Fin 16) (day minute : Nat) : t.eventLayer g day minute =
    bestOf (fun e b : EventEntry => e.beats b = true) (t.events.filter fun e => e.group == g && e.activeAt day minute) := by
  unfold Timetable.eventLayer bestOf
  congr 1
  funext best e
  cases best <;> rfl

/-- Settles O39: the best of the entries that each layer considers, among which no two are level. -/
theorem baseAndEventLayersSelect : Obligations.BaseAndEventLayersSelect := by
  refine ⟨fun t g day minute _ law => baseLayer_iff law g day minute, ?_⟩
  intro t g day minute ordered active sameStart preferred
  obtain ⟨-, -, -, -, -, ids, -⟩ := ordered
  generalize hl : (t.events.filter fun e => e.group == g && e.activeAt day minute) = l
  have inl : ∀ e, e ∈ l ↔ active e := fun e => by
    rw [← hl, List.mem_filter, Bool.and_eq_true, beq_iff_eq, EventEntry.activeAt_iff]
  have apart : ∀ x ∈ l, ∀ y ∈ l, x ≠ y → x.beats y = true ∨ y.beats x = true := fun x hx y hy ne => by
    refine EventEntry.beats_total fun same => ne ?_
    have found := find?_key_of_pairwise ids ((inl x).mp hx).1
    rw [same, find?_key_of_pairwise ids ((inl y).mp hy).1] at found
    exact (Option.some.inj found).symm
  have layer : t.eventLayer g day minute = bestOf (fun e b : EventEntry => e.beats b = true) l := by rw [eventLayer_eq, hl]
  refine ⟨fun e => ?_, ?_⟩
  · rw [layer, bestOf_iff EventEntry.beats_irrefl EventEntry.beats_trans apart, inl]
    refine and_congr_right fun he => forall_congr' fun x => ?_
    rw [inl]
    refine ⟨fun top hx ne => ?_, fun top hx beats => ?_⟩
    · exact EventEntry.beats_iff.mp ((apart x ((inl x).mpr hx) e ((inl e).mpr he) ne).resolve_left (top hx))
    · have ne : x ≠ e := fun same => EventEntry.beats_irrefl e (by rwa [same] at beats)
      exact EventEntry.beats_irrefl x (EventEntry.beats_trans x e x beats (EventEntry.beats_iff.mpr (top hx ne)))
  · rw [layer]
    rcases bestOf_spec EventEntry.beats_irrefl EventEntry.beats_trans l with ⟨rfl, found⟩ | ⟨m, hm, found, -⟩ <;> rw [found]
    · exact ⟨fun _ e he => List.not_mem_nil ((inl e).mpr he), fun _ => rfl⟩
    · exact ⟨nofun, fun none => absurd ((inl m).mp hm) (none m)⟩

end Sys2Proof.Machine
end

section
/-! PROOFS. The requests that write and free the plan store's locations (O17, O18, O19, O25). -/

namespace Sys2Proof.Machine

variable {s t u : State} {c : Instr} {r : Request} {o : State → Answer} {st : PlanStore} {l l' m sh : Location} {ms : List Location}
  {n plan : Nat} {i : Fin 64}

/-! ### Requests that change the store -/

/-- A request whose owner leaves another store and nothing else changed. -/
theorem stored_of (ready : s.readyFor c r) {fields : List Byte} (e : o s = ⟨s.setStore st, .done, fields⟩) :
    (carryOut c o s).store = st ∧ s.answered (carryOut c o s) r .done fields ∧ s.changesOnly (carryOut c o s) [.store, .trunk, .mgmt] := by
  obtain ⟨answered, left, frame⟩ := answered_of (bs := [.store]) ready e (changesOnly_setStore _ (by simp) changesOnly_refl)
    (by simp) (by simp)
  exact ⟨left.2.2 .store (by decide), answered, changesOnly_mono frame (by simp)⟩

/-- R61: a location placed in a store. -/
theorem PlanStore.becomes_put (wf : st.wf = true) (l : Location) : st.becomes (st.put l) l [l.num] :=
  ⟨mem_insertLocation_self, fun m hm => by
    rw [PlanStore.mem_put wf]
    simp only [List.mem_singleton] at hm
    grind, rfl⟩

/-- A location placed at one number keeps what finds another location. -/
theorem find?_insertLocation_of_not {p : Location → Bool} (out : p l = false) (away : ∀ m ∈ ms, m.num = l.num → p m = false) :
    (insertLocation l ms).find? p = ms.find? p := by
  induction ms with
  | nil => simp [insertLocation, out]
  | cons k ms ih =>
    unfold insertLocation
    split
    · simp [out]
    · split
      next same => simp [out, away k List.mem_cons_self same.symm]
      next =>
        have rest := ih fun m hm => away m (List.mem_cons_of_mem _ hm)
        simp only [List.find?_cons, rest]

/-- A found location rewritten in its place is found again. -/
theorem find?_insertLocation_of_found {p : Location → Bool} (ordered : ms.Pairwise fun a b => a.num < b.num)
    (found : ms.find? p = some l) (num : l'.num = l.num) (still : p l' = true) : (insertLocation l' ms).find? p = some l' := by
  induction ms with
  | nil => exact nomatch found
  | cons k ms ih =>
    obtain ⟨above, ordered⟩ := List.pairwise_cons.mp ordered
    by_cases hk : p k = true
    · rw [List.find?_cons_of_pos hk, Option.some.injEq] at found
      subst found
      rw [insertLocation, if_neg (by omega), if_pos num, List.find?_cons_of_pos still]
    · rw [List.find?_cons_of_neg hk] at found
      have := above l (List.mem_of_find?_eq_some found)
      rw [insertLocation, if_neg (by omega), if_neg (by omega), List.find?_cons_of_neg hk, ih ordered found]

/-- A location of a number that no other has is found where it alone passes. -/
theorem find?_insertLocation_of_only {p : Location → Bool} (none : ms.find? p = none) (is : p l = true) :
    (insertLocation l ms).find? p = some l := by
  induction ms with
  | nil => simp [insertLocation, is]
  | cons k ms ih =>
    have hk : p k = false := by simpa using List.find?_eq_none.mp none k List.mem_cons_self
    have rest : ms.find? p = .none := by rwa [List.find?_cons_of_neg (by simp [hk])] at none
    unfold insertLocation
    split
    · simp [is]
    · split
      · simp [is]
      · simp [hk, ih rest]

/-- R61: the key map after a location that is no record of the key is placed, at a number that no record of the key has. -/
theorem PlanStore.recordOf_put_of_not {k : Nat} (out : ¬(l.occupancy = .record ∧ l.slot = i ∧ l.plan = k))
    (away : ∀ m ∈ st.held, m.num = l.num → m.occupancy ≠ .record) : (st.put l).recordOf i k = st.recordOf i k :=
  find?_insertLocation_of_not (by simpa [and_assoc] using out) fun m hm same => by simp [away m hm same]

/-- R61: a key's record rewritten in place is the key's record. -/
theorem PlanStore.recordOf_put_of_found {k : Nat} (wf : st.wf = true) (found : st.recordOf i k = some l) (num : l'.num = l.num)
    (record : l'.occupancy = .record) (slot : l'.slot = i) (key : l'.plan = k) : (st.put l').recordOf i k = some l' :=
  find?_insertLocation_of_found (PlanStore.wf_iff.mp wf).1 found num (by simp [record, slot, key])

/-! ### The lowest free location -/

theorem PlanStore.lowestFree_of_full (wf : st.wf = true) (full : st.full) : st.lowestFree = none := by
  cases e : st.lowestFree with
  | none => rfl
  | some n =>
    obtain ⟨low, free, -⟩ := PlanStore.lowestFree_some wf e
    obtain ⟨l, hl, held⟩ := full n low
    exact absurd held (free l hl)

theorem PlanStore.lowestFree_of_is (wf : st.wf = true) (lowest : st.lowestFreeIs n) : st.lowestFree = some n := by
  obtain ⟨low, free, below⟩ := lowest
  cases e : st.lowestFree with
  | none =>
    obtain ⟨l, hl, held⟩ := PlanStore.lowestFree_none wf e n low
    exact absurd held (free l hl)
  | some k =>
    obtain ⟨-, free', below'⟩ := PlanStore.lowestFree_some wf e
    rcases Nat.lt_trichotomy k n with lt | rfl | gt
    · obtain ⟨l, hl, held⟩ := below k lt
      exact absurd held (free' l hl)
    · rfl
    · obtain ⟨l, hl, held⟩ := below' n gt
      exact absurd held (free l hl)

/-! ### LOAD PLAN -/

section
variable {slot plan : Byte} {cycle offset : Half} {shortPct longPct coord : Byte} {phases : List PhaseEntry}

theorem planNumber_iff {b : Byte} : planNumber b = true ↔ 1 ≤ b.toNat ∧ b.toNat ≤ 250 := decide_eq_true_iff

/-- R64, check 2. -/
theorem valuesFit_iff : (planGiven cycle offset shortPct longPct coord phases).valuesFit = true ↔ legalPlan cycle offset coord phases := by
  have ids : ((phases.map phaseOf).map Phase.id).Nodup ↔ (phases.map PhaseEntry.id).Nodup := by
    have same : (phases.map phaseOf).map Phase.id = (phases.map PhaseEntry.id).map BitVec.toNat := by simp [phaseOf]
    rw [same]
    exact List.nodup_map_iff BitVec.toNat_injective
  simp only [Plan.valuesFit, Phase.fits, List.all_eq_true, Bool.and_eq_true, decide_eq_true_eq]
  simp only [planGiven, List.length_map, ids, legalPlan, List.forall_mem_map, phaseOf, and_assoc]

/-- R64, check 3. -/
theorem sumsFit_iff : (planGiven cycle offset shortPct longPct coord phases).sumsFit = true ↔ splitsSum cycle phases := by
  simp [Plan.sumsFit, planGiven, splitsSum, phaseOf, Function.comp_def]

/-- R64: the first two checks passed. -/
theorem loadPlan_of_legal (hi : slot.toNat = i.val) (low : 1 ≤ plan.toNat) (high : plan.toNat ≤ 250)
    (legal : legalPlan cycle offset coord phases) :
    loadPlan slot plan (planGiven cycle offset shortPct longPct coord phases) s =
      loadChecked i plan.toNat (planGiven cycle offset shortPct longPct coord phases) s := by
  simp only [loadPlan, index?_val hi, planNumber_iff.mpr ⟨low, high⟩, valuesFit_iff.mpr legal, Bool.and_self, if_true]

end

section
variable {p : Plan}

theorem loadChecked_full (sums : p.sumsFit = true) (defined : (s.slot i).state ≠ .unused)
    (none : s.store.load i plan (s.pinCurrent i plan) p = none) : loadChecked i plan p s = refuse .noRoom s := by
  simp only [loadChecked, sums, Bool.not_true, Bool.false_eq_true, if_false, if_neg defined, none]

theorem loadChecked_placed (sums : p.sumsFit = true) (defined : (s.slot i).state ≠ .unused) {w : Placed} {rec : Location}
    (placed : s.store.load i plan (s.pinCurrent i plan) p = some w) (found : w.store.recordOf i plan = some rec) :
    loadChecked i plan p s = ⟨s.setStore w.store, .done, num2 w.num ++ num1 (partCode w.role) ++ num1 p.shortPct ++ num1 p.longPct ++
      num1 (bitsNum [(s.slot i).current == plan, (s.slot i).target == plan, rec.link.isSome])⟩ := by
  obtain ⟨-, -, slot, key⟩ := PlanStore.recordOf_some found
  have pins : (s.setStore w.store).keyPins i plan =
      num1 (bitsNum [(s.slot i).current == plan, (s.slot i).target == plan, rec.link.isSome]) := by
    simp only [State.keyPins, State.setStore_store, found]
    simp only [State.pinByte, State.pinCurrent, State.pinTarget, State.setStore_slot, slot, key]
  simp only [loadChecked, sums, Bool.not_true, Bool.false_eq_true, if_false, if_neg defined, placed, pins]

end

/-- Settles O17: the key has no record, so the lowest free location, if there is one, takes the plan. -/
theorem loadPlanWritesRecord : Obligations.LoadPlanWritesRecord := by
  intro s src slot plan cycle offset shortPct longPct coord phases r i ready hi low high legal sums defined absent wf unstuck
  have checked := loadPlan_of_legal (s := s) (shortPct := shortPct) (longPct := longPct) hi low high legal
  refine ⟨_, exec_of_owner rfl s, fun full => ?_, fun n lowest => ?_⟩
  · refine carryOut_refuse ready _ _ (checked.trans (loadChecked_full (sumsFit_iff.mpr sums) defined ?_))
    simp [PlanStore.load, absent, PlanStore.lowestFree_of_full wf full]
  · have placed : s.store.load i plan.toNat (s.pinCurrent i plan.toNat) (planGiven cycle offset shortPct longPct coord phases) =
        some ⟨s.store.occupy n .record i plan.toNat (planGiven cycle offset shortPct longPct coord phases), n, .record⟩ := by
      simp only [PlanStore.load, absent, PlanStore.lowestFree_of_is wf lowest, Option.map_some]
    have found := find?_insertLocation_of_only (ms := s.store.held) (p := fun l => l.occupancy == .record && l.slot == i && l.plan == plan.toNat)
      (l := ⟨n, .record, i, plan.toNat, false, none,
        s.store.writeImage n (planImage i plan.toNat (planGiven cycle offset shortPct longPct coord phases) n)⟩) absent (by simp)
    obtain ⟨stored, answered, frame⟩ := stored_of ready (checked.trans (loadChecked_placed (sumsFit_iff.mpr sums) defined placed found))
    refine ⟨?_, answered, frame⟩
    rw [stored, ← PlanStore.writeImage_eq unstuck]
    exact PlanStore.becomes_put wf _

/-- R67: a new shadow and its record's link. -/
theorem PlanStore.becomes_shadow (wf : st.wf = true) (low : sh.num < 1024) (long : sh.words.length = 32) (other : l.num ≠ sh.num) :
    st.becomes ((st.put sh).put l) sh [sh.num, l.num] ∧ st.becomes ((st.put sh).put l) l [sh.num, l.num] := by
  have mem : ∀ m, m ∈ ((st.put sh).put l).held ↔ m = l ∨ m.num ≠ l.num ∧ (m = sh ∨ m.num ≠ sh.num ∧ m ∈ st.held) := fun m =>
    (PlanStore.mem_put (PlanStore.put_wf wf low long)).trans (or_congr_right (and_congr_right fun _ => PlanStore.mem_put wf))
  have rest : ∀ m : Location, m.num ∉ [sh.num, l.num] → (m ∈ ((st.put sh).put l).held ↔ m ∈ st.held) := fun m hm => by
    simp only [List.mem_cons, List.not_mem_nil, or_false, not_or] at hm
    rw [mem]
    grind
  exact ⟨⟨(mem sh).mpr (.inr ⟨other.symm, .inl rfl⟩), rest, rfl⟩, ⟨(mem l).mpr (.inl rfl), rest, rfl⟩⟩

/-- Settles O18: the record, its shadow or a new shadow takes the plan, as the current plan says. -/
theorem loadPlanReplaces : Obligations.LoadPlanReplaces := by
  intro s src slot plan cycle offset shortPct longPct coord phases r i l ready hi low high legal sums defined held wf unstuck
  have checked := loadPlan_of_legal (s := s) (shortPct := shortPct) (longPct := longPct) hi low high legal
  obtain ⟨mem, record, hslot, key⟩ := PlanStore.recordOf_some held
  refine ⟨_, exec_of_owner rfl s, ?_⟩
  dsimp only
  generalize hp : planGiven cycle offset shortPct longPct coord phases = p at checked
  have fit : p.sumsFit = true := hp ▸ sumsFit_iff.mpr sums
  have short : min 25 shortPct.toNat = p.shortPct := by rw [← hp]; rfl
  have long : min 50 longPct.toNat = p.longPct := by rw [← hp]; rfl
  rw [short, long]
  refine ⟨fun idle => ?_, fun current sh shadow sslot skey => ?_, fun current unshadowed => ⟨fun full => ?_, fun n lowest => ?_⟩⟩
  · have placed : s.store.load i plan.toNat (s.pinCurrent i plan.toNat) p = some ⟨s.store.overwrite l p, l.num, .record⟩ := by
      simp [PlanStore.load, held, State.pinCurrent, idle]
    have found : (s.store.overwrite l p).recordOf i plan.toNat = some _ :=
      PlanStore.recordOf_put_of_found wf held rfl record hslot key
    obtain ⟨stored, answered, frame⟩ := stored_of ready (checked.trans (loadChecked_placed fit defined placed found))
    refine ⟨?_, ?_, frame⟩
    · rw [stored, PlanStore.overwrite, PlanStore.writeImage_eq unstuck, hslot, key]
      exact PlanStore.becomes_put wf _
    · rwa [beq_false_of_ne idle] at answered
  · have placed : s.store.load i plan.toNat (s.pinCurrent i plan.toNat) p = some ⟨s.store.overwrite sh p, sh.num, .shadow⟩ := by
      simp [PlanStore.load, held, State.pinCurrent, current, PlanStore.loadShadow, hslot, key, shadow]
    obtain ⟨smem, isShadow, l', again, link⟩ := PlanStore.shadowOf_some shadow
    obtain rfl := Option.some.inj (held.symm.trans again)
    have found : (s.store.overwrite sh p).recordOf i plan.toNat = some l := by
      refine (PlanStore.recordOf_put_of_not (by simp [isShadow]) fun m hm same => ?_).trans held
      rw [PlanStore.eq_of_num wf hm smem same, isShadow]
      exact nofun
    obtain ⟨stored, answered, frame⟩ := stored_of ready (checked.trans (loadChecked_placed fit defined placed found))
    refine ⟨?_, ?_, frame⟩
    · rw [stored, PlanStore.overwrite, PlanStore.writeImage_eq unstuck, sslot, skey]
      exact PlanStore.becomes_put wf _
    · rw [beq_iff_eq.mpr current, link] at answered
      exact answered
  · refine carryOut_refuse ready _ _ (checked.trans (loadChecked_full fit defined ?_))
    simp [PlanStore.load, held, State.pinCurrent, current, PlanStore.loadShadow, hslot, key, unshadowed,
      PlanStore.lowestFree_of_full wf full]
  · have placed : s.store.load i plan.toNat (s.pinCurrent i plan.toNat) p =
        some ⟨(s.store.occupy n .shadow i plan.toNat p).put { l with link := some n }, n, .shadow⟩ := by
      simp [PlanStore.load, held, State.pinCurrent, current, PlanStore.loadShadow, hslot, key, unshadowed,
        PlanStore.lowestFree_of_is wf lowest]
    have words := occupied_length s.store n i plan.toNat p
    have found : ((s.store.occupy n .shadow i plan.toNat p).put { l with link := some n }).recordOf i plan.toNat =
        some { l with link := some n } := by
      refine PlanStore.recordOf_put_of_found (PlanStore.put_wf wf lowest.1 words) (l := l) ?_ rfl record hslot key
      exact (PlanStore.recordOf_put_of_not (by simp) fun m hm same => absurd same (lowest.2.1 m hm)).trans held
    obtain ⟨stored, answered, frame⟩ := stored_of ready (checked.trans (loadChecked_placed fit defined placed found))
    rw [stored, PlanStore.occupy, ← PlanStore.writeImage_eq unstuck]
    obtain ⟨new, linked⟩ := PlanStore.becomes_shadow wf (l := { l with link := some n })
      (sh := ⟨n, .shadow, i, plan.toNat, false, none, s.store.writeImage n (planImage i plan.toNat p n)⟩) lowest.1 words (lowest.2.1 l mem)
    refine ⟨new, linked, ?_, frame⟩
    rw [beq_iff_eq.mpr current] at answered
    exact answered

/-! ### DROP PLAN -/

section
variable {slot part : Byte} {plan : Byte}

theorem partOfCode_none (h : 1 < part.toNat) : partOfCode part = none := by
  unfold partOfCode
  split
  · omega
  · omega
  · rfl

theorem dropPlan_of_bad (bad : 63 < slot.toNat ∨ plan.toNat = 0 ∨ 250 < plan.toNat ∨ 1 < part.toNat) :
    dropPlan slot plan part s = refuse .badValue s := by
  unfold dropPlan
  split
  next i o hi ho =>
    rw [if_neg]
    rw [planNumber_iff]
    rcases bad with high | zero | high | unknown
    · rw [index?_of_le high] at hi
      exact nomatch hi
    · omega
    · omega
    · rw [partOfCode_none unknown] at ho
      exact nomatch ho
  · rfl

theorem dropPlan_record (hi : slot.toNat = i.val) (low : 1 ≤ plan.toNat) (high : plan.toNat ≤ 250) :
    dropPlan slot plan 0#8 s = dropRecord i plan.toNat s := by
  rw [dropPlan, index?_val hi]
  exact if_pos (planNumber_iff.mpr ⟨low, high⟩)

theorem dropPlan_shadow (hi : slot.toNat = i.val) (low : 1 ≤ plan.toNat) (high : plan.toNat ≤ 250) :
    dropPlan slot plan 1#8 s = dropShadow i plan.toNat s := by
  rw [dropPlan, index?_val hi]
  exact if_pos (planNumber_iff.mpr ⟨low, high⟩)

end

/-- R63: the three reasons of a pin. -/
theorem State.pinned_iff : s.pinned l = true ↔ (s.slot l.slot).current = l.plan ∨ (s.slot l.slot).target = l.plan ∨ l.link ≠ none := by
  simp [State.pinned, State.pinCurrent, State.pinTarget, Option.isSome_iff_ne_none, or_assoc]

/-- R70: a shadow freed and its record's link cleared. -/
theorem PlanStore.becomes_unlinked (wf : st.wf = true) (other : l.num ≠ n) :
    st.becomes ((st.free n).put l) l [l.num, n] ∧ ∀ m ∈ ((st.free n).put l).held, m.num ≠ n := by
  have mem : ∀ m, m ∈ ((st.free n).put l).held ↔ m = l ∨ m.num ≠ l.num ∧ m ∈ st.held ∧ m.num ≠ n := fun m => by
    rw [PlanStore.mem_put (PlanStore.free_wf wf n), PlanStore.mem_free]
  refine ⟨⟨(mem l).mpr (.inl rfl), fun m hm => ?_, rfl⟩, fun m hm => ?_⟩
  · simp only [List.mem_cons, List.not_mem_nil, or_false, not_or] at hm
    rw [mem]
    grind
  · rcases (mem m).mp hm with rfl | ⟨-, -, away⟩
    · exact other
    · exact away

/-- Settles O19: by the part, and by what the key map and the shadow link find. -/
theorem dropPlanDrops : Obligations.DropPlanDrops := by
  intro s src slot plan part r ready wf
  refine ⟨_, exec_of_owner rfl s, fun bad => carryOut_refuse ready _ _ (dropPlan_of_bad bad), fun i hi low high => ⟨?_, ?_, ?_, ?_⟩⟩
  · rintro rfl absent
    exact carryOut_refuse ready _ _ ((dropPlan_record hi low high).trans (by simp only [dropRecord, absent]))
  · rintro rfl l found
    obtain ⟨-, -, rslot, rkey⟩ := PlanStore.recordOf_some found
    have pin := State.pinned_iff (s := s) (l := l)
    rw [rslot, rkey] at pin
    have dropped : dropPlan slot plan 0#8 s = if s.pinned l then refuse .inUse s else ⟨s.setStore (s.store.free l.num), .done, []⟩ := by
      rw [dropPlan_record hi low high, dropRecord]
      simp only [found]
    refine ⟨fun reason => ?_, fun current target link => ?_⟩
    · rw [if_pos (pin.mpr reason)] at dropped
      exact carryOut_refuse ready _ _ dropped
    · rw [if_neg (pin.not.mpr (by simp [current, target, link]))] at dropped
      exact stored_of ready dropped
  · rintro rfl absent
    exact carryOut_refuse ready _ _ ((dropPlan_shadow hi low high).trans (by simp [dropShadow, absent]))
  · rintro rfl l sh found shadow
    have dropped : dropPlan slot plan 1#8 s = ⟨s.setStore ((s.store.free sh.num).put { l with link := none }), .done, []⟩ := by
      rw [dropPlan_shadow hi low high, dropShadow]
      simp only [found, shadow]
    obtain ⟨stored, answered, frame⟩ := stored_of ready dropped
    obtain ⟨mem, record, -⟩ := PlanStore.recordOf_some found
    obtain ⟨smem, isShadow, -⟩ := PlanStore.shadowOf_some shadow
    have other : l.num ≠ sh.num := fun same => by
      rw [PlanStore.eq_of_num wf mem smem same, isShadow] at record
      exact nomatch record
    rw [stored]
    obtain ⟨unlinked, freed⟩ := PlanStore.becomes_unlinked wf (l := { l with link := none }) other
    exact ⟨unlinked, freed, answered, frame⟩

/-! ### FORCE CHECK -/

section
variable {num word : Nat} {bit1 bit2 : Byte}

theorem forceFits_iff : forceFits num word bit1 bit2 = true ↔
    num ≤ 1023 ∧ word ≤ 31 ∧ bit1.toNat ≤ 5 ∧ (bit2 = 0xFF#8 ∨ bit2.toNat ≤ 5) ∧ bit1 ≠ bit2 := by
  have named : (bitsNamed bit1 bit2).all (fun b => decide (b ≤ 5)) = true ↔ bit1.toNat ≤ 5 ∧ (bit2 = 0xFF#8 ∨ bit2.toNat ≤ 5) := by
    unfold bitsNamed
    split
    next none => simp [none]
    next other => simp [other]
  simp only [forceFits, Bool.and_eq_true, named, decide_eq_true_eq, Config.locations, Config.imageWords, bne_iff_ne, Nat.lt_succ_iff,
    and_assoc]

/-- R181: without stuck cells the named check bits are inverted together. -/
theorem flip_eq (unstuck : st.stuck = []) (l : Location) : l.flip st word (bitsNamed bit1 bit2) = { l with
    words := l.words.modify word fun w => { w with check := w.check ^^^ ((1#6 <<< bit1.toNat) ^^^ (if bit2 = 0xFF#8 then 0#6 else 1#6 <<< bit2.toNat)) } } := by
  unfold Location.flip
  congr 2
  funext w
  simp only [PlanStore.cellsOf, unstuck, List.foldl_nil, bitsNamed]
  split
  · simp [CodeWord.flipCheck]
  · simp [CodeWord.flipCheck, BitVec.xor_assoc]

end

/-- Settles O25: the checks in turn, and then the word rewritten in place. -/
theorem forceCheckFlips : Obligations.ForceCheckFlips := by
  intro s src location word bit1 bit2 r ready wf unstuck legal
  have fits : forceFits location.toNat word.toNat bit1 bit2 = true ↔ legal := forceFits_iff
  have legally (h : legal) : forceCheck location.toNat word.toNat bit1 bit2 s = match s.store.at? location.toNat with
      | none => refuse .noSuch s
      | some l => if l.faulted then refuse .faulted s else
        let st := { s.store.put (l.flip s.store word.toNat (bitsNamed bit1 bit2)) with scrubOn := false }
        ⟨s.setStore st, .done, st.scrubFields⟩ := by
    rw [forceCheck, fits.mpr h]
    rfl
  refine ⟨_, exec_of_owner rfl s, fun bad => ?_, fun h free => ?_, fun h l hl num => ?_⟩
  · refine carryOut_refuse ready _ _ (if_pos ?_)
    rw [Bool.not_eq_true', ← Bool.not_eq_true]
    exact fits.not.mpr bad
  · refine carryOut_refuse ready _ _ ((legally h).trans ?_)
    rw [PlanStore.at?_none.mpr free]
  · have at_ := (PlanStore.at?_iff wf).mpr ⟨hl, num⟩
    refine ⟨fun faulted => carryOut_refuse ready _ _ ((legally h).trans ?_), fun normal => ?_⟩
    · rw [at_]
      exact if_pos faulted
    · have forced := legally h
      rw [at_] at forced
      dsimp only at forced
      rw [normal, if_neg Bool.false_ne_true, flip_eq unstuck] at forced
      obtain ⟨stored, answered, frame⟩ := stored_of ready forced
      obtain ⟨placed, rest, -⟩ := PlanStore.becomes_put wf { l with words := l.words.modify word.toNat fun w =>
        { w with check := w.check ^^^ ((1#6 <<< bit1.toNat) ^^^ (if bit2 = 0xFF#8 then 0#6 else 1#6 <<< bit2.toNat)) } }
      intro flip l'
      rw [stored]
      exact ⟨placed, fun m other => rest m (by simpa using other), rfl, answered, frame⟩

end Sys2Proof.Machine
end

section
/-! PROOFS. The check bits of a word and the image of a plan (O21, O22). -/

namespace Sys2Proof.Machine

/-! ### The check is linear (R188) -/

theorem foldl_xor_xor {α : Type} (l : List α) (f g : α → Bool) : ∀ a b : Bool,
    l.foldl (fun acc j => acc ^^ (f j ^^ g j)) (a ^^ b) = (l.foldl (fun acc j => acc ^^ f j) a ^^ l.foldl (fun acc j => acc ^^ g j) b) := by
  induction l with
  | nil => exact fun _ _ => rfl
  | cons x l ih =>
    intro a b
    have swap : ((a ^^ b) ^^ (f x ^^ g x)) = ((a ^^ f x) ^^ (b ^^ g x)) := by
      simp only [Bool.xor_assoc, Bool.xor_left_comm]
    rw [List.foldl_cons, swap, ih]
    rfl

theorem hammingBit_xor (d e : Half) (i : Nat) : hammingBit (d ^^^ e) i = (hammingBit d i ^^ hammingBit e i) := by
  simp only [hammingBit, BitVec.getLsbD_xor, Bool.and_xor_distrib_right]
  exact foldl_xor_xor _ _ _ false false

theorem parityOf_xor {w : Nat} (x y : BitVec w) : parityOf (x ^^^ y) = (parityOf x ^^ parityOf y) := by
  simp only [parityOf, BitVec.getLsbD_xor]
  exact foldl_xor_xor _ _ _ false false

/-- Check bits 0 to 4 are the Hamming bits, and check bit 5 makes the parities of data and check bits agree. -/
theorem checkBits_spec (d : Half) : (∀ i, i < 5 → (checkBits d).getLsbD i = hammingBit d i) ∧ parityOf (checkBits d) = parityOf d := by
  have bits : ∀ p a b c e f : Bool,
      let h : BitVec 5 := BitVec.ofNat 5 (bitsNum [a, b, c, e, f])
      let w : BitVec 6 := BitVec.ofBool (p ^^ parityOf h) ++ h
      (w.getLsbD 0 = a ∧ w.getLsbD 1 = b ∧ w.getLsbD 2 = c ∧ w.getLsbD 3 = e ∧ w.getLsbD 4 = f) ∧ parityOf w = p := by decide
  obtain ⟨⟨h0, h1, h2, h3, h4⟩, parity⟩ :=
    bits (parityOf d) (hammingBit d 0) (hammingBit d 1) (hammingBit d 2) (hammingBit d 3) (hammingBit d 4)
  refine ⟨fun i hi => ?_, parity⟩
  obtain rfl | rfl | rfl | rfl | rfl : i = 0 ∨ i = 1 ∨ i = 2 ∨ i = 3 ∨ i = 4 := by omega
  · exact h0
  · exact h1
  · exact h2
  · exact h3
  · exact h4

/-- A word with the cells inverted that another word names. -/
def CodeWord.disturb (w e : CodeWord) : CodeWord := ⟨w.data ^^^ e.data, w.check ^^^ e.check⟩

variable (d : Half) (e : CodeWord)

/-- R188: the syndrome of a disturbed word is that of the disturbance. -/
theorem syndrome_disturb : ((CodeWord.fresh d).disturb e).syndrome = e.syndrome := by
  unfold CodeWord.syndrome
  congr 1
  refine List.map_congr_left fun i hi => ?_
  have bit := (checkBits_spec d).1 i (by simpa using hi)
  simp only [CodeWord.disturb, CodeWord.fresh, hammingBit_xor, BitVec.getLsbD_xor, bit]
  cases hammingBit d i <;> cases hammingBit e.data i <;> cases e.check.getLsbD i <;> rfl

/-- R188: so is its parity. -/
theorem parityAgrees_disturb : ((CodeWord.fresh d).disturb e).parityAgrees = e.parityAgrees := by
  simp only [CodeWord.parityAgrees, CodeWord.disturb, CodeWord.fresh, parityOf_xor, (checkBits_spec d).2]
  cases parityOf d <;> cases parityOf e.data <;> cases parityOf e.check <;> rfl

/-- R188: what the check finds of a disturbed word. -/
theorem finding_disturb : ((CodeWord.fresh d).disturb e).finding =
    if e.syndrome = 0 then if e.parityAgrees then .clean else .corrected (d ^^^ e.data) true
    else if e.parityAgrees then .uncorrectable
    else if e.syndrome ∈ dataPositions then .corrected (d ^^^ e.data ^^^ (1#16 <<< dataPositions.idxOf e.syndrome)) false
    else if e.syndrome ≤ 21 then .corrected (d ^^^ e.data) true
    else .uncorrectable := by
  rw [CodeWord.finding, syndrome_disturb, parityAgrees_disturb]
  rfl

/-- No cell inverted. -/
def CodeWord.still : CodeWord := ⟨0#16, 0#6⟩

theorem disturb_still (w : CodeWord) : w.disturb CodeWord.still = w := by simp [CodeWord.disturb, CodeWord.still]

theorem flipCell_disturb (w : CodeWord) (k : Nat) : (w.disturb e).flipCell k = w.disturb (e.flipCell k) := by
  unfold CodeWord.flipCell
  split
  · simp [CodeWord.disturb, BitVec.xor_assoc]
  · simp [CodeWord.disturb, BitVec.xor_assoc]

theorem flipCell_eq (w : CodeWord) (k : Nat) : w.flipCell k = w.disturb (CodeWord.still.flipCell k) := by
  rw [← flipCell_disturb, disturb_still]

theorem fresh_finding : (CodeWord.fresh d).finding = .clean := by
  have found := finding_disturb d CodeWord.still
  rwa [disturb_still] at found

/-- R188: an inverted data bit has its position as syndrome. -/
theorem finding_flip_data : ∀ k : Nat, k < 16 → (CodeWord.still.flipCell k).parityAgrees = false ∧
    (CodeWord.still.flipCell k).syndrome ≠ 0 ∧ (CodeWord.still.flipCell k).syndrome ∈ dataPositions ∧
    1#16 <<< dataPositions.idxOf (CodeWord.still.flipCell k).syndrome = (CodeWord.still.flipCell k).data := by decide

/-- R188: an inverted check bit has a power of two as syndrome, or 0 for the parity bit. -/
theorem finding_flip_check : ∀ k : Nat, k < 6 → (CodeWord.still.flipCell (16 + k)).parityAgrees = false ∧
    (CodeWord.still.flipCell (16 + k)).syndrome ∉ dataPositions ∧ (CodeWord.still.flipCell (16 + k)).syndrome ≤ 21 ∧
    (CodeWord.still.flipCell (16 + k)).data = 0#16 := by decide

/-- R188: two inverted cells leave the parity, and no two have the same syndrome. -/
theorem finding_flip_pair : ∀ j : Nat, j < 22 → ∀ k : Nat, k < 22 → j ≠ k →
    ((CodeWord.still.flipCell j).flipCell k).syndrome ≠ 0 ∧ ((CodeWord.still.flipCell j).flipCell k).parityAgrees = true := by decide

theorem finding_flipCell {k : Nat} (low : k < 22) :
    ((CodeWord.fresh d).flipCell k).finding = .corrected d (decide (16 ≤ k)) := by
  rw [flipCell_eq, finding_disturb]
  by_cases h : k < 16
  · obtain ⟨parity, nonzero, member, shift⟩ := finding_flip_data k h
    rw [if_neg nonzero, if_neg (by simp [parity]), if_pos member, shift, BitVec.xor_assoc, BitVec.xor_self, BitVec.xor_zero,
      decide_eq_false (by omega)]
  · obtain ⟨c, rfl⟩ := Nat.exists_eq_add_of_le (Nat.not_lt.mp h)
    obtain ⟨parity, unlisted, small, data⟩ := finding_flip_check c (by omega)
    rw [if_neg unlisted, if_pos small, data, BitVec.xor_zero, parity, decide_eq_true (by omega)]
    split <;> rfl

theorem finding_flipCells {j k : Nat} (hj : j < 22) (hk : k < 22) (ne : j ≠ k) :
    (((CodeWord.fresh d).flipCell j).flipCell k).finding = .uncorrectable := by
  obtain ⟨nonzero, parity⟩ := finding_flip_pair j hj k hk ne
  rw [flipCell_eq (CodeWord.fresh d) j, flipCell_disturb, finding_disturb, if_neg nonzero, if_pos parity]

/-- Settles O22: the check of a disturbed word depends on the disturbance alone. -/
theorem checkBitsCorrectAndDetect : Obligations.CheckBitsCorrectAndDetect := fun d =>
  ⟨fresh_finding d, fun _ low => finding_flipCell d low, fun _ _ hj hk ne => finding_flipCells d hj hk ne⟩

/-! ### The image of a plan (Table 12-7) -/

/-- The words of phase entry j stand at 3j. -/
theorem wordAt_phases (ps : List Phase) (rest : List Half) (j : Nat) (p : Phase) (hp : ps[j]? = some p) :
    wordAt ((ps.map phaseWords).flatten ++ rest) (3 * j) = p.id % 65536 ∧
    wordAt ((ps.map phaseWords).flatten ++ rest) (1 + 3 * j) = p.split % 65536 ∧
    wordAt ((ps.map phaseWords).flatten ++ rest) (2 + 3 * j) = p.minimum % 65536 := by
  induction ps generalizing j with
  | nil => exact nomatch hp
  | cons x ps ih =>
    cases j with
    | zero =>
      obtain rfl := Option.some.inj hp
      simp [wordAt, phaseWords]
    | succ j =>
      have further : ∀ k, wordAt (((x :: ps).map phaseWords).flatten ++ rest) (k + 3) = wordAt ((ps.map phaseWords).flatten ++ rest) k :=
        fun k => rfl
      obtain ⟨id, split, minimum⟩ := ih j hp
      exact ⟨(further (3 * j)).trans id, (further (1 + 3 * j)).trans split, (further (2 + 3 * j)).trans minimum⟩

section
variable {i : Fin 64} {number num : Nat} {p : Plan}

/-- The first five words of an image. -/
theorem wordAt_image_head : wordAt (planImage i number p num) 0 = (i.val * 256 + number) % 65536 ∧
    wordAt (planImage i number p num) 1 = p.cycle % 65536 ∧ wordAt (planImage i number p num) 2 = p.offset % 65536 ∧
    wordAt (planImage i number p num) 3 = (p.shortPct * 256 + p.longPct) % 65536 ∧
    wordAt (planImage i number p num) 4 = (p.coord * 256 + p.phases.length) % 65536 := by
  simp [planImage, wordAt]

/-- The phase entries of an image. -/
theorem wordAt_image_phase (short : p.phases.length ≤ 8) {j : Nat} {x : Phase} (hx : p.phases[j]? = some x) :
    wordAt (planImage i number p num) (5 + 3 * j) = x.id % 65536 ∧ wordAt (planImage i number p num) (6 + 3 * j) = x.split % 65536 ∧
      wordAt (planImage i number p num) (7 + 3 * j) = x.minimum % 65536 := by
  have behind : ∀ k, wordAt (planImage i number p num) (k + 5) = wordAt ((p.phases.map phaseWords).flatten ++
      (List.replicate (24 - ((p.phases.map phaseWords).flatten).length) 0#16 ++ [0#16, 0#16, BitVec.ofNat 16 num])) k := fun k => by
    simp only [planImage, List.take_of_length_le short, List.append_assoc]
    rfl
  obtain ⟨id, split, minimum⟩ := wordAt_phases p.phases
    (List.replicate (24 - ((p.phases.map phaseWords).flatten).length) 0#16 ++ [0#16, 0#16, BitVec.ofNat 16 num]) j x hx
  rw [← behind] at id split minimum
  rw [show 5 + 3 * j = 3 * j + 5 by omega, show 6 + 3 * j = 1 + 3 * j + 5 by omega, show 7 + 3 * j = 2 + 3 * j + 5 by omega]
  exact ⟨id, split, minimum⟩

/-- The last three words of an image. -/
theorem wordAt_image_tail : wordAt (planImage i number p num) 29 = 0 ∧ wordAt (planImage i number p num) 30 = 0 ∧
    wordAt (planImage i number p num) 31 = num % 65536 := by
  obtain ⟨front, long, e⟩ : ∃ front : List Half, front.length = 29 ∧
      planImage i number p num = front ++ [0#16, 0#16, BitVec.ofNat 16 num] := by
    refine ⟨_, ?_, rfl⟩
    have total := planImage_length (i := i) p number num
    rw [planImage, List.length_append] at total
    exact Nat.add_right_cancel (m := 3) total
  simp only [wordAt, e, List.getD_eq_getElem?_getD]
  simp [long]

/-- Table 12-7: an image reads back as the plan whose values fit its words. -/
theorem imagePlan_planImage (short : p.phases.length ≤ 8) (cycle : p.cycle < 65536) (offset : p.offset < 65536)
    (pct : p.shortPct < 256 ∧ p.longPct < 256) (coord : p.coord < 256)
    (phases : ∀ x ∈ p.phases, x.id < 65536 ∧ x.split < 65536 ∧ x.minimum < 65536) : imagePlan (planImage i number p num) = p := by
  obtain ⟨-, w1, w2, w3, w4⟩ := wordAt_image_head (i := i) (number := number) (p := p) (num := num)
  have entries : ((List.range (min 8 ((p.coord * 256 + p.phases.length) % 65536 % 256))).map fun j =>
      Phase.mk (wordAt (planImage i number p num) (5 + 3 * j)) (wordAt (planImage i number p num) (6 + 3 * j))
        (wordAt (planImage i number p num) (7 + 3 * j))) = p.phases := by
    have count : min 8 ((p.coord * 256 + p.phases.length) % 65536 % 256) = p.phases.length := by omega
    rw [count]
    refine List.ext_getElem (by simp) fun j hj hj' => ?_
    obtain ⟨id, split, minimum⟩ := wordAt_image_phase (i := i) (number := number) (num := num) short (List.getElem?_eq_getElem hj')
    obtain ⟨lid, lsplit, lminimum⟩ := phases _ (List.getElem_mem hj')
    simp [id, split, minimum, Nat.mod_eq_of_lt lid, Nat.mod_eq_of_lt lsplit, Nat.mod_eq_of_lt lminimum]
  simp only [imagePlan, w1, w2, w3, w4, entries]
  cases p
  simp only [Plan.mk.injEq, and_true] at *
  omega

end

/-- Settles O21: every value of a checked plan fits its word. -/
theorem planImageRoundTrip : Obligations.PlanImageRoundTrip := by
  intro i plan num cycle offset shortPct longPct coord phases low high place legal p image
  obtain ⟨-, -, -, -, few, -, -, -, coordinated⟩ := legal
  obtain ⟨w0, -⟩ := wordAt_image_head (i := i) (number := plan) (p := p) (num := num)
  obtain ⟨w29, w30, w31⟩ := wordAt_image_tail (i := i) (number := plan) (p := p) (num := num)
  have bound := i.isLt
  have short : p.phases.length ≤ 8 := by simpa [p, planGiven] using few
  refine ⟨planImage_length p plan num, imagePlan_planImage short cycle.isLt offset.isLt ⟨?_, ?_⟩ coord.isLt fun x hx => ?_,
    w0.trans (Nat.mod_eq_of_lt (by omega)), w29, w30, w31.trans (Nat.mod_eq_of_lt (by omega)), fun d _ => fresh_finding d⟩
  · exact Nat.lt_of_le_of_lt (Nat.min_le_left 25 _) (by decide)
  · exact Nat.lt_of_le_of_lt (Nat.min_le_left 50 _) (by decide)
  · obtain ⟨e, -, rfl⟩ := List.mem_map.mp hx
    exact ⟨Nat.lt_trans e.id.isLt (by decide), e.split.isLt, e.minimum.isLt⟩

end Sys2Proof.Machine
end

section
/-! PROOFS. The record unit: its rules, what stands of it through the engines' events, and its requests (O50, O52). -/

namespace Sys2Proof.Machine

variable {s t v : State} {u w : RecordUnit} {i : Fin 64} {k k' : Notice}

/-! ### Raising a notice -/

/-- The bits of the notice kinds are apart. -/
theorem noticeBit_injective : noticeBit k' = noticeBit k → k' = k := by cases k <;> cases k' <;> decide

/-- R171: what is pending after a kind is raised. -/
theorem RecordUnit.raise_notices (u : RecordUnit) (k k' : Notice) :
    noticeIn (u.raise k).notices k' = (noticeIn u.notices k' || (decide (k' = k) && !noticeIn u.mask k)) := by
  unfold RecordUnit.raise
  split
  next masked => simp [masked]
  next unmasked =>
    by_cases same : k' = k
    · subst same
      rw [Bool.eq_false_of_not_eq_true unmasked]
      simp [noticeIn, noticeBit_lt]
    · have apart : noticeBit k' ≠ noticeBit k := fun h => same (noticeBit_injective h)
      simp only [noticeIn, BitVec.getLsbD_or, BitVec.getLsbD_shiftLeft, same, decide_false, Bool.false_and, Bool.or_false]
      by_cases below : noticeBit k' < noticeBit k
      · simp [below]
      · have : noticeBit k' - noticeBit k ≠ 0 := by omega
        simp [BitVec.getLsbD_one, this]

theorem RecordUnit.raise_self (unmasked : noticeIn u.mask k = false) : noticeIn (u.raise k).notices k = true := by
  simp [RecordUnit.raise_notices, unmasked]

/-! ### The unit grows -/

/-- From `u` to `w` the filter and the mask stand, and no pending kind has gone. -/
def RecordUnit.grows (u w : RecordUnit) : Prop :=
  w.mask = u.mask ∧ w.filter = u.filter ∧ ∀ k, noticeIn u.notices k = true → noticeIn w.notices k = true

theorem RecordUnit.grows_refl (u : RecordUnit) : u.grows u := ⟨rfl, rfl, fun _ h => h⟩

theorem RecordUnit.grows_trans {x : RecordUnit} (h1 : u.grows w) (h2 : w.grows x) : u.grows x :=
  ⟨h2.1.trans h1.1, h2.2.1.trans h1.2.1, fun k h => h2.2.2 k (h1.2.2 k h)⟩

theorem RecordUnit.grows_raise (u : RecordUnit) (k : Notice) : u.grows (u.raise k) :=
  ⟨u.raise_mask k, u.raise_filter k, fun k' h => by simp [RecordUnit.raise_notices, h]⟩

theorem RecordUnit.grows_place (u : RecordUnit) (r : TransitionRecord) : u.grows (u.place r) := by
  unfold RecordUnit.place
  split
  · exact ⟨rfl, rfl, fun _ h => h⟩
  · exact RecordUnit.grows_raise { u with ring := u.ring.drop 1 ++ [r], overwrites := satAdd u.overwrites 1 } .ringOverwrite

theorem RecordUnit.grows_countDownZero (u : RecordUnit) : u.grows u.countDownZero := by
  unfold RecordUnit.countDownZero
  split
  · exact u.grows_raise .recordCount
  · exact u.grows_refl

theorem RecordUnit.grows_countPlaced (u : RecordUnit) : u.grows u.countPlaced := by
  unfold RecordUnit.countPlaced
  split
  · exact u.grows_refl
  · exact RecordUnit.grows_countDownZero { u with countDown := u.countDown - 1 }

theorem RecordUnit.grows_take (u : RecordUnit) (r : TransitionRecord) : u.grows (u.take r) := by
  unfold RecordUnit.take
  split
  · exact RecordUnit.grows_trans (u.grows_place r) (RecordUnit.grows_countPlaced _)
  · exact u.grows_refl

/-- The unit grows through every event of the engines. -/
theorem engineClosed_grows (u : RecordUnit) : EngineClosed fun t => u.grows t.records where
  slots _ :=
    { slot := fun _ _ h _ => h
      read := fun _ _ h _ _ => h
      promote := fun _ _ h => h
      removeEntry := fun _ h => h
      handOver := fun _ _ h => h
      raise := fun _ k _ h => RecordUnit.grows_trans h (RecordUnit.grows_raise _ k)
      record := fun _ _ h _ => RecordUnit.grows_trans h (RecordUnit.grows_take _ _) }
  group _ _ _ h := h
  member _ _ _ h := h

/-- A notice raised on the way is pending in the end. -/
theorem notified_of_grows (raised : s.notified t k) (later : t.records.grows v.records) :
    s.notified v k := fun unmasked => later.2.2 k (raised unmasked)

theorem notified_raise (before : s.records.grows t.records) (k : Notice) (later : (t.raise k).records.grows v.records) : s.notified v k :=
  fun unmasked => later.2.2 k (RecordUnit.raise_self (before.1 ▸ unmasked))

/-! ### Only notices change -/

theorem onlyNotices_raise (k : Notice) (h : s.onlyNotices t) : s.onlyNotices (t.raise k) := by
  unfold State.onlyNotices State.raise at *
  rw [State.setRecords_records, h]
  unfold RecordUnit.raise
  split <;> rfl

/-- The group coordinator raises notices and takes no record. -/
theorem groupClosed_onlyNotices (s : State) : GroupClosed fun t => s.onlyNotices t where
  raise _ k _ h := onlyNotices_raise k h
  force _ _ h := h
  group _ _ _ h := h
  member _ _ _ h := h

theorem onlyNotices_refl (s : State) : s.onlyNotices s := rfl

theorem onlyNotices_ring (h : s.onlyNotices t) : t.records.ring = s.records.ring := by rw [h]

theorem onlyNotices_trans (h1 : s.onlyNotices t) (h2 : t.onlyNotices v) : s.onlyNotices v := by
  unfold State.onlyNotices at *
  rw [h2, h1]

theorem onlyNotices_of_records (h : t.records = s.records) : s.onlyNotices t := by
  unfold State.onlyNotices
  rw [h]

/-! ### The ring -/

theorem RecordUnit.countDownZero_ring (u : RecordUnit) : u.countDownZero.ring = u.ring := by
  unfold RecordUnit.countDownZero
  split
  · exact u.raise_ring _
  · rfl

theorem RecordUnit.countPlaced_ring (u : RecordUnit) : u.countPlaced.ring = u.ring := by
  unfold RecordUnit.countPlaced
  split
  · rfl
  · exact RecordUnit.countDownZero_ring { u with countDown := u.countDown - 1 }

theorem RecordUnit.countPlaced_overwrites (u : RecordUnit) : u.countPlaced.overwrites = u.overwrites := by
  unfold RecordUnit.countPlaced RecordUnit.countDownZero
  split
  · rfl
  · split
    · exact RecordUnit.raise_overwrites _ _
    · rfl

/-- R167: a record placed in a ring with room, and in a full one. -/
theorem RecordUnit.place_room {r : TransitionRecord} (room : u.ring.length < 128) : u.place r = { u with ring := u.ring ++ [r] } := if_pos room

theorem RecordUnit.place_full {r : TransitionRecord} (full : u.ring.length = 128) : u.place r =
    ({ u with ring := u.ring.drop 1 ++ [r], overwrites := satAdd u.overwrites 1 } : RecordUnit).raise .ringOverwrite :=
  if_neg (by simp [Config.ringCap, full])

theorem RecordUnit.take_ring {r : TransitionRecord} (held : slotIn u.filter r.slot = true) (room : u.ring.length < 128) :
    (u.take r).ring = u.ring ++ [r] := by
  rw [RecordUnit.take, if_pos held, RecordUnit.countPlaced_ring, RecordUnit.place_room room]

/-! ### Records of a slot -/

theorem recorded_of_ring (h : t.records.ring = s.records.ring) : s.recorded t i [] := fun _ _ => by simpa using h

theorem recorded_refl (s : State) (i : Fin 64) : s.recorded s i [] := recorded_of_ring rfl

theorem recorded_trans {xs ys : List TransitionRecord} (h1 : s.recorded t i xs) (filter : t.records.filter = s.records.filter)
    (h2 : t.recorded v i ys) : s.recorded v i (xs ++ ys) := fun held room => by
  rw [List.length_append] at room
  have first := h1 held (by omega)
  rw [h2 (by rwa [filter]) (by rw [first, List.length_append]; omega), first, List.append_assoc]

theorem recorded_congr {xs : List TransitionRecord} (h : s.recorded t i xs) (ring : v.records.ring = t.records.ring) : s.recorded v i xs :=
  fun held room => ring.trans (h held room)

theorem recorded_takeRecord (s : State) (r : TransitionRecord) : s.recorded (s.takeRecord r) r.slot [{ r with stop := s.time.stamp }] :=
  fun held room => RecordUnit.take_ring held (by simp at room; omega)

/-- R165: a transition ended on the current plan. -/
theorem recorded_endTransition {tr : Transition} (open_ : (s.slot i).trans = some tr) (o : RecordOutcome) :
    s.recorded (s.endTransition i o) i [s.endsAs i (s.slot i).current tr o] := by
  simp only [State.endTransition, open_]
  exact recorded_takeRecord s ((s.slot i).endRecord i tr o)

theorem endTransition_of_closed (closed : (s.slot i).trans = none) (o : RecordOutcome) : s.endTransition i o = s := by
  simp only [State.endTransition, closed]

/-! ### SET RECORDING -/

/-- Updates of slots one by one: each slot of the list is updated once. -/
theorem foldl_slot {f : State → Fin 64 → State} {g : Fin 64 → Slot → Slot} (own : ∀ t i, (f t i).slot i = g i (t.slot i))
    (others : ∀ t i j, j ≠ i → (f t i).slot j = t.slot j) : ∀ (is : List (Fin 64)), is.Nodup → ∀ (s : State) (j : Fin 64),
    (is.foldl f s).slot j = if j ∈ is then g j (s.slot j) else s.slot j := by
  intro is
  induction is with
  | nil => exact fun _ _ _ => rfl
  | cons i is ih =>
    intro distinct s j
    obtain ⟨once, distinct⟩ := List.nodup_cons.mp distinct
    rw [List.foldl_cons, ih distinct]
    by_cases same : j = i
    · subst same
      rw [if_neg once, if_pos List.mem_cons_self, own]
    · rw [others s i j same]
      simp only [List.mem_cons, same, false_or]

/-- R170: the recording flags follow the filter. -/
theorem mirrorFilter_slot (s : State) (filter : SlotSet) (i : Fin 64) : (s.mirrorFilter filter).slot i =
    if (s.slot i).state = .unused then s.slot i else { s.slot i with recording := slotIn filter i } := by
  have mirrored := foldl_slot (f := fun s i => if (s.slot i).state = .unused then s else
      s.setSlot i { s.slot i with recording := slotIn filter i })
    (g := fun i x => if x.state = .unused then x else { x with recording := slotIn filter i })
    (fun t i => by split <;> simp) (fun t i j ne => by split <;> simp [State.setSlot_slot_ne, Ne.symm ne])
    (List.finRange 64) (List.nodup_finRange 64) s i
  rwa [if_pos (List.mem_finRange i)] at mirrored

/-- R170: the two choices. -/
theorem countChoice_of_le {b : Byte} (h : b.toNat ≤ 1) : countChoice b = some (decide (b = 1#8)) := by
  obtain rfl | rfl : b = 0#8 ∨ b = 1#8 := by bv_omega
  · rfl
  · rfl

theorem countChoice_none {b : Byte} (h : 1 < b.toNat) : countChoice b = none := by
  unfold countChoice
  split
  · omega
  · omega
  · rfl

/-- Settles O50: R170's table, the mirrored flags, and the count-down at 0. -/
theorem recordSettings : Obligations.RecordSettings := by
  refine ⟨fun s src filter reload choice r ready => ⟨_, exec_of_owner rfl s, fun unknown => ?_, fun known => ?_⟩, fun s running => ⟨?_, ?_⟩⟩
  · refine carryOut_refuse ready _ _ ?_
    rw [setRecording, countChoice_none unknown]
  · have set : setRecording filter reload choice s = ⟨(s.setRecords (s.records.recording filter reload.toNat (decide (choice = 1#8)))).mirrorFilter filter,
        .done, setBytes filter ++ num1 reload.toNat ++ num1 (countDownAfter reload.toNat s.records.countDown (decide (choice = 1#8)))⟩ := by
      rw [setRecording, countChoice_of_le known]
      rfl
    have stored : s.changesOnly (s.setRecords (s.records.recording filter reload.toNat (decide (choice = 1#8)))) [.records] :=
      changesOnly_setRecords _ (by simp) changesOnly_refl
    have mirrored := changesOnly_mirrorFilter (s := s.setRecords (s.records.recording filter reload.toNat (decide (choice = 1#8)))) filter
      (bs := [.slots]) (by simp) changesOnly_refl
    obtain ⟨answered, left, frame⟩ := answered_of (bs := [.slots, .records]) ready set
      (changesOnly_trans (changesOnly_mono stored (by simp)) (changesOnly_mono mirrored (by simp))) (by simp) (by simp)
    have records := (left.2.2 .records (by decide)).trans (mirrored.2.2 .records (by decide))
    have slots : ∀ i, _ := fun i => (slot_congr (left.2.2 .slots (by decide)) i).trans (mirrorFilter_slot _ filter i)
    simp only [State.setRecords_records] at records
    simp only [State.setRecords_slot] at slots
    have zero : reload.toNat = 0 ↔ reload = 0#8 := by rw [← BitVec.toNat_inj]; rfl
    rw [records]
    refine ⟨rfl, fun none => ?_, fun some restart => ?_, fun some keep stands => ?_, fun some keep off => ?_, fun i unused => ?_,
      fun i defined => ?_, ?_, changesOnly_mono frame (by simp)⟩
    · exact if_pos (zero.mpr none)
    · simp [RecordUnit.recording, countDownAfter, zero, some, restart]
    · simp [RecordUnit.recording, countDownAfter, zero, some, keep, stands]
    · simp [RecordUnit.recording, countDownAfter, zero, some, keep, off]
    · exact (slots i).trans (if_pos unused)
    · exact (slots i).trans (if_neg defined)
    · simpa [num1, RecordUnit.recording] using answered
  · intro stands
    refine congrArg Host.Outcome.next ((if_neg (by simp [running])).trans ?_)
    have idle : s.records.countDownZero = s.records := if_neg (by omega)
    exact congrArg s.setRecords idle
  · intro reload zero
    have acted : s.records.countDownZero = { s.records.raise .recordCount with countDown := s.records.reload } := if_pos ⟨reload, zero⟩
    refine ⟨s.setRecords s.records.countDownZero, congrArg Host.Outcome.next (if_neg (by simp [running])), ?_, fun unmasked => ?_,
      changesOnly_setRecords _ (by simp) changesOnly_refl⟩
    · rw [State.setRecords_records, acted]
      unfold RecordUnit.raise
      split <;> rfl
    · rw [State.setRecords_records, acted]
      exact RecordUnit.raise_self unmasked

/-! ### Records kept and read -/

/-- Table 12-8: a record has 24 bytes. -/
theorem TransitionRecord.fields_length (x : TransitionRecord) : x.fields.length = 24 := by
  simp [TransitionRecord.fields, Stamp.fields, transitionFlags, num1, num2, num4, halfBytes]

/-- R168: the count-down of a unit that has placed a record. -/
theorem RecordUnit.take_countDown {x : TransitionRecord} (held : slotIn u.filter x.slot = true) :
    (u.take x).countDown = if u.reload = 0 then u.countDown
      else if 0 < u.reload ∧ u.countDown - 1 = 0 then u.reload else u.countDown - 1 := by
  have placed : (u.place x).reload = u.reload ∧ (u.place x).countDown = u.countDown := by
    unfold RecordUnit.place
    split
    · exact ⟨rfl, rfl⟩
    · exact ⟨RecordUnit.raise_reload _ _, RecordUnit.raise_countDown _ _⟩
  rw [RecordUnit.take, if_pos held, RecordUnit.countPlaced_countDown, placed.1, placed.2]

/-- R168: the last record of a count raises RECORD_COUNT. -/
theorem RecordUnit.countPlaced_notices (reload : 0 < u.reload) (one : u.countDown = 1) (unmasked : noticeIn u.mask .recordCount = false) :
    noticeIn u.countPlaced.notices .recordCount = true := by
  have counted : u.countPlaced = { (RecordUnit.raise { u with countDown := 0 } .recordCount) with countDown := u.reload } := by
    rw [RecordUnit.countPlaced, if_neg (by omega), one]
    exact if_pos ⟨reload, rfl⟩
  rw [counted]
  exact RecordUnit.raise_self (u := { u with countDown := 0 }) unmasked

/-- Settles O52: by the filter, the room in the ring and the count; and by the maximum asked for. -/
theorem recordsAreKeptAndRead : Obligations.RecordsAreKeptAndRead := by
  refine ⟨fun u x => ⟨fun out => ?_, fun held => ⟨fun room => ⟨?_, ?_⟩, fun full => ?_, fun off => ?_, fun on many => ?_, fun on one => ⟨?_, ?_⟩⟩⟩,
    fun s src maximum r ready => ⟨_, exec_of_owner rfl s, fun bad => ?_, fun low high => ?_⟩, fun s src r ready => ⟨_, exec_of_owner rfl s, ?_⟩⟩
  · exact if_neg (by simp [out])
  · exact RecordUnit.take_ring held room
  · rw [RecordUnit.take, if_pos held, RecordUnit.countPlaced_overwrites, RecordUnit.place_room room]
  · have grown := RecordUnit.grows_countPlaced (u.place x)
    rw [RecordUnit.take, if_pos held, RecordUnit.countPlaced_ring, RecordUnit.countPlaced_overwrites]
    rw [RecordUnit.place_full full] at grown ⊢
    refine ⟨RecordUnit.raise_ring _ _, RecordUnit.raise_overwrites _ _, fun unmasked => grown.2.2 _ ?_⟩
    exact RecordUnit.raise_self (u := { u with ring := u.ring.drop 1 ++ [x], overwrites := satAdd u.overwrites 1 }) unmasked
  · rw [RecordUnit.take_countDown held, if_pos off]
  · rw [RecordUnit.take_countDown held, if_neg (by omega), if_neg (by omega)]
  · rw [RecordUnit.take_countDown held, if_neg (by omega), if_pos ⟨on, by omega⟩]
  · intro unmasked
    have placed : (u.place x).reload = u.reload ∧ (u.place x).countDown = u.countDown ∧ (u.place x).mask = u.mask := by
      unfold RecordUnit.place
      split
      · exact ⟨rfl, rfl, rfl⟩
      · exact ⟨RecordUnit.raise_reload _ _, RecordUnit.raise_countDown _ _, RecordUnit.raise_mask _ _⟩
    obtain ⟨reload, count, mask⟩ := placed
    rw [RecordUnit.take, if_pos held]
    exact RecordUnit.countPlaced_notices (by omega) (by omega) (by rw [mask]; exact unmasked)
  · exact carryOut_refuse ready _ _ (if_pos bad)
  · have read : readRecords maximum s = ⟨s.setRecords { s.records with ring := s.records.ring.drop maximum.toNat },
        if (s.records.ring.drop maximum.toNat).isEmpty then .done else .partly,
        ({ s.records with ring := s.records.ring.drop maximum.toNat } : RecordUnit).readFields (s.records.ring.take maximum.toNat)⟩ := by
      refine if_neg ?_
      rintro (rfl | many)
      · exact absurd low (by decide)
      · omega
    obtain ⟨answered, left, frame⟩ := answered_of (bs := [.records]) ready read (changesOnly_setRecords _ (by simp) changesOnly_refl)
      (by simp) (by simp)
    have records : _ = _ := left.2.2 .records (by decide)
    rw [State.setRecords_records] at records
    refine ⟨records, ?_, fun x _ => x.fields_length, changesOnly_mono frame (by simp)⟩
    rw [records]
    simp only [List.isEmpty_iff] at answered
    exact answered
  · obtain ⟨answered, left, frame⟩ := answered_of (bs := [.records]) (o := readNotices) ready rfl
      (changesOnly_setRecords _ (by simp) changesOnly_refl) (by simp) (by simp)
    exact ⟨left.2.2 .records (by decide), answered, changesOnly_mono frame (by simp)⟩

end Sys2Proof.Machine
end

section
/-! PROOFS. DEFINE SLOT's and LOAD PLAN's checks, and RELEASE SLOT (O11, O12). -/

namespace Sys2Proof.Machine

variable {s t u : State} {i j : Fin 64} {r : Request}

/-! ### A member event and the slots -/

/-- R91: a member event reaches the slots where it shows the slot of a reported group in TRANSITION, and then that slot alone. -/
theorem takeMember_slots (s : State) (e : MemberEvent) : (s.takeMember e).slots = s.slots ∨
    (e.state = .transition ∧ (s.takeMember e).slots = (s.forceImmediate e.slot).slots) := by
  unfold State.takeMember
  split
  · exact .inl (settle_slots _ _ _)
  · exact .inl rfl
  next old _ _ =>
    split
    · exact .inl (settle_slots _ _ _)
    · have settled : ∀ x c, ((((s.adoptedBy old.group old c).setMember e.slot x).settle old.group true)).slots = s.slots := fun x c => by
        rw [settle_slots]
        unfold State.adoptedBy
        split <;> rfl
      dsimp only
      split
      next reported =>
        refine .inr ⟨reported.2, ?_⟩
        simp only [State.forceImmediate, State.setSlot, State.slot, settled]
      · exact .inl (settled _ _)

theorem takeMember_slot_ne (e : MemberEvent) (ne : j ≠ e.slot) : (s.takeMember e).slot j = s.slot j := by
  rcases takeMember_slots s e with same | ⟨-, forced⟩
  · exact slot_congr same j
  · rw [slot_congr forced, State.forceImmediate, State.setSlot_slot_ne _ _ _ _ (Ne.symm ne)]

theorem takeMember_slot_of_state (e : MemberEvent) (other : e.state ≠ .transition) (j : Fin 64) : (s.takeMember e).slot j = s.slot j := by
  rcases takeMember_slots s e with same | ⟨yes, -⟩
  · exact slot_congr same j
  · exact absurd yes other

theorem takeMembers_slot_ne (es : List MemberEvent) (away : ∀ e ∈ es, e.slot ≠ j) : (s.takeMembers es).slot j = s.slot j :=
  List.foldlRecOn (motive := fun t : State => t.slot j = s.slot j) es _ rfl fun _ ht e he =>
    (takeMember_slot_ne e (Ne.symm (away e he))).trans ht

/-! ### The checks of DEFINE SLOT -/

section
variable {slot port drop group divider mode : Byte} {intersection : Half}

/-- R35, check 1: the numbers of a DEFINE SLOT in range. -/
theorem slotIdentity_of_legal {p : Fin 4} {g : Fin 16} (hi : slot.toNat = i.val) (hp : port.toNat = p.val) (hg : group.toNat = g.val)
    (low : 1 ≤ intersection.toNat) (high : intersection.toNat ≤ 4095) (drops : 1 ≤ drop.toNat) (drops' : drop.toNat ≤ 16)
    (modes : mode.toNat ≤ 1) : slotIdentity slot intersection port drop group divider mode =
      some ⟨i, intersection.toNat, p, drop.toNat, g, clampDivider divider.toNat, if mode = 0#8 then .latched else .perCycle⟩ := by
  have known : overrideModeOfCode mode = some (if mode = 0#8 then .latched else .perCycle) := by
    obtain rfl | rfl : mode = 0#8 ∨ mode = 1#8 := by bv_omega
    · rfl
    · rfl
  simp only [slotIdentity, index?_val hi, index?_val hp, index?_val hg, known]
  exact if_pos ⟨low, high, drops, drops'⟩

theorem overrideModeOfCode_none {b : Byte} (h : 1 < b.toNat) : overrideModeOfCode b = none := by
  unfold overrideModeOfCode
  split
  · omega
  · omega
  · rfl

theorem slotIdentity_of_bad (bad : ¬(slot.toNat ≤ 63 ∧ port.toNat ≤ 3 ∧ group.toNat ≤ 15 ∧ 1 ≤ intersection.toNat ∧
    intersection.toNat ≤ 4095 ∧ 1 ≤ drop.toNat ∧ drop.toNat ≤ 16 ∧ mode.toNat ≤ 1)) :
    slotIdentity slot intersection port drop group divider mode = none := by
  unfold slotIdentity
  split
  next i p g m hi hp hg hm =>
    rw [index?_iff] at hi hp hg
    refine if_neg fun fits => bad ⟨?_, ?_, ?_, fits.1, fits.2.1, fits.2.2.1, fits.2.2.2, ?_⟩
    · omega
    · omega
    · omega
    · refine Nat.not_lt.mp fun large => ?_
      rw [overrideModeOfCode_none large] at hm
      exact nomatch hm
  · rfl

end

/-- R35, check 3. -/
theorem duplicates_iff {d : SlotIdentity} : s.duplicates d = true ↔ ∃ k, k ≠ d.slot ∧ (s.slot k).state ≠ .unused ∧
    ((s.slot k).intersection = d.intersection ∨ ((s.slot k).port = d.port ∧ (s.slot k).drop = d.drop)) := by
  simp [State.duplicates, and_assoc]

/-- Settles O11: each check refuses where those before it have passed. -/
theorem checksComeInOrder : Obligations.ChecksComeInOrder := by
  refine ⟨fun s src slot intersection port drop group divider mode r ready => ?_,
    fun s src slot plan cycle offset shortPct longPct coord phases r ready => ?_⟩
  · intro legal inUse duplicate
    have identity (ok : legal) : ∃ (i : Fin 64) (p : Fin 4) (d : SlotIdentity), slot.toNat = i.val ∧ port.toNat = p.val ∧
        slotIdentity slot intersection port drop group divider mode = some d ∧ d.slot = i ∧ d.port = p ∧
          d.intersection = intersection.toNat ∧ d.drop = drop.toNat := by
      obtain ⟨hs, hp, hg, low, high, drops, drops', modes⟩ := ok
      refine ⟨⟨slot.toNat, by omega⟩, ⟨port.toNat, by omega⟩, _, rfl, rfl,
        slotIdentity_of_legal (g := ⟨group.toNat, by omega⟩) rfl rfl rfl low high drops drops' modes, rfl, rfl, rfl, rfl⟩
    refine ⟨_, exec_of_owner rfl s, fun bad => ?_, fun ok used => ?_, fun ok unused dup => ?_⟩
    · refine carryOut_refuse ready _ _ ?_
      rw [defineSlot, slotIdentity_of_bad bad]
    · obtain ⟨i, p, d, hi, -, found, rfl, -⟩ := identity ok
      obtain ⟨k, hk, defined⟩ := used
      obtain rfl : d.slot = k := Fin.ext (hi.symm.trans hk)
      refine carryOut_refuse ready _ _ ?_
      rw [defineSlot, found]
      exact if_pos defined
    · obtain ⟨i, p, d, hi, hp, found, rfl, rfl, inter, drops⟩ := identity ok
      have free : (s.slot d.slot).state = .unused := Classical.byContradiction fun defined => unused ⟨d.slot, hi, defined⟩
      have held : s.duplicates d = true := by
        obtain ⟨k, other, defined, same⟩ := dup
        refine duplicates_iff.mpr ⟨k, fun e => other (by rw [hi, e]), defined, ?_⟩
        rw [inter, drops]
        exact same.imp_right (And.imp_left fun e => Fin.ext (e.trans hp))
      refine carryOut_refuse ready _ _ ?_
      rw [defineSlot, found]
      exact (if_neg (not_not.mpr free)).trans (if_pos held)
  · intro legal
    have checked (ok : legal) : ∃ i : Fin 64, slot.toNat = i.val ∧
        loadPlan slot plan (planGiven cycle offset shortPct longPct coord phases) s =
          loadChecked i plan.toNat (planGiven cycle offset shortPct longPct coord phases) s := by
      obtain ⟨hs, low, high, values⟩ := ok
      exact ⟨⟨slot.toNat, by omega⟩, rfl, loadPlan_of_legal rfl low high values⟩
    refine ⟨_, exec_of_owner rfl s, fun bad => ?_, fun ok sums => ?_, fun ok sums unused => ?_⟩
    · refine carryOut_refuse ready _ _ ?_
      unfold loadPlan
      split
      · rfl
      next i hi =>
        rw [index?_iff] at hi
        refine if_neg fun fits => bad ?_
        rw [Bool.and_eq_true, planNumber_iff, valuesFit_iff] at fits
        exact ⟨by omega, fits.1.1, fits.1.2, fits.2⟩
    · obtain ⟨i, -, placed⟩ := checked ok
      refine carryOut_refuse ready _ _ (placed.trans (if_pos ?_))
      rw [Bool.not_eq_true', ← Bool.not_eq_true]
      exact sumsFit_iff.not.mpr sums
    · obtain ⟨i, hi, placed⟩ := checked ok
      obtain ⟨k, hk, free⟩ := unused
      obtain rfl : i = k := Fin.ext (hi.symm.trans hk)
      refine carryOut_refuse ready _ _ (placed.trans ?_)
      rw [loadChecked, sumsFit_iff.mpr sums]
      exact if_pos free

/-! ### RELEASE SLOT -/

/-- R36, R146: a request at a defined slot. -/
theorem onDefinedSlot_of {slot : Byte} {f : Fin 64 → Answer} (hi : slot.toNat = i.val) (defined : (s.slot i).state ≠ .unused) :
    onDefinedSlot slot f s = f i := by
  rw [onDefinedSlot, index?_val hi]
  exact if_neg defined

theorem onDefinedSlot_of_bad {slot : Byte} {f : Fin 64 → Answer} (high : 63 < slot.toNat) : onDefinedSlot slot f s = refuse .badValue s := by
  rw [onDefinedSlot, index?_of_le high]

theorem onDefinedSlot_of_unused {slot : Byte} {f : Fin 64 → Answer} (h : ∃ i : Fin 64, slot.toNat = i.val ∧ (s.slot i).state = .unused) :
    onDefinedSlot slot f s = refuse .noSuch s := by
  obtain ⟨i, hi, unused⟩ := h
  rw [onDefinedSlot, index?_val hi]
  exact if_pos unused

theorem endTransition_frame (s : State) (i : Fin 64) (o : RecordOutcome) : s.changesOnly (s.endTransition i o) [.slots, .records] := by
  unfold State.endTransition
  split
  · exact changesOnly_refl
  · exact changesOnly_setSlot _ _ (by simp) (changesOnly_takeRecord _ (by simp) changesOnly_refl)

/-- What RELEASE SLOT writes before the group coordinator hears of it (R36). -/
def State.unslotted (s : State) (i : Fin 64) : State :=
  let s1 := s.endTransition i .released
  ((s1.setPort (s.slot i).port ((s.port (s.slot i).port).release i)).setStore (s.store.freeSlot i)).setSlot i .unused

theorem port_congr (h : t.ports = s.ports) (p : Fin 4) : t.port p = s.port p := congrArg (Vector.get · p) h

theorem releaseSlot_eq (s : State) (i : Fin 64) : s.releaseSlot i = (s.unslotted i).takeMember (memberEvent i .unused 0) := by
  have frame := endTransition_frame s i .released
  have port : ((s.endTransition i .released).slot i).port = (s.slot i).port := by rw [endTransition_slot]
  have store : (s.endTransition i .released).store = s.store := frame.2.2 .store (by decide)
  simp only [State.releaseSlot, State.unslotted, port, State.setPort_store, store, port_congr (frame.2.2 .ports (by decide))]

theorem unslotted_slot (s : State) (i j : Fin 64) : (s.unslotted i).slot j = if j = i then Slot.unused else s.slot j := by
  simp only [State.unslotted, State.setSlot_slot, State.setStore_slot, State.setPort_slot, eq_comm (a := i)]
  split
  · rfl
  next other => exact (slotClosed_other (x := s.slot j) other).endTransition .released rfl

/-- R36, R71, R120: what a release leaves. -/
theorem releaseSlot_leaves (s : State) (i : Fin 64) : (s.releaseSlot i).slot i = Slot.unused ∧ s.otherSlotsStand (s.releaseSlot i) i ∧
    (s.releaseSlot i).store = s.store.freeSlot i ∧ (s.releaseSlot i).member i = none ∧
    (s.releaseSlot i).port (s.slot i).port = (s.port (s.slot i).port).release i ∧
    s.otherPortsStand (s.releaseSlot i) (s.slot i).port ∧ (s.endTransition i .released).onlyNotices (s.releaseSlot i) := by
  have frame : (s.unslotted i).changesOnly (s.releaseSlot i) [.slots, .groups, .members, .records] := by
    rw [releaseSlot_eq]
    exact changesOnly_takeMember _ (by simp) (by simp) (by simp) (by simp) changesOnly_refl
  have ended := endTransition_frame s i .released
  have slots : ∀ j, (s.releaseSlot i).slot j = if j = i then Slot.unused else s.slot j := fun j => by
    rw [releaseSlot_eq, takeMember_slot_of_state _ (by exact fun h => nomatch h), unslotted_slot]
  have ports := port_congr (frame.2.2 .ports (by decide))
  refine ⟨(slots i).trans (if_pos rfl), fun j ne => (slots j).trans (if_neg ne), frame.2.2 .store (by decide), ?_, ?_, fun q ne => ?_, ?_⟩
  · rw [releaseSlot_eq, takeMember_member _ rfl, if_pos (show (memberEvent i .unused 0).slot = i from rfl)]
    cases (s.unslotted i).member i <;> rfl
  · rw [ports]
    simp [State.unslotted]
  · rw [ports]
    simp only [State.unslotted, State.setSlot_port, State.setStore_port, State.setPort_port, if_neg (Ne.symm ne)]
    exact port_congr (ended.2.2 .ports (by decide)) q
  · rw [releaseSlot_eq]
    exact (groupClosed_onlyNotices _).takeMember _ rfl

/-- Settles O12: a release ends the transition, then clears the slot, its port's entry and its locations, then reports it. -/
theorem releaseSlotReleases : Obligations.ReleaseSlotReleases := by
  refine ⟨fun s src slot r i ready hi defined => ?_, fun s src slot r ready => ⟨_, exec_of_owner rfl s, fun high => ?_, fun unused => ?_⟩⟩
  · have released : releaseSlot slot s = ⟨s.releaseSlot i, .done, []⟩ := onDefinedSlot_of hi defined
    obtain ⟨answered, left, frame⟩ := answered_of (bs := Block.engine) ready released
      (changesOnly_releaseSlot i (List.Subset.refl _)) (by decide) (by decide)
    obtain ⟨slots, others, store, member, port, ports, records⟩ := releaseSlot_leaves s i
    have sameSlot := slot_congr (left.2.2 .slots (by decide))
    have samePort := port_congr (left.2.2 .ports (by decide))
    have ring := (congrArg RecordUnit.ring (left.2.2 .records (by decide))).trans (onlyNotices_ring records)
    refine ⟨_, exec_of_owner rfl s, answered, (sameSlot i).trans slots, ?_, ?_, ?_, fun q ne => (samePort q).trans (ports q ne),
      fun j ne => (sameSlot j).trans (others j ne), fun tr open_ => ?_, fun closed => ?_, frame⟩
    · rw [left.2.2 .store (by decide), store]
      rfl
    · exact (member_congr (left.2.2 .members (by decide)) i).trans member
    · rw [samePort, port]
      simp only [Port.release, Port.removeEntry, beq_iff_eq]
    · exact recorded_congr (recorded_endTransition open_ .released) ring
    · rw [ring, endTransition_of_closed closed]
  · exact carryOut_refuse ready _ _ (onDefinedSlot_of_bad high)
  · exact carryOut_refuse ready _ _ (onDefinedSlot_of_unused unused)

end Sys2Proof.Machine
end

section
/-! PROOFS. Field ports: their requests, and the ends of windows and lines (O40, O43). -/

namespace Sys2Proof.Machine

variable {s t u : State} {i j : Fin 64} {p : Fin 4} {q : Port} {line : LineCondition}

/-! ### Commands of the part itself -/

/-- An event of the part or of its lines while RESET is not asserted. -/
theorem exec_of_event {c : Instr} {f : State → State} (event : exec c s = unlessReset f s) (running : s.resetAsserted = false) :
    exec c s = .next (f s) := event.trans (congrArg Host.Outcome.next (if_neg (by simp [running])))

/-- An event that finds nothing to do. -/
theorem exec_of_idle {c : Instr} {f : State → State} (event : exec c s = unlessReset f s) (running : s.resetAsserted = false)
    (idle : f s = s) : exec c s = .next s := (exec_of_event event running).trans (congrArg _ idle)

/-! ### The head frame (R121) -/

theorem sendsHead_startIfReady (q : Port) : q.sendsHead q.startIfReady := by
  rcases startIfReady_cases q with ⟨e, rest, idle, quiet, queued, sent⟩ | ⟨not, same⟩
  · refine ⟨fun h => ?_, fun _ _ e' rest' again => ?_⟩
    · rcases h with h | h | h
      · exact absurd idle h
      · exact absurd quiet h
      · exact nomatch queued.symm.trans h
    · obtain ⟨rfl, rfl⟩ := List.cons.inj (queued.symm.trans again)
      exact sent
  · refine ⟨fun _ => same, fun idle quiet e rest queued => absurd ⟨idle, quiet, ?_⟩ not⟩
    rw [queued]
    exact List.cons_ne_nil _ _

/-- What a port holds after an update, and what stands of the others. -/
theorem setPort_alone (s : State) (p : Fin 4) (q : Port) :
    (s.setPort p q).port p = q ∧ s.otherPortsStand (s.setPort p q) p ∧ s.changesOnly (s.setPort p q) [.ports] :=
  ⟨State.setPort_port_same _ _ _, fun _ ne => State.setPort_port_ne _ _ _ _ (Ne.symm ne), changesOnly_setPort _ _ (by simp) changesOnly_refl⟩

/-! ### Misses (R28, R32, R33) -/

theorem Slot.missCounted_countMiss {x : Slot} (idle : ¬x.countsRuns) (k : MissKind) : x.missCounted (x.countMiss k) k := by
  have runs : ¬(x.state = .coordinated ∨ x.state = .transition) := idle
  cases k <;> exact ⟨rfl, rfl, rfl, rfl, (if_neg runs).symm⟩

theorem Slot.missCounted_takeMiss {x : Slot} (counts : x.countsRuns) (k : MissKind) : x.missCounted (x.takeMiss k) k := by
  have runs : x.state = .coordinated ∨ x.state = .transition := counts
  cases k <;> exact ⟨rfl, rfl, rfl, rfl, (if_pos runs).symm⟩

/-- What a miss leaves of a slot. -/
theorem Slot.countMiss_leaves (x : Slot) (k : MissKind) : (x.countMiss k).run = x.run ∧ (x.countMiss k).current = x.current ∧
    (x.countMiss k).causes = x.causes ∧ (x.countMiss k).lastOverride = x.lastOverride ∧ (x.countMiss k).state = x.state ∧
    (x.countMiss k).trans = x.trans := by
  cases k <;> exact ⟨rfl, rfl, rfl, rfl, rfl, rfl⟩

theorem Slot.takeMiss_leaves (x : Slot) (k : MissKind) : (x.takeMiss k).run = x.run ∧ (x.takeMiss k).current = x.current ∧
    (x.takeMiss k).causes = x.causes ∧ (x.takeMiss k).lastOverride = x.lastOverride ∧ (x.takeMiss k).state = x.state ∧
    (x.takeMiss k).intersection = x.intersection := by
  cases k <;> exact ⟨rfl, rfl, rfl, rfl, rfl, rfl⟩

/-- R33: what entry to LOST leaves of the records. -/
theorem enterLost_records (s : State) (i : Fin 64) : (s.endTransition i .lost).records.grows (s.enterLost i).1.records ∧
    (s.enterLost i).1.records.ring = (s.endTransition i .lost).records.ring ∧ s.notified (s.enterLost i).1 .slotLost := by
  have grown : s.records.grows (s.endTransition i .lost).records :=
    ((engineClosed_grows s.records).slots i).endTransition .lost (RecordUnit.grows_refl _)
  exact ⟨RecordUnit.grows_raise _ _, RecordUnit.raise_ring _ _, notified_raise grown .slotLost (RecordUnit.grows_refl _)⟩

/-- R28, R32, R33: a miss at a slot. -/
theorem missed_of_miss (s : State) (i : Fin 64) (k : MissKind) : s.missed (s.miss i k).1 i k := by
  rcases miss_cases s i k with ⟨idle, e⟩ | ⟨counts, few, e⟩ | ⟨counts, third, e⟩ <;> rw [e]
  · have counted := Slot.missCounted_countMiss idle k
    obtain ⟨run, current, causes, last, state, trans⟩ := (s.slot i).countMiss_leaves k
    unfold State.missed
    rw [State.setSlot_slot_same]
    exact ⟨counted, run, current, causes, last, fun _ => ⟨state, trans, rfl⟩, fun yes => absurd yes idle, fun yes => absurd yes idle⟩
  · have counted := Slot.missCounted_takeMiss counts k
    obtain ⟨run, current, causes, last, state, -⟩ := (s.slot i).takeMiss_leaves k
    unfold State.missed
    rw [State.setSlot_slot_same]
    exact ⟨counted, run, current, causes, last, fun not => absurd counts not, fun _ _ => ⟨state, rfl, rfl⟩,
      fun _ many => absurd few (Nat.not_lt.mpr many)⟩
  · generalize hu : s.setSlot i ((s.slot i).takeMiss k) = u
    have own : u.slot i = (s.slot i).takeMiss k := by rw [← hu, State.setSlot_slot_same]
    have records : u.records = s.records := by rw [← hu]; rfl
    have time : u.time = s.time := by rw [← hu]; rfl
    have counted := Slot.missCounted_takeMiss counts k
    obtain ⟨run, current, causes, last, -, inter⟩ := (s.slot i).takeMiss_leaves k
    obtain ⟨-, ring, raised⟩ := enterLost_records u i
    unfold State.missed
    rw [enterLost_slot, own]
    refine ⟨counted, run, current, causes, last, fun not => absurd counts not, fun _ few => absurd few (Nat.not_lt.mpr third),
      fun _ _ => ⟨rfl, rfl, ?_, fun r open_ => ?_⟩⟩
    · unfold State.notified at raised ⊢
      rwa [records] at raised
    · have ended := recorded_endTransition (s := u) (i := i) (tr := r.afterMiss k)
        (by rw [own]; exact congrArg (Option.map _) open_) .lost
      have same : u.endsAs i (u.slot i).current (r.afterMiss k) .lost = s.endsAs i (s.slot i).current (r.afterMiss k) .lost := by
        simp only [State.endsAs, own, current, inter, time]
      rw [same] at ended
      have all := recorded_congr ended ring
      unfold State.recorded at all ⊢
      rwa [records] at all

/-- A miss that makes the slot LOST, and what else it does, stands when its member event arrives. -/
theorem missed_of_deliver (s : State) (i : Fin 64) (k : MissKind) : s.missed (s.miss i k).deliver i k := by
  have missed := missed_of_miss s i k
  rcases miss_cases s i k with ⟨-, e⟩ | ⟨-, -, e⟩ | ⟨counts, third, e⟩ <;> rw [e] at missed ⊢
  · exact missed
  · exact missed
  · generalize s.setSlot i ((s.slot i).takeMiss k) = u at missed ⊢
    have slot : (u.enterLost i).deliver.slot i = (u.enterLost i).1.slot i := by
      rw [Sent.deliver, enterLost_events]
      exact takeMember_slot_of_state (memberEvent i .lost _) nofun i
    have later : (u.enterLost i).1.records.grows (u.enterLost i).deliver.records :=
      (engineClosed_grows _).deliver (RecordUnit.grows_refl _)
    have kept := onlyNotices_ring ((groupClosed_onlyNotices (u.enterLost i).1).deliver (onlyNotices_refl _))
    unfold State.missed at missed ⊢
    rw [slot]
    obtain ⟨counted, run, current, causes, last, -, -, lost⟩ := missed
    obtain ⟨state, trans, raised, recorded⟩ := lost counts third
    exact ⟨counted, run, current, causes, last, fun not => absurd counts not, fun _ few => absurd few (Nat.not_lt.mpr third),
      fun _ _ => ⟨state, trans, notified_of_grows raised later, fun r open_ => recorded_congr (recorded r open_) kept⟩⟩

/-- A miss touches its slot alone, the group coordinator and the records. -/
theorem missDeliver_frame (s : State) (i : Fin 64) (k : MissKind) : s.otherSlotsStand (s.miss i k).deliver i ∧
    s.changesOnly (s.miss i k).deliver [.slots, .groups, .members, .records] := by
  refine ⟨fun j ne => ?_, ?_⟩
  · refine (takeMembers_slot_ne _ fun e he => ?_).trans ((slotClosed_other (x := s.slot j) ne).miss k rfl)
    rw [miss_events_slot he]
    exact Ne.symm ne
  · refine changesOnly_takeMembers _ (by simp) (by simp) (by simp) (by simp) ?_
    rcases miss_cases s i k with ⟨-, e⟩ | ⟨-, -, e⟩ | ⟨-, -, e⟩ <;> rw [e]
    · exact changesOnly_setSlot _ _ (by simp) changesOnly_refl
    · exact changesOnly_setSlot _ _ (by simp) changesOnly_refl
    · have first : s.changesOnly (s.setSlot i ((s.slot i).takeMiss k)) [.slots, .groups, .members, .records] :=
        changesOnly_setSlot _ _ (by simp) changesOnly_refl
      exact changesOnly_raise _ (by simp) (changesOnly_setSlot _ _ (by simp)
        (changesOnly_trans first (changesOnly_mono (endTransition_frame _ _ _) (by simp))))

/-! ### Outcomes of exchanges (R128) -/

/-- R128: the outcome of an exchange is discarded: a detached exchange, or a slot that takes none. -/
def State.discards (s : State) (x : Exchange) : Prop :=
  x.detached = true ∨ (s.slot x.slot).state = .unused ∨ ((s.slot x.slot).state = .joining ∧ (s.slot x.slot).run = none)

theorem reportOutcome_of_discards {x : Exchange} (h : s.discards x) (o : ExchangeOutcome) (r : FieldOverride) : s.reportOutcome x o r = s := by
  unfold State.reportOutcome
  split
  · rfl
  next attached =>
    have none : (s.slot x.slot).state = .unused ∨ ((s.slot x.slot).state = .joining ∧ !(s.slot x.slot).running) := by
      rcases h with h | h | ⟨h, run⟩
      · exact absurd h attached
      · exact .inl h
      · exact .inr ⟨h, by simp [Slot.running, run]⟩
    simp only [State.takeOutcome, if_pos none]
    rfl

theorem takes_of_not_discards {x : Exchange} (h : ¬s.discards x) :
    ¬((s.slot x.slot).state = .unused ∨ ((s.slot x.slot).state = .joining ∧ !(s.slot x.slot).running)) := by
  rintro (unused | ⟨joining, idle⟩)
  · exact h (.inr (.inl unused))
  · exact h (.inr (.inr ⟨joining, by simpa [Slot.running] using idle⟩))

theorem reportTimeout_of_takes {x : Exchange} (h : ¬s.discards x) :
    s.reportOutcome x .timeout .none = (s.miss x.slot .timeout).deliver := by
  have attached : ¬x.detached = true := fun yes => h (.inl yes)
  rw [State.reportOutcome, if_neg attached]
  simp only [State.takeOutcome, if_neg (takes_of_not_discards h)]

/-- R127 to R129: what a timeout reported from a port leaves, once the port has changed. -/
theorem reportTimeout_leaves (s : State) (p : Fin 4) (q : Port) (x : Exchange) :
    let t := (s.setPort p q).reportOutcome x .timeout .none
    t.port p = q ∧ s.otherPortsStand t p ∧ (s.discards x → s.changesOnly t [.ports]) ∧
      (¬s.discards x → s.missed t x.slot .timeout ∧ s.otherSlotsStand t x.slot ∧
        s.changesOnly t [.slots, .groups, .members, .ports, .records]) := by
  intro t
  obtain ⟨own, others, frame⟩ := setPort_alone s p q
  by_cases h : s.discards x
  · have same : t = s.setPort p q := reportOutcome_of_discards (s := s.setPort p q) h .timeout .none
    rw [same]
    exact ⟨own, others, fun _ => frame, fun not => absurd h not⟩
  · have taken : t = ((s.setPort p q).miss x.slot .timeout).deliver := reportTimeout_of_takes (s := s.setPort p q) h
    obtain ⟨slots, left⟩ := missDeliver_frame (s.setPort p q) x.slot .timeout
    have ports := port_congr (left.2.2 .ports (by decide))
    rw [taken]
    refine ⟨(ports p).trans own, fun k ne => (ports k).trans (others k ne), fun yes => absurd yes h, fun _ => ⟨?_, fun j ne => slots j ne, ?_⟩⟩
    · exact missed_of_deliver (s.setPort p q) x.slot .timeout
    · exact changesOnly_trans (changesOnly_mono frame (by simp)) (changesOnly_mono left (by simp))

/-- Settles O43: each event acts where the port's state and exchange say, and a timeout goes to the exchange's slot. -/
theorem windowsAndLines : Obligations.WindowsAndLines := by
  refine ⟨fun s p line running => ⟨fun closed => ?_, fun x open_ window => ?_⟩, fun s p running => ⟨fun not => ?_, fun listens up => ?_⟩,
    fun s p running => ⟨fun up => ?_, fun blocked => ?_⟩⟩
  · refine exec_of_idle (f := fun s => s.expireWindow p line) rfl running ?_
    unfold State.expireWindow
    split
    next x open_ => exact if_neg (by rw [closed x open_]; exact nofun)
    · rfl
  · have expired : s.expireWindow p line =
        (s.setPort p ({ s.port p with line := line } : Port).endExchange).reportOutcome x .timeout .none := by
      simp only [State.expireWindow, open_, window, if_true]
    obtain ⟨own, others, rest⟩ := reportTimeout_leaves s p ({ s.port p with line := line } : Port).endExchange x
    rw [← expired] at own others rest
    refine ⟨_, exec_of_event (f := fun s => s.expireWindow p line) rfl running, ?_, others, rest⟩
    rw [own]
    exact sendsHead_startIfReady _
  · exact exec_of_idle (f := fun s => s.blockLine p) rfl running (if_pos not)
  · have blocked : s.blockLine p = match (s.port p).exchange with
        | some x => (s.setPort p (s.port p).block).reportOutcome x .timeout .none
        | none => s.setPort p (s.port p).block := by
      refine if_neg ?_
      rintro (sends | down)
      · exact absurd (listens.symm.trans sends) nofun
      · exact up down
    refine ⟨_, exec_of_event (f := fun s => s.blockLine p) rfl running, ?_⟩
    cases open_ : (s.port p).exchange with
    | none =>
      rw [open_] at blocked
      dsimp only at blocked
      obtain ⟨own, others, frame⟩ := setPort_alone s p (s.port p).block
      rw [blocked]
      exact ⟨own, others, fun _ => frame, fun x h => nomatch h⟩
    | some x =>
      rw [open_] at blocked
      dsimp only at blocked
      obtain ⟨own, others, rest⟩ := reportTimeout_leaves s p (s.port p).block x
      rw [← blocked] at own others rest
      refine ⟨own, others, fun h => (nomatch h), fun y same => ?_⟩
      obtain rfl := Option.some.inj same
      exact rest
  · exact exec_of_idle (f := fun s => if (s.port p).state = .blocked then s.setPort p (s.port p).unblock else s) rfl running (if_neg up)
  · obtain ⟨own, others, frame⟩ := setPort_alone s p (s.port p).unblock
    refine ⟨_, (exec_of_event (f := fun s => if (s.port p).state = .blocked then s.setPort p (s.port p).unblock else s) rfl running).trans
      (congrArg _ (if_pos blocked)), ?_, others, frame⟩
    rw [own]
    exact sendsHead_startIfReady _

/-! ### SET PORT and READ PORT -/

/-- R132: what is read of the time elapsed. -/
theorem elapsedReading_bounds (x : Exchange) (free : Nat) : (x.phase = .sending → x.elapsedReading free = 0) ∧
    (x.phase = .window → x.elapsed ≤ x.window → x.elapsed ≤ x.elapsedReading free ∧ x.elapsedReading free ≤ x.window) := by
  unfold Exchange.elapsedReading
  split
  next sending => exact ⟨fun _ => rfl, fun window => nomatch sending.symm.trans window⟩
  next window =>
    refine ⟨fun sending => (nomatch window.symm.trans sending), fun _ open_ => ⟨Nat.le_add_right _ _, ?_⟩⟩
    have : Config.windowReading free % (x.window - x.elapsed + 1) < x.window - x.elapsed + 1 := Nat.mod_lt _ (Nat.succ_pos _)
    omega

/-- Settles O40: by the port's number and the clear choice, and by whether an exchange is in flight. -/
theorem portRequests : Obligations.PortRequests := by
  refine ⟨fun s src port window clear r ready => ⟨_, exec_of_owner rfl s, fun bad => ?_, fun known p hp => ?_⟩,
    fun s src port r ready => ⟨_, exec_of_owner rfl s, ?_, fun high => ?_, fun p hp => ?_⟩⟩
  · refine carryOut_refuse ready _ _ ?_
    unfold setPortRequest
    split
    · rfl
    next p hp =>
      rw [index?_iff] at hp
      exact if_pos (by omega)
  · intro q
    have set : setPortRequest port window clear s = ⟨s.setPort p (if clear = 0#8 then q.clearCounts else q), .done,
        num2 (max 20 (min 200 window.toNat))⟩ := by
      rw [setPortRequest, index?_val hp]
      exact if_neg (by omega)
    obtain ⟨own, others, alone⟩ := setPort_alone s p (if clear = 0#8 then q.clearCounts else q)
    obtain ⟨answered, left, frame⟩ := answered_of ready set alone (by simp) (by simp)
    have ports := port_congr (left.2.2 .ports (by decide))
    refine ⟨fun no => ?_, fun yes => ?_, fun k ne => (ports k).trans (others k ne), answered, changesOnly_mono frame (by simp)⟩
    · rw [ports, own, if_neg (by rw [no]; decide)]
    · rw [ports, own, if_pos yes]
      rfl
  · exact changesOnly_mono (carryOut_frame (bs := [.freeReads]) _ (readPort_frame port (by simp))) (by simp)
  · exact carryOut_refuse ready _ _ (by rw [readPort, index?_of_le high])
  · intro q head tail
    have read : readPort port s = ⟨s.setFreeReads (s.freeReads + 1), .done, q.readFields s.freeReads⟩ := by rw [readPort, index?_val hp]
    obtain ⟨answered, -, -⟩ := answered_of (bs := [.freeReads]) ready read (changesOnly_setFreeReads _ (by simp) changesOnly_refl)
      (by simp) (by simp)
    have fields : q.readFields s.freeReads = head ++ optField 9 (fun x => x.fields s.freeReads) q.exchange ++ tail := by
      simp only [Port.readFields, head, tail, List.append_assoc]
      rfl
    rw [fields] at answered
    refine ⟨fun none => ?_, fun x open_ => ⟨x.elapsedReading s.freeReads, (elapsedReading_bounds x _).1, (elapsedReading_bounds x _).2, ?_⟩⟩
    · rw [none] at answered
      exact answered
    · rw [open_] at answered
      simpa only [optField, Exchange.fields, kindCode, flag1, List.append_assoc, List.cons_append, List.nil_append] using answered

end Sys2Proof.Machine
end

section
/-! PROOFS. What step events, minute events and day events do at the timetable engine and at the slots, and SET DAY (O8). -/

namespace Sys2Proof.Machine

variable {s t u v : State} {i j : Fin 64} {g h : Fin 16} {tb : Timetable}

/-! ### What the removals keep (R102, R107, R109, R112) -/

/-- One group's active cue and direct selection, kept or removed. -/
def Timetable.keep (tb : Timetable) (cue : ActiveCue → Bool) (direct : DirectSelection → Bool) (g : Fin 16) : Timetable :=
  (tb.keepCue cue g).keepDirect direct g

section
variable (cue : ActiveCue → Bool) (direct : DirectSelection → Bool)

theorem keep_active (tb : Timetable) (g h : Fin 16) :
    (tb.keep cue direct g).active.get h = if h = g then (tb.active.get h).filter cue else tb.active.get h := by
  split
  next same => subst same; exact Vector.getElem_set_self h.isLt
  next other => exact Vector.getElem_set_ne g.isLt h.isLt fun same => other (Fin.ext same.symm)

theorem keep_direct (tb : Timetable) (g h : Fin 16) :
    (tb.keep cue direct g).direct.get h = if h = g then (tb.direct.get h).filter direct else tb.direct.get h := by
  split
  next same => subst same; exact Vector.getElem_set_self h.isLt
  next other => exact Vector.getElem_set_ne g.isLt h.isLt fun same => other (Fin.ext same.symm)

theorem foldl_keep (gs : List (Fin 16)) : gs.Nodup → ∀ tb : Timetable,
    gs.foldl (fun tb g => tb.keep cue direct g) tb = { tb with
      active := (gs.foldl (fun tb g => tb.keep cue direct g) tb).active
      direct := (gs.foldl (fun tb g => tb.keep cue direct g) tb).direct } ∧
    ∀ h, (gs.foldl (fun tb g => tb.keep cue direct g) tb).active.get h =
        (if h ∈ gs then (tb.active.get h).filter cue else tb.active.get h) ∧
      (gs.foldl (fun tb g => tb.keep cue direct g) tb).direct.get h =
        if h ∈ gs then (tb.direct.get h).filter direct else tb.direct.get h := by
  induction gs with
  | nil => exact fun _ tb => ⟨rfl, fun _ => ⟨rfl, rfl⟩⟩
  | cons g gs ih =>
    intro distinct tb
    obtain ⟨once, distinct⟩ := List.nodup_cons.mp distinct
    obtain ⟨frame, rest⟩ := ih distinct (tb.keep cue direct g)
    refine ⟨frame, fun h => ?_⟩
    obtain ⟨active, directs⟩ := rest h
    rw [List.foldl_cons, active, directs, keep_active, keep_direct]
    by_cases same : h = g
    · subst same
      simp [once]
    · simp [same]

/-- Every group's active cue and direct selection, kept or removed. -/
theorem keepAll_spec (tb : Timetable) : ∃ active direct', (List.finRange 16).foldl (fun tb g => tb.keep cue direct g) tb =
      { tb with active := active, direct := direct' } ∧
    (∀ h c, active.get h = some c ↔ tb.active.get h = some c ∧ cue c = true) ∧
    ∀ h d, direct'.get h = some d ↔ tb.direct.get h = some d ∧ direct d = true := by
  obtain ⟨frame, each⟩ := foldl_keep cue direct (List.finRange 16) (List.nodup_finRange 16) tb
  refine ⟨_, _, frame, fun h c => ?_, fun h d => ?_⟩
  · rw [(each h).1, if_pos (List.mem_finRange h), Option.filter_eq_some_iff]
  · rw [(each h).2, if_pos (List.mem_finRange h), Option.filter_eq_some_iff]

end

theorem keptAtStep_iff {d : DirectSelection} {ref : Nat} : d.keptAtStep ref = true ↔ ∀ e, d.endR = some e → e ≤ ref + 864000 := by
  unfold DirectSelection.keptAtStep
  split
  next none => simp [none]
  next e found =>
    rw [decide_eq_true_iff, found]
    exact ⟨fun h x hx => Option.some.inj hx ▸ h, fun h => h e rfl⟩

/-- R112: what a step leaves of the tables. -/
theorem stepExpire_spec (tb : Timetable) (ref : Nat) :
    tb.stepExpire ref = { tb with active := (tb.stepExpire ref).active, direct := (tb.stepExpire ref).direct } ∧
    (∀ g c, (tb.stepExpire ref).active.get g = some c ↔ tb.active.get g = some c ∧ c.endR ≤ ref + 432000) ∧
    ∀ g d, (tb.stepExpire ref).direct.get g = some d ↔ tb.direct.get g = some d ∧ ∀ e, d.endR = some e → e ≤ ref + 864000 := by
  obtain ⟨active, direct, e, cues, directs⟩ := keepAll_spec (ActiveCue.keptAtStep ref) (DirectSelection.keptAtStep ref) tb
  have expired : tb.stepExpire ref = { tb with active := active, direct := direct } := e
  rw [expired]
  refine ⟨rfl, fun g c => ?_, fun g d => ?_⟩
  · rw [cues, ActiveCue.keptAtStep, decide_eq_true_iff]
    rfl
  · rw [directs, keptAtStep_iff]

/-- R102, R107, R109: what a minute or day event leaves of the tables. -/
theorem expire_spec (tb : Timetable) (day minute : Nat) :
    tb.expire day minute = { tb with
      events := tb.events.filter fun e => !pairLe e.endDay e.endMinute day minute
      active := (tb.expire day minute).active, direct := (tb.expire day minute).direct } ∧
    (∀ g c, (tb.expire day minute).active.get g = some c ↔ tb.active.get g = some c ∧ instantOf day minute < c.endR) ∧
    ∀ g d, (tb.expire day minute).direct.get g = some d ↔ tb.direct.get g = some d ∧ ∀ e, d.endR = some e → instantOf day minute < e := by
  obtain ⟨active, direct, e, cues, directs⟩ :=
    keepAll_spec (·.inForce (instantOf day minute)) (·.inForce (instantOf day minute)) (tb.dropEnded day minute)
  have expired : tb.expire day minute = { tb.dropEnded day minute with active := active, direct := direct } := e
  rw [expired]
  refine ⟨rfl, fun g c => ?_, fun g d => ?_⟩
  · rw [cues, ActiveCue.inForce_iff]
    rfl
  · rw [directs, DirectSelection.inForce_iff]
    rfl

/-! ### Step flags (R23) -/

theorem setStepFlags_slot (s : State) (is : List (Fin 64)) (j : Fin 64) :
    (s.setStepFlags is).slot j = if j ∈ is then { s.slot j with stepFlag := true } else s.slot j := by
  unfold State.setStepFlags
  induction is generalizing s with
  | nil => rfl
  | cons i is ih =>
    rw [List.foldl_cons, ih, State.setSlot_slot]
    by_cases same : i = j
    · subst same
      simp
    · simp [same, eq_comm (a := j)]

theorem mem_runningSlots : i ∈ s.runningSlots ↔ (s.slot i).run.isSome = true := by simp [State.runningSlots, Slot.running]

/-- The values that the events of the group coordinator leave at every slot, and a target event at a running one. -/
def Slot.ride (x : Slot) : Option CycleRun × Nat × Bool := (x.run, x.count, x.stepFlag)

theorem groupClosed_ride (i : Fin 64) (x : Option CycleRun × Nat × Bool) : GroupClosed fun t => (t.slot i).ride = x where
  raise _ _ _ h := h
  group _ _ _ h := h
  member _ _ _ h := h
  force t j h := by
    rw [State.forceImmediate, State.setSlot_slot]
    split
    next same => subst same; exact h
    next => exact h

/-- R30: a slot with a position is not positioned again. -/
theorem targetEvent_ride {x : Option CycleRun × Nat × Bool} (running : x.1.isSome = true) (s : State) (i : Fin 64) (n : Nat)
    (k : Option Layer) (m : Option Mode) (h : (s.slot j).ride = x) : ((s.targetEvent i n k m).1.slot j).ride = x := by
  by_cases same : j = i
  · subst same
    have runs : (s.slot j).run.isSome = true := by rw [← h] at running; exact running
    unfold State.targetEvent
    dsimp only
    split
    · exact h
    · generalize hu : s.setSlot j _ = u
      have own : (u.slot j).ride = x := by rw [← hu, State.setSlot_slot_same]; exact h
      have sits : (u.slot j).run.isSome = true := by rw [← own] at running; exact running
      have idle : ¬u.seeks j := fun seeks => by
        have : (u.slot j).running = false := seeks.2.1
        simp [Slot.running, sits] at this
      rcases positionAttempt_cases u j with ⟨-, e⟩ | ⟨seeks, -⟩ | ⟨seeks, -⟩ | ⟨seeks, -⟩
      · rw [e]; exact own
      · exact absurd seeks idle
      · exact absurd seeks idle
      · exact absurd seeks idle
  · have stands := (slotClosed_other (x := s.slot j) same).targetEvent n k m rfl
    rw [stands]
    exact h

theorem takeSelection_ride {x : Option CycleRun × Nat × Bool} (running : x.1.isSome = true) (g : Fin 16) (r : Selection)
    (h : (s.slot j).ride = x) : ((s.takeSelection g r).slot j).ride = x :=
  (groupClosed_ride j x).takeSelection (fun t i n k m ht => targetEvent_ride running t i n k m ht) g r h

theorem evaluateGroups_ride {x : Option CycleRun × Nat × Bool} (running : x.1.isSome = true) (gs : List (Fin 16)) (d m : Nat)
    (h : (s.slot j).ride = x) : ((s.evaluateGroups gs d m).slot j).ride = x :=
  keeps_foldl (Q := fun t => (t.slot j).ride = x) (fun _ _ ht => takeSelection_ride running _ _ ht) gs h

theorem evaluateNow_ride {x : Option CycleRun × Nat × Bool} (running : x.1.isSome = true) (gs : List (Fin 16))
    (h : (s.slot j).ride = x) : ((s.evaluateNow gs).slot j).ride = x := by
  unfold State.evaluateNow
  split
  · exact evaluateGroups_ride running gs _ _ h
  · exact h

/-! ### Events at the timetable engine -/

/-- R112: a step event at the timetable engine. -/
theorem timetableStep_of_set (timeSet : s.time.disc ≠ .unset) :
    s.timetableStep = (s.setTables (s.tables.stepExpire s.time.ref)).evaluateNow (List.finRange 16) := if_pos (isSet_iff.mpr timeSet)

theorem timetableStep_leaves (timeSet : s.time.disc ≠ .unset) : s.timetableStep.tables = s.tables.stepExpire s.time.ref ∧
    ∀ g, s.timetableStep.showsSelection g := by
  rw [timetableStep_of_set timeSet]
  exact ⟨(evaluateNow_frame _ _).2.2 .tables (by decide), fun g => evaluateNow_showsSelection _ timeSet (List.mem_finRange g)⟩

/-- R112: a minute event or day event at the timetable engine, at the present minute. -/
theorem timetableMinute_leaves (timeSet : s.time.disc ≠ .unset) :
    (s.timetableMinute s.time.day s.time.minute).tables = s.tables.expire s.time.day s.time.minute ∧
      ∀ g, (s.timetableMinute s.time.day s.time.minute).showsSelection g := by
  have taken : s.timetableMinute s.time.day s.time.minute =
      (s.setTables (s.tables.expire s.time.day s.time.minute)).evaluateNow (List.finRange 16) := by
    rw [State.timetableMinute, if_pos (isSet_iff.mpr timeSet)]
    generalize hu : s.setTables _ = u
    have time : u.time = s.time := by rw [← hu, State.setTables_time]
    rw [State.evaluateNow, time, if_pos (isSet_iff.mpr timeSet)]
  rw [taken]
  exact ⟨(evaluateNow_frame _ _).2.2 .tables (by decide), fun g => evaluateNow_showsSelection _ timeSet (List.mem_finRange g)⟩

/-- R6: what a step event leaves while time is set. -/
theorem stepEvent_leaves (timeSet : s.time.disc ≠ .unset) : s.stepEvent.tables = s.tables.stepExpire s.time.ref ∧
    (∀ g, s.stepEvent.showsSelection g) ∧ (∀ i, (s.slot i).run.isSome = true → (s.stepEvent.slot i).stepFlag = true) ∧
    s.changesOnly s.stepEvent (.tables :: Block.engine) ∧ s.records.grows s.stepEvent.records := by
  have flags : s.changesOnly (s.setStepFlags s.runningSlots) [.slots] := changesOnly_setStepFlags _ (by simp) changesOnly_refl
  have set : (s.setStepFlags s.runningSlots).time.disc ≠ .unset := by rwa [flags.2.2 .time (by decide)]
  obtain ⟨tables, shows⟩ := timetableStep_leaves set
  refine ⟨?_, shows, fun i running => ?_, changesOnly_stepEvent (by simp) (by simp) changesOnly_refl, ?_⟩
  · rw [flags.2.2 .tables (by decide), flags.2.2 .time (by decide)] at tables
    exact tables
  · have flagged : ((s.setStepFlags s.runningSlots).slot i).ride = ((s.slot i).run, (s.slot i).count, true) := by
      rw [setStepFlags_slot, if_pos (mem_runningSlots.mpr running)]
      rfl
    have kept : (s.stepEvent.slot i).ride = ((s.slot i).run, (s.slot i).count, true) := by
      rw [State.stepEvent, timetableStep_of_set set]
      refine evaluateNow_ride running _ ?_
      rw [State.setTables_slot]
      exact flagged
    simp only [Slot.ride, Prod.mk.injEq] at kept
    exact kept.2.2
  · have same : (s.setStepFlags s.runningSlots).records = s.records := flags.2.2 .records (by decide)
    have grown : (s.setStepFlags s.runningSlots).records.grows s.stepEvent.records := by
      rw [State.stepEvent, timetableStep_of_set set]
      refine (engineClosed_grows _).evaluateNow _ ?_
      rw [State.setTables_records]
      exact RecordUnit.grows_refl _
    rwa [same] at grown

/-! ### SET DAY -/

/-- Settles O8: a different day while time is set is a step. -/
theorem setDaySteps : Obligations.SetDaySteps := by
  intro s src day r ready
  have kept : discarded r = false := by
    obtain rfl := Option.some.inj ready.1
    exact Bool.and_false _
  have dated : s.changesOnly (s.setTime { s.time with day := day.toNat }) [.time] := changesOnly_setTime _ (by simp) changesOnly_refl
  refine ⟨_, exec_of_owner rfl s, ?_⟩
  by_cases steps : s.time.isSet = true ∧ s.time.day ≠ day.toNat
  · generalize hv : (s.setTime { s.time with day := day.toNat }).raise .timeStep = v
    have raised : s.changesOnly v [.time, .records] := by
      rw [← hv]
      exact changesOnly_raise _ (by simp) (changesOnly_mono dated (by simp))
    have time : v.time = { s.time with day := day.toNat } := by rw [← hv]; rfl
    have records : v.records = s.records.raise .timeStep := by rw [← hv]; rfl
    have set : v.time.disc ≠ .unset := by rw [time]; exact isSet_iff.mp steps.1
    have taken : (fun s : State => (⟨s.setDayNumber day.toNat, .done, []⟩ : Answer)) s = ⟨v.stepEvent, .done, []⟩ := by
      rw [← hv]
      exact congrArg (Answer.mk · .done []) (if_pos steps)
    obtain ⟨tables, shows, flags, frame, grown⟩ := stepEvent_leaves set
    have whole : s.changesOnly v.stepEvent (.time :: .tables :: Block.engine) :=
      changesOnly_trans (changesOnly_mono raised (by decide)) (changesOnly_mono frame (by decide))
    obtain ⟨answered, left, all⟩ :=
      answered_any (o := fun s => ⟨s.setDayNumber day.toNat, .done, []⟩) ready kept taken whole (by decide) (by decide)
    have sameTables : (carryOut (.setDay src day) _ s).tables = _ := (left.2.2 .tables (by decide)).trans tables
    obtain ⟨only, cues, directs⟩ := stepExpire_spec s.tables (day.toNat * 864000 + s.time.nt)
    have ref : v.tables.stepExpire v.time.ref = s.tables.stepExpire (day.toNat * 864000 + s.time.nt) := by
      rw [raised.2.2 .tables (by decide), time]
      rfl
    rw [ref] at sameTables
    refine ⟨(left.2.2 .time (by decide)).trans ((frame.2.2 .time (by decide)).trans time), answered, fun not => ?_, fun _ _ => ?_⟩
    · exact absurd not (not_or.mpr ⟨isSet_iff.mp steps.1, steps.2⟩)
    · refine ⟨fun unmasked => ?_, fun i running => ?_, ?_, fun g c => ?_, fun g d => ?_, fun g => ?_, changesOnly_mono all (by decide)⟩
      · rw [left.2.2 .records (by decide)]
        refine grown.2.2 _ ?_
        rw [records]
        exact RecordUnit.raise_self unmasked
      · rw [slot_congr (left.2.2 .slots (by decide))]
        exact flags i (by rwa [slot_congr (raised.2.2 .slots (by decide))])
      · rw [sameTables]
        exact only
      · rw [sameTables]
        exact cues g c
      · rw [sameTables]
        exact directs g d
      · exact (showsSelection_congr (left.2.2 .tables (by decide)) (left.2.2 .time (by decide))
          (shownStands_of_groups (left.2.2 .groups (by decide)) g)).mpr (shows g)
  · have taken : (fun s : State => (⟨s.setDayNumber day.toNat, .done, []⟩ : Answer)) s =
        ⟨s.setTime { s.time with day := day.toNat }, .done, []⟩ := congrArg (Answer.mk · .done []) (if_neg steps)
    obtain ⟨answered, left, all⟩ :=
      answered_any (o := fun s => ⟨s.setDayNumber day.toNat, .done, []⟩) ready kept taken dated (by decide) (by decide)
    refine ⟨left.2.2 .time (by decide), answered, fun _ => changesOnly_mono all (by decide), fun set other => ?_⟩
    exact absurd ⟨isSet_iff.mpr set, other⟩ steps

end Sys2Proof.Machine
end

section
/-! PROOFS. One tick: the time base, the events it raises and their order, and what holds from one event to the next (O4). -/

namespace Sys2Proof.Machine

variable {s t u v : State} {i j : Fin 64} {g h : Fin 16} {e d : TickEvent} {es order pending : List TickEvent} {k : Nat} {w : Bool}
  {run : List (Fin 64)} {P Q : State → Prop}

/-! ### The time base in a tick (R2, R3, R11) -/

theorem secondTick_iff {x : TimeBase} : x.secondTick = true ↔ 9 ≤ x.phase := by
  simp [TimeBase.secondTick, Config.ticksPerSecond]

theorem amount_eq (x : TimeBase) : x.amount = if 9 ≤ x.phase then (if 0 < x.slew then 2 else if x.slew < 0 then 0 else 1) else 1 := by
  unfold TimeBase.amount
  simp only [secondTick_iff]

/-- R2: phase, slew and age of a tick. -/
theorem tick_second (x : TimeBase) : x.tick.disc = x.disc ∧ x.tick.agree = x.agree ∧ x.tick.outliers = x.outliers ∧
    x.tick.lastDiff = x.lastDiff ∧ x.tick.phase = (if 9 ≤ x.phase then 0 else x.phase + 1) ∧
    x.tick.slew = (if 9 ≤ x.phase then slewToward x.slew else x.slew) ∧
    x.tick.age = if 9 ≤ x.phase then min 60 (x.age + 1) else x.age := by
  have advanced : ∀ (y : TimeBase) (n : Nat), (y.advance n).disc = y.disc ∧ (y.advance n).agree = y.agree ∧
      (y.advance n).outliers = y.outliers ∧ (y.advance n).lastDiff = y.lastDiff ∧ (y.advance n).phase = y.phase ∧
      (y.advance n).slew = y.slew ∧ (y.advance n).age = y.age := fun y n => by
    unfold TimeBase.advance
    split <;> exact ⟨rfl, rfl, rfl, rfl, rfl, rfl, rfl⟩
  obtain ⟨disc, agree, outliers, last, phase, slew, age⟩ := advanced
    (if x.secondTick then { x with phase := 0, slew := slewToward x.slew, age := min Config.ageLimit (x.age + 1) }
      else { x with phase := x.phase + 1 }) x.amount
  have tick : x.tick = TimeBase.advance _ x.amount := rfl
  rw [tick, disc, agree, outliers, last, phase, slew, age]
  simp only [secondTick_iff]
  split <;> exact ⟨rfl, rfl, rfl, rfl, rfl, rfl, rfl⟩

/-- R3: NT and the day of a tick. -/
theorem tick_nt (x : TimeBase) : (x.nt + x.amount < 864000 → x.tick.nt = x.nt + x.amount ∧ x.tick.day = x.day) ∧
    (864000 ≤ x.nt + x.amount → x.tick.nt = x.nt + x.amount - 864000 ∧ x.tick.day = (x.day + 1) % 65536) := by
  have tick : ∃ y : TimeBase, y.nt = x.nt ∧ y.day = x.day ∧ x.tick = y.advance x.amount := by
    refine ⟨_, ?_, ?_, rfl⟩
    · split <;> rfl
    · split <;> rfl
  obtain ⟨y, nt, day, e⟩ := tick
  rw [e]
  unfold TimeBase.advance
  refine ⟨fun below => ?_, fun above => ?_⟩
  · rw [if_pos (by rw [nt]; exact below)]
    exact ⟨congrArg (· + _) nt, day⟩
  · rw [if_neg (by rw [nt]; exact Nat.not_lt.mpr above), nt, day]
    exact ⟨rfl, rfl⟩

theorem wraps_iff {x : TimeBase} : x.wraps x.amount = true ↔ 864000 ≤ x.nt + x.amount ∧ 65536 ≤ x.day + 1 := by
  simp only [TimeBase.wraps, TimeBase.rollsOver, Bool.and_eq_true, decide_eq_true_eq]
  exact Iff.rfl

/-- R3, R4: a rollover raises a minute event. -/
theorem not_wraps_of_sameMinute (same : s.sameMinute) : s.time.wraps s.time.amount = false := by
  rw [← Bool.not_eq_true, wraps_iff]
  rintro ⟨above, -⟩
  have bound := s.time.amount_le
  obtain ⟨nt, -⟩ := (tick_nt s.time).2 above
  unfold State.sameMinute at same
  omega

/-- R11: the time base once entry to HOLDOVER is looked at. -/
theorem enterHoldover_time (s : State) : s.enterHoldover.time =
    if s.time.disc = .locked ∧ 60 ≤ s.time.age then { s.time with disc := .holdover, slew := 0, outliers := 0 } else s.time := by
  have due : s.time.holdoverDue = true ↔ s.time.disc = .locked ∧ 60 ≤ s.time.age := by
    simp only [TimeBase.holdoverDue, Bool.and_eq_true, beq_iff_eq, decide_eq_true_eq]
    exact Iff.rfl
  unfold State.enterHoldover
  simp only [due]
  split <;> rfl

theorem enterHoldover_frame (s : State) : s.changesOnly s.enterHoldover [.time, .records] ∧ s.onlyNotices s.enterHoldover ∧
    s.records.grows s.enterHoldover.records := by
  unfold State.enterHoldover
  split
  · refine ⟨changesOnly_raise _ (by simp) (changesOnly_setTime _ (by simp) changesOnly_refl), ?_, RecordUnit.grows_raise _ _⟩
    exact onlyNotices_raise (t := s.setTime _) .timeHoldover rfl
  · exact ⟨changesOnly_refl, rfl, RecordUnit.grows_refl _⟩

/-! ### The start of a tick -/

/-- The state from which the events of a tick are taken. -/
def State.tickStart (s : State) : State :=
  let s1 := (s.setTime s.time.tick).enterHoldover
  if s.time.wraps s.time.amount && s1.time.isSet then s1.raise .timeStep else s1

theorem tick_eq (s : State) (order : List TickEvent) : s.tick order = s.tickStart.takeEvents s.time.amount (s.time.wraps s.time.amount)
    s.tickStart.runningSlots (schedule order (s.tickStart.tickEvents s.time)) .none := rfl

theorem tickStart_frame (s : State) : s.changesOnly s.tickStart [.time, .records] ∧ s.onlyNotices s.tickStart ∧
    s.records.grows s.tickStart.records ∧ s.tickStart.time = (s.setTime s.time.tick).enterHoldover.time := by
  obtain ⟨frame, notices, grown⟩ := enterHoldover_frame (s.setTime s.time.tick)
  have first : s.changesOnly (s.setTime s.time.tick) [.time, .records] := changesOnly_setTime _ (by simp) changesOnly_refl
  have start := changesOnly_trans first frame
  unfold State.tickStart
  dsimp only
  split
  · exact ⟨changesOnly_raise _ (by simp) start, onlyNotices_raise .timeStep notices,
      RecordUnit.grows_trans grown (RecordUnit.grows_raise _ _), rfl⟩
  · exact ⟨start, notices, grown, rfl⟩

theorem tickStart_time (s : State) : s.tickStart.time = if s.time.disc = .locked ∧ 60 ≤ s.time.tick.age then
    { s.time.tick with disc := .holdover, slew := 0, outliers := 0 } else s.time.tick := by
  rw [(tickStart_frame s).2.2.2, enterHoldover_time]
  simp only [State.setTime_time, (tick_second s.time).1]

theorem tickStart_clock (s : State) : s.tickStart.time.nt = s.time.tick.nt ∧ s.tickStart.time.day = s.time.tick.day ∧
    (s.tickStart.time.disc = .unset ↔ s.time.disc = .unset) := by
  rw [tickStart_time]
  split
  next due => exact ⟨rfl, rfl, ⟨fun h => (nomatch h), fun h => (nomatch due.1.symm.trans h)⟩⟩
  next => exact ⟨rfl, rfl, by rw [(tick_second s.time).1]⟩

theorem tickStart_slot (s : State) (i : Fin 64) : s.tickStart.slot i = s.slot i :=
  slot_congr ((tickStart_frame s).1.2.2 .slots (by decide)) i

theorem tickStart_running (s : State) : s.tickStart.runningSlots = s.runningSlots := by
  unfold State.runningSlots
  simp only [tickStart_slot]

/-- A tick with no wrap starts with the time base alone, and HOLDOVER where it is due. -/
theorem tickStart_of_not_wraps (no : s.time.wraps s.time.amount = false) : s.tickStart = (s.setTime s.time.tick).enterHoldover := by
  unfold State.tickStart
  dsimp only
  rw [no]
  rfl

/-! ### The events that a tick raises -/

theorem minuteRaised_iff : minuteRaised s.time s.tickStart.time = true ↔ ¬s.sameMinute := by
  have nt := (tickStart_clock s).1
  rw [minuteRaised, bne_iff_ne, TimeBase.minute, TimeBase.minute, nt]
  exact ne_comm

theorem mem_tickEvents : e ∈ s.tickStart.tickEvents s.time ↔ match e with
    | .slot i => (s.slot i).run.isSome = true
    | .scrub => True
    | .stepFlags => s.time.wraps s.time.amount = true ∧ s.time.disc ≠ .unset
    | .groupMinute _ => ¬s.sameMinute
    | .timetable => ¬s.sameMinute
    | _ => False := by
  have minute := minuteRaised_iff (s := s)
  have set : s.tickStart.time.isSet = true ↔ s.time.disc ≠ .unset := isSet_iff.trans (not_congr (tickStart_clock s).2.2)
  unfold State.tickEvents
  rw [tickStart_running]
  simp only [List.mem_append, List.mem_map, mem_runningSlots]
  by_cases hm : s.sameMinute
  · simp only [minute, hm, not_true, if_false, List.not_mem_nil, or_false, Bool.and_eq_true, set]
    cases e <;> simp
  · simp only [minute, hm, not_false_iff, if_true, Bool.and_eq_true, set]
    cases e <;> simp

theorem tickEvents_nodup (s : State) (before : TimeBase) : (s.tickEvents before).Nodup := by
  have slots : (s.runningSlots.map TickEvent.slot).Nodup :=
    (List.nodup_map_iff fun a b h => TickEvent.slot.inj h).mpr ((List.nodup_finRange 64).filter _)
  have groups : ((List.finRange 16).map TickEvent.groupMinute).Nodup :=
    (List.nodup_map_iff fun a b h => TickEvent.groupMinute.inj h).mpr (List.nodup_finRange 16)
  unfold State.tickEvents
  simp only [List.nodup_append]
  refine ⟨⟨⟨⟨slots, by simp, ?_⟩, ?_, ?_⟩, ?_, ?_⟩, ?_, ?_⟩
  · simp
  · split <;> simp
  · split
    · rintro _ mem d hd rfl
      simp only [List.mem_singleton] at hd
      subst hd
      simp at mem
    · simp
  · split
    · exact groups
    · exact List.nodup_nil
  · rintro d mem f hf rfl
    split at hf
    · obtain ⟨g, -, rfl⟩ := List.mem_map.mp hf
      split at mem <;> simp at mem
    · simp at hf
  · split <;> simp
  · rintro d mem f hf rfl
    split at hf
    · simp only [List.mem_singleton] at hf
      subst hf
      split at mem <;> simp at mem
    · simp at hf

/-- What an order names beside the raised events is in it as often as the order names it, and each raised event once. -/
theorem schedule_count (raised : e.raised = true) : ∀ order pending, (schedule order pending).count e = pending.count e := by
  intro order
  induction order with
  | nil => exact fun _ => rfl
  | cons d order ih =>
    intro pending
    unfold schedule
    split
    next other =>
      have ne : d ≠ e := fun same => by simp [same, raised] at other
      rw [List.count_cons_of_ne ne, ih]
    next =>
      split
      next mem =>
        rw [List.count_cons, ih, List.count_erase]
        by_cases same : d = e
        · subst same
          have : 0 < pending.count d := List.count_pos_iff.mpr mem
          simp
          omega
        · simp [same]
      next => exact ih pending

theorem mem_schedule (raised : e.raised = true) (order pending : List TickEvent) : e ∈ schedule order pending ↔ e ∈ pending := by
  rw [← List.count_pos_iff, ← List.count_pos_iff, schedule_count raised]

/-- Each event that a tick raises is taken once. -/
theorem count_tick (raised : e.raised = true) (mem : e ∈ s.tickStart.tickEvents s.time) (order : List TickEvent) :
    (schedule order (s.tickStart.tickEvents s.time)).count e = 1 := by
  rw [schedule_count raised]
  exact List.count_eq_one_of_mem (tickEvents_nodup _ _) mem

/-! ### From event to event -/

/-- What outlives every event and every arrival holds in the end. -/
theorem takeEvents_keeps (event : ∀ u e, e ∈ es → P u → P (u.tickEvent k w run e).1) (arrive : ∀ u v, P u → P (u.arrive v)) :
    ∀ (s : State) (v : OnWay), P s → P (s.takeEvents k w run es v) := by
  induction es with
  | nil => exact fun _ _ h => h
  | cons e es ih =>
    intro s v h
    exact ih (fun u d hd => event u d (List.mem_cons_of_mem _ hd)) _ _ (arrive _ _ (event s e List.mem_cons_self h))

/-- An event taken once: what holds before it, what it makes of that, and what holds after it. -/
theorem takeEvents_once (once : es.count e = 1) (before : ∀ u d, d ∈ es → d ≠ e → P u → P (u.tickEvent k w run d).1)
    (turn : ∀ u, P u → Q (u.tickEvent k w run e).1) (after : ∀ u d, d ∈ es → d ≠ e → Q u → Q (u.tickEvent k w run d).1)
    (arriveP : ∀ u v, P u → P (u.arrive v)) (arriveQ : ∀ u v, Q u → Q (u.arrive v)) :
    ∀ (s : State) (v : OnWay), P s → Q (s.takeEvents k w run es v) := by
  induction es with
  | nil => exact absurd once (by simp)
  | cons d es ih =>
    intro s v h
    by_cases same : d = e
    · subst same
      have none : d ∉ es := by
        rw [List.count_cons_self] at once
        exact List.count_eq_zero.mp (by omega)
      exact takeEvents_keeps (fun u f hf => after u f (List.mem_cons_of_mem _ hf) fun same => none (same ▸ hf)) arriveQ _ _
        (arriveQ _ _ (turn s h))
    · rw [List.count_cons_of_ne same] at once
      exact ih once (fun u f hf => before u f (List.mem_cons_of_mem _ hf)) (fun u f hf => after u f (List.mem_cons_of_mem _ hf)) _ _
        (arriveP _ _ (before s d List.mem_cons_self same h))

/-- The events other than the scrubber's. -/
theorem EngineClosed.tickEvent (c : EngineClosed Q) (tables : ∀ t x, Q t → Q (t.setTables x))
    (line : ∀ t p l, Q t → Q (t.setPort p ((t.port p).lineSeen l))) (other : e ≠ .scrub) (h : Q t) : Q (t.tickEvent k w run e).1 := by
  cases e with
  | slot i => exact (c.slots i).advanceSlot k h
  | scrub => exact absurd rfl other
  | stepFlags => exact c.setStepFlags run h
  | groupMinute g => exact c.groupMinute g h
  | timetable =>
    unfold State.tickEvent State.timetableStep State.timetableMinute
    dsimp only
    split
    · split
      · exact c.evaluateNow _ (tables _ _ h)
      · exact h
    · split
      · exact c.evaluateGroups _ _ _ (tables _ _ h)
      · exact h
  | lineSeen p l => exact line t p l h
  | memberArrives i => exact h
  | forcedArrives i => exact h

/-- The events other than the timetable engine's leave the tables. -/
theorem tickEvent_frame (other : e ≠ .timetable) (h : s.changesOnly t Block.engine) : s.changesOnly (t.tickEvent k w run e).1 Block.engine := by
  have hb : Block.engine ⊆ Block.engine := List.Subset.refl _
  cases e with
  | slot i => exact changesOnly_advanceSlot i k hb h
  | scrub => exact changesOnly_scrubVisit (store_mem hb) (records_mem hb) h
  | stepFlags => exact changesOnly_setStepFlags run (slots_mem hb) h
  | groupMinute g => exact changesOnly_groupMinute g (groups_mem hb) (records_mem hb) h
  | timetable => exact absurd rfl other
  | lineSeen p l => exact changesOnly_setPort _ _ (ports_mem hb) h
  | memberArrives i => exact h
  | forcedArrives i => exact h

theorem arrive_frame (v : OnWay) (h : s.changesOnly t Block.engine) : s.changesOnly (t.arrive v) Block.engine :=
  changesOnly_arrive v (List.Subset.refl _) h

/-- The time base stands from event to event. -/
theorem tick_time (s : State) (order : List TickEvent) : (s.tick order).time = s.tickStart.time := by
  have frame : s.tickStart.changesOnly (s.tick order) (.tables :: Block.engine) := by
    rw [tick_eq]
    exact changesOnly_takeEvents _ _ _ (by simp) (by simp) _ _ _ changesOnly_refl
  exact frame.2.2 .time (by decide)

/-- Settles O4: the events of a tick leave the time base. -/
theorem tickMovesTime : Obligations.TickMovesTime := by
  intro s order running inRange
  refine ⟨s.tick order, exec_of_event (f := fun s => s.tick order) rfl running, ?_⟩
  obtain ⟨nt, day, phase, -, -, -, -, old, -⟩ := inRange
  obtain ⟨disc, agree, outliers, last, phases, slews, ages⟩ := tick_second s.time
  obtain ⟨below, above⟩ := tick_nt s.time
  have bound := s.time.amount_le
  have amount := amount_eq s.time
  have nine : 9 ≤ s.time.phase ↔ s.time.phase = 9 := by omega
  simp only [nine] at phases slews ages amount
  have clock : (s.tick order).time.nt = s.time.tick.nt ∧ (s.tick order).time.day = s.time.tick.day := by
    rw [tick_time]
    exact ⟨(tickStart_clock s).1, (tickStart_clock s).2.1⟩
  have stands : (s.tick order).time.phase = s.time.tick.phase ∧ (s.tick order).time.agree = s.time.tick.agree ∧
      (s.tick order).time.lastDiff = s.time.tick.lastDiff ∧ (s.tick order).time.age = s.time.tick.age := by
    rw [tick_time, tickStart_time]
    split <;> exact ⟨rfl, rfl, rfl, rfl⟩
  intro second k age holdover
  have due : s.time.disc = .locked ∧ 60 ≤ s.time.tick.age ↔ holdover := by
    rw [ages]
    refine and_congr_right fun _ => ?_
    simp only [age]
    split <;> omega
  refine ⟨?_, ?_, ?_, stands.2.2.2.trans ages, stands.2.1.trans agree, stands.2.2.1.trans last, fun yes => ?_, fun no => ⟨?_, ?_, ?_, ?_⟩,
    changesOnly_tick s order⟩
  · rw [stands.1, phases]
    split <;> omega
  · rw [clock.1]
    omega
  · rw [clock.1, clock.2]
    have amounts : s.time.amount = k := amount
    rw [← amounts]
    omega
  · rw [tick_time, tickStart_time, if_pos (due.mpr yes)]
    exact ⟨rfl, rfl, rfl⟩
  · rw [tick_time, tickStart_time, if_neg (due.not.mpr no), disc]
  · rw [tick_time, tickStart_time, if_neg (due.not.mpr no), outliers]
  · intro other
    rw [tick_time, tickStart_time, if_neg (due.not.mpr no), slews, if_neg other]
  · intro yes
    rw [tick_time, tickStart_time, if_neg (due.not.mpr no), slews, if_pos yes]
    rfl

end Sys2Proof.Machine
end

section
/-! PROOFS. Reads of the plan store, the scrubber's visit, and the timetable engine's and a line report's part of a tick (O6, O30, O41). -/

namespace Sys2Proof.Machine

variable {s t u v : State} {st : PlanStore} {l : Location} {i j : Fin 64} {g h : Fin 16} {e d : TickEvent} {es order pending : List TickEvent}
  {k : Nat} {w : Bool} {run : List (Fin 64)} {P Q : State → Prop}

/-! ### Reads (R74) -/

theorem Location.fixed_eq (l : Location) : l.fixed = l.words.countP CodeWord.isCorrected := by
  unfold Location.fixed CodeWord.isCorrected
  refine List.countP_congr fun w _ => ?_
  generalize w.finding = f
  cases f <;> rfl

theorem Location.readData_eq (l : Location) : l.readData = l.words.map CodeWord.readData := by
  unfold Location.readData CodeWord.readData
  refine List.map_congr_left fun w _ => ?_
  generalize w.finding = f
  cases f <;> rfl

/-- A word as a sound read leaves it, without stuck cells. -/
theorem Location.rewritten_words (l : Location) :
    l.rewritten.words = l.words.map fun w => if w.isCorrected then CodeWord.fresh w.readData else w := by
  unfold Location.rewritten CodeWord.isCorrected CodeWord.readData
  refine List.map_congr_left fun w _ => ?_
  generalize w.finding = f
  cases f <;> rfl

theorem unsound_iff : (l.words.any fun w => w.finding == .uncorrectable) = true ↔ ∃ w ∈ l.words, w.finding = .uncorrectable := by
  simp only [List.any_eq_true, beq_iff_eq]

/-- R74: a sound read, without stuck cells. -/
theorem PlanStore.read_sound (sound : l.sound) (unstuck : st.stuck = []) : st.read l =
    ⟨{ st.put l.rewritten with corrected := min 65535 (st.corrected + l.fixed) }, some l.readData, l.fixed⟩ := by
  have none : ¬(l.words.any fun w => w.finding == .uncorrectable) = true := by
    rw [unsound_iff]
    exact fun ⟨w, mem, bad⟩ => sound w mem bad
  have words : (l.words.mapIdx fun k w => if w.isCorrected then st.cellsOf l.num k (.fresh w.readData) else w) = l.rewritten.words := by
    rw [Location.rewritten_words]
    unfold PlanStore.cellsOf
    rw [unstuck]
    refine List.ext_getElem (by simp) fun n _ _ => ?_
    simp
  rw [PlanStore.read, if_neg none, words, ← Location.fixed_eq, ← Location.readData_eq]
  rfl

/-- R74: a read that finds a word beyond repair. -/
theorem PlanStore.read_unsound (bad : ∃ w ∈ l.words, w.finding = .uncorrectable) :
    st.read l = ⟨st.put { l with faulted := true }, none, 0⟩ := by
  rw [PlanStore.read, if_pos (unsound_iff.mpr bad)]

theorem readLocation_store (s : State) (l : Location) : (s.readLocation l).1.store = (s.store.read l).store ∧
    (s.readLocation l).2 = (s.store.read l).image := by
  unfold State.readLocation
  generalize s.store.read l = r
  dsimp only
  split <;> exact ⟨rfl, rfl⟩

/-- R76: a location that a read marks raises PLAN_FAULT, and nothing else of the record unit moves. -/
theorem readLocation_notices (s : State) (l : Location) : s.onlyNotices (s.readLocation l).1 ∧
    s.records.grows (s.readLocation l).1.records ∧ ((s.store.read l).image = none → s.notified (s.readLocation l).1 .planFault) ∧
    ((s.store.read l).image ≠ none → (s.readLocation l).1.records = s.records) := by
  unfold State.readLocation
  generalize s.store.read l = r
  obtain ⟨st, image, fixed⟩ := r
  cases image with
  | none =>
    exact ⟨onlyNotices_raise (t := s.setStore st) .planFault rfl, RecordUnit.grows_raise _ _, fun _ =>
      notified_raise (t := s.setStore st) (RecordUnit.grows_refl _) .planFault (RecordUnit.grows_refl _), fun h => absurd rfl h⟩
  | some image => exact ⟨rfl, RecordUnit.grows_refl _, fun h => (nomatch h), fun _ => rfl⟩

/-! ### The scrubber (R77) -/

/-- What a tick at the scrubber leaves of the store, as R74 and R77 say. -/
def State.visited (s t : State) : Prop :=
  let onward := { s.store with scrubPos := t.store.scrubPos, passes := t.store.passes }
  ((∀ l ∈ s.store.held, l.num = s.store.scrubPos → l.faulted = true) → t.store = onward) ∧
  ∀ l ∈ s.store.held, l.num = s.store.scrubPos → l.faulted = false →
    (l.sound → s.store.stuck = [] → t.store.corrected = min 65535 (s.store.corrected + l.fixed) ∧
      onward.becomes { t.store with corrected := s.store.corrected } l.rewritten [l.num]) ∧
    ((∃ w ∈ l.words, w.finding = .uncorrectable) →
      onward.becomes t.store { l with faulted := true } [l.num] ∧ s.notified t .planFault)

/-- R77: the scrubber moves on. -/
theorem scrubOnward_moves (low : st.scrubPos < 1024) : st.scrubOnward.scrubPos = (st.scrubPos + 1) % 1024 ∧
    st.scrubOnward.passes = if st.scrubPos = 1023 then min 65535 (st.passes + 1) else st.passes := by
  unfold PlanStore.scrubOnward
  split
  next below =>
    have : st.scrubPos + 1 < 1024 := below
    exact ⟨(Nat.mod_eq_of_lt this).symm, (if_neg (by omega)).symm⟩
  next above =>
    have last : st.scrubPos = 1023 := by
      have : ¬st.scrubPos + 1 < 1024 := above
      omega
    exact ⟨by rw [last], (if_pos last).symm⟩

theorem scrubOnward_stands (st : PlanStore) :
    st.scrubOnward = { st with scrubPos := st.scrubOnward.scrubPos, passes := st.scrubOnward.passes } := by
  unfold PlanStore.scrubOnward
  split <;> rfl

theorem readLocation_scrub (s : State) (l : Location) : (s.readLocation l).1.store.scrubOn = s.store.scrubOn ∧
    (s.readLocation l).1.store.scrubPos = s.store.scrubPos ∧ (s.readLocation l).1.store.passes = s.store.passes := by
  rw [(readLocation_store s l).1]
  unfold PlanStore.read
  split <;> exact ⟨rfl, rfl, rfl⟩

/-- R77: a visit leaves the scrubber ON and moves it on. -/
theorem scrubVisit_moves (on : s.store.scrubOn = true) (low : s.store.scrubPos < 1024) : s.scrubVisit.store.scrubOn = true ∧
    s.scrubVisit.store.scrubPos = (s.store.scrubPos + 1) % 1024 ∧
    s.scrubVisit.store.passes = if s.store.scrubPos = 1023 then min 65535 (s.store.passes + 1) else s.store.passes := by
  have move : ∀ u : State, u.store.scrubOn = s.store.scrubOn ∧ u.store.scrubPos = s.store.scrubPos ∧ u.store.passes = s.store.passes →
      u.store.scrubOnward.scrubOn = true ∧ u.store.scrubOnward.scrubPos = (s.store.scrubPos + 1) % 1024 ∧
      u.store.scrubOnward.passes = if s.store.scrubPos = 1023 then min 65535 (s.store.passes + 1) else s.store.passes := by
    rintro u ⟨state, pos, passes⟩
    obtain ⟨next, count⟩ := scrubOnward_moves (st := u.store) (pos ▸ low)
    rw [next, count, pos, passes, scrubOnward_stands]
    exact ⟨state.trans on, rfl, rfl⟩
  unfold State.scrubVisit
  rw [if_pos on]
  dsimp only
  refine move _ ?_
  split
  · split
    · exact ⟨rfl, rfl, rfl⟩
    · exact readLocation_scrub s _
  · exact ⟨rfl, rfl, rfl⟩

theorem scrubVisit_of_off (off : s.store.scrubOn = false) : s.scrubVisit = s := by
  unfold State.scrubVisit
  rw [off]
  rfl

/-- The store that a visit leaves where it reads a location, and where it passes one. -/
theorem scrubVisit_store (wf : s.store.wf = true) (on : s.store.scrubOn = true) :
    ((∀ l ∈ s.store.held, l.num = s.store.scrubPos → l.faulted = true) → s.scrubVisit.store = s.store.scrubOnward) ∧
    ∀ l ∈ s.store.held, l.num = s.store.scrubPos → l.faulted = false →
      s.scrubVisit = (s.readLocation l).1.setStore (s.store.read l).store.scrubOnward := by
  unfold State.scrubVisit
  rw [if_pos on]
  dsimp only
  refine ⟨fun passed => ?_, fun l mem here sound => ?_⟩
  · split
    next l found =>
      obtain ⟨mem, here⟩ := PlanStore.at?_some found
      rw [if_pos (passed l mem here)]
      rfl
    next => rfl
  · rw [(PlanStore.at?_iff wf).mpr ⟨mem, here⟩]
    dsimp only
    rw [if_neg (by simp [sound]), (readLocation_store s l).1]

/-- R74, R77: what a visit leaves. -/
theorem scrubVisit_visited (wf : s.store.wf = true) (on : s.store.scrubOn = true) : s.visited s.scrubVisit := by
  obtain ⟨passes, reads⟩ := scrubVisit_store wf on
  refine ⟨fun faulted => ?_, fun l mem here sound => ⟨fun clean unstuck => ?_, fun bad => ?_⟩⟩
  · rw [passes faulted]
    exact scrubOnward_stands s.store
  · rw [reads l mem here sound, State.setStore_store, PlanStore.read_sound clean unstuck, scrubOnward_stands]
    obtain ⟨new, others, -⟩ := PlanStore.becomes_put wf l.rewritten
    exact ⟨rfl, new, others, rfl⟩
  · have image : (s.store.read l).image = none := by rw [PlanStore.read_unsound bad]
    refine ⟨?_, ?_⟩
    · rw [reads l mem here sound, State.setStore_store, PlanStore.read_unsound bad, scrubOnward_stands]
      obtain ⟨new, others, -⟩ := PlanStore.becomes_put wf { l with faulted := true }
      exact ⟨new, others, rfl⟩
    · rw [reads l mem here sound]
      exact notified_of_grows ((readLocation_notices s l).2.2.1 image) (RecordUnit.grows_refl _)

theorem scrubVisit_notices (s : State) : s.onlyNotices s.scrubVisit := by
  unfold State.scrubVisit
  dsimp only
  split
  · split
    · split
      · exact onlyNotices_refl s
      · exact (readLocation_notices s _).1
    · exact onlyNotices_refl s
  · exact onlyNotices_refl s

/-- A visit is judged by the store and the record unit alone. -/
theorem visited_congr (store : u.store = s.store) (records : s.records.grows u.records) (visit : u.visited v)
    (same : t.store = v.store) (later : v.records.grows t.records) : s.visited t := by
  unfold State.visited at visit ⊢
  rw [same]
  rw [store] at visit
  refine ⟨visit.1, fun l mem here sound => ⟨((visit.2 l mem here sound).1), fun bad => ?_⟩⟩
  obtain ⟨marked, raised⟩ := (visit.2 l mem here sound).2 bad
  refine ⟨marked, fun unmasked => later.2.2 _ (raised ?_)⟩
  rw [records.1]
  exact unmasked

/-! ### A tick at the scrubber -/

/-- The scrubber's own registers. -/
def PlanStore.scrub (st : PlanStore) : Bool × Nat × Nat := (st.scrubOn, st.scrubPos, st.passes)

theorem PlanStore.read_scrub (st : PlanStore) (l : Location) : (st.read l).store.scrub = st.scrub := by
  unfold PlanStore.read
  split <;> rfl

theorem PlanStore.promote_scrub (st : PlanStore) (i : Fin 64) (n : Nat) : (st.promote i n).scrub = st.scrub := by
  unfold PlanStore.promote
  repeat' split
  all_goals rfl

/-- No block but the scrubber moves it. -/
theorem engineClosed_scrub (x : Bool × Nat × Nat) : EngineClosed fun t => t.store.scrub = x where
  slots i :=
    { slot := fun _ _ h _ => h
      read := fun t l h _ _ => (PlanStore.read_scrub t.store l).trans h
      promote := fun t n h => (PlanStore.promote_scrub t.store i n).trans h
      removeEntry := fun _ h => h
      handOver := fun _ _ h => h
      raise := fun _ _ _ h => h
      record := fun _ _ h _ => h }
  group := fun _ _ _ h => h
  member := fun _ _ _ h => h

theorem scrub_tickEvent (x : Bool × Nat × Nat) (other : e ≠ .scrub) (h : t.store.scrub = x) : (t.tickEvent k w run e).1.store.scrub = x :=
  (engineClosed_scrub x).tickEvent (fun _ _ h => h) (fun _ _ _ h => h) other h

theorem scrub_raised (s : State) (order : List TickEvent) : (schedule order (s.tickStart.tickEvents s.time)).count .scrub = 1 :=
  count_tick rfl (mem_tickEvents.mpr trivial) order

/-- R77: a tick moves the scrubber by one visit. -/
theorem tick_scrub (s : State) (order : List TickEvent) (low : s.store.scrubPos < 1024) : (s.tick order).store.scrub =
    if s.store.scrubOn then (true, (s.store.scrubPos + 1) % 1024,
      if s.store.scrubPos = 1023 then min 65535 (s.store.passes + 1) else s.store.passes)
    else s.store.scrub := by
  have start : s.tickStart.store.scrub = s.store.scrub := by rw [(tickStart_frame s).1.2.2 .store (by decide)]
  rw [tick_eq]
  refine takeEvents_once (P := fun u => u.store.scrub = s.store.scrub) (Q := fun u => u.store.scrub = _) (scrub_raised s order) (fun _ _ _ other => scrub_tickEvent _ other)
    (fun u same => ?_) (fun _ _ _ other => scrub_tickEvent _ other) (fun _ v => (engineClosed_scrub _).arrive v)
    (fun _ v => (engineClosed_scrub _).arrive v) _ _ start
  obtain ⟨state, pos, passes⟩ : u.store.scrubOn = s.store.scrubOn ∧ u.store.scrubPos = s.store.scrubPos ∧ u.store.passes = s.store.passes := by
    simpa [PlanStore.scrub] using same
  change u.scrubVisit.store.scrub = _
  by_cases on : s.store.scrubOn = true
  · obtain ⟨state', next, count⟩ := scrubVisit_moves (state.trans on) (pos ▸ low)
    rw [if_pos on, PlanStore.scrub, state', next, count, pos, passes]
  · rw [if_neg on, scrubVisit_of_off (by rw [state]; simpa using on)]
    exact same

/-! ### A tick with no slot running -/

theorem slot_not_raised (idle : ∀ i, (s.slot i).run = none) (mem : e ∈ schedule order (s.tickStart.tickEvents s.time)) : e ≠ .slot i := by
  rintro rfl
  have running : (s.slot i).run.isSome = true := mem_tickEvents.mp ((mem_schedule rfl _ _).mp mem)
  rw [idle i] at running
  exact nomatch running

/-- The store waits for the scrubber while time is UNSET and no slot runs. -/
def State.storeWaits (st : PlanStore) (r : RecordUnit) (u : State) : Prop :=
  u.store = st ∧ r.grows u.records ∧ u.time.disc = .unset

theorem groupClosed_storeWaits (st : PlanStore) (r : RecordUnit) : GroupClosed (State.storeWaits st r) where
  raise := fun _ _ _ ⟨same, grown, unset⟩ => ⟨same, RecordUnit.grows_trans grown (RecordUnit.grows_raise _ _), unset⟩
  force := fun _ _ h => h
  group := fun _ _ _ h => h
  member := fun _ _ _ h => h

theorem setStepFlags_closed (slot : ∀ t i x, P t → P (t.setSlot i x)) (is : List (Fin 64)) (h : P s) : P (s.setStepFlags is) :=
  keeps_foldl (fun t i ht => slot t i _ ht) is h

theorem storeWaits_tickEvent {r : RecordUnit} (idle : ∀ i, e ≠ .slot i) (other : e ≠ .scrub) (h : State.storeWaits st r u) :
    State.storeWaits st r (u.tickEvent k w run e).1 := by
  cases e with
  | slot i => exact absurd rfl (idle i)
  | scrub => exact absurd rfl other
  | stepFlags => exact setStepFlags_closed (P := State.storeWaits st r) (fun _ _ _ h => h) run h
  | groupMinute g => exact (groupClosed_storeWaits st r).groupMinute g h
  | timetable =>
    have unset : u.time.isSet = false := by
      rw [← Bool.not_eq_true, isSet_iff, not_not]
      exact h.2.2
    unfold State.tickEvent State.timetableStep State.timetableMinute
    dsimp only
    rw [unset]
    split <;> exact h
  | lineSeen p l => exact h
  | memberArrives i => exact h
  | forcedArrives i => exact h

/-- Settles O6: one visit in a tick, and no other event moves the scrubber. -/
theorem tickMovesScrubber : Obligations.TickMovesScrubber := by
  unfold Obligations.TickMovesScrubber
  intro visited
  refine ⟨fun s order running low => ?_, fun s wf _ on => ⟨scrubVisit_visited wf on, scrubVisit_notices s,
    changesOnly_scrubVisit (by simp) (by simp) changesOnly_refl⟩⟩
  have scrub := tick_scrub s order low
  refine ⟨s.tick order, exec_of_event (f := fun s => s.tick order) rfl running, ?_, fun on => ?_, fun off => ?_, fun wf _ unset idle => ?_⟩
  · cases on : s.store.scrubOn
    · rw [on, if_neg (by simp)] at scrub
      exact (congrArg Prod.fst scrub).trans on
    · rw [on, if_pos rfl] at scrub
      exact congrArg Prod.fst scrub
  · rw [if_pos on] at scrub
    exact ⟨congrArg (·.2.1) scrub, congrArg (·.2.2) scrub⟩
  · rw [if_neg (by simp [off])] at scrub
    exact ⟨congrArg (·.2.1) scrub, congrArg (·.2.2) scrub⟩
  · have start : State.storeWaits s.store s.records s.tickStart :=
      ⟨(tickStart_frame s).1.2.2 .store (by decide), (tickStart_frame s).2.2.1, (tickStart_clock s).2.2.mpr unset⟩
    have none : ∀ d ∈ schedule order (s.tickStart.tickEvents s.time), ∀ i, d ≠ .slot i := fun d mem i => slot_not_raised idle mem
    refine ⟨fun on => ?_, fun off => ?_⟩
    · suffices ∃ v, s.visited v ∧ State.storeWaits v.store v.records (s.tick order) by
        obtain ⟨v, visit, same, grown, -⟩ := this
        exact visited_congr rfl (RecordUnit.grows_refl _) visit same grown
      rw [tick_eq]
      refine takeEvents_once (P := State.storeWaits s.store s.records) (Q := fun u => ∃ v, s.visited v ∧ State.storeWaits v.store v.records u)
        (scrub_raised s order)
        (fun _ _ mem other => storeWaits_tickEvent (none _ mem) other) (fun u h => ?_)
        (fun _ _ mem other ⟨v, visit, h⟩ => ⟨v, visit, storeWaits_tickEvent (none _ mem) other h⟩)
        (fun _ v => (groupClosed_storeWaits _ _).arrive v)
        (fun _ x ⟨v, visit, h⟩ => ⟨v, visit, (groupClosed_storeWaits _ _).arrive x h⟩) _ _ start
      obtain ⟨same, grown, unset⟩ := h
      have visit := scrubVisit_visited (same.symm ▸ wf) (same.symm ▸ on)
      refine ⟨u.scrubVisit, visited_congr same grown visit rfl (RecordUnit.grows_refl _), rfl, RecordUnit.grows_refl _, ?_⟩
      have frame : u.changesOnly u.scrubVisit [.store, .records] := changesOnly_scrubVisit (by simp) (by simp) changesOnly_refl
      exact (congrArg TimeBase.disc (frame.2.2 .time (by decide))).trans unset
    · suffices State.storeWaits s.store s.records (s.tick order) from this.1
      rw [tick_eq]
      refine takeEvents_keeps (fun u d mem h => ?_) (fun _ v => (groupClosed_storeWaits _ _).arrive v) _ _ start
      by_cases other : d = .scrub
      · subst other
        change State.storeWaits s.store s.records u.scrubVisit
        rw [scrubVisit_of_off (h.1.symm ▸ off)]
        exact h
      · exact storeWaits_tickEvent (none d mem) other h

end Sys2Proof.Machine
end

section
/-! PROOFS. The timetable engine's part of a tick and the removals where their conditions stand (O30), and exchanges (O41). -/

namespace Sys2Proof.Machine

variable {s t u v : State} {i j : Fin 64} {g h : Fin 16} {e d : TickEvent} {es order pending : List TickEvent}
  {k : Nat} {w : Bool} {run : List (Fin 64)} {p : Fin 4} {line : LineCondition} {P Q : State → Prop}

/-! ### What a group shows, from event to event -/

theorem shownStands_forceAll (is : List (Fin 64)) (s : State) : s.shownStands (s.forceAll is) :=
  keeps_foldl (Q := s.shownStands) (f := State.forceImmediate) (fun _ _ h => h) is shownStands_refl

theorem shownStands_arrive (v : OnWay) (s : State) : s.shownStands (s.arrive v) :=
  shownStands_trans (shownStands_takeMembers v.members s) (shownStands_forceAll v.forced _)

theorem shownStands_checkLimit (s : State) (g : Fin 16) : s.shownStands (s.checkLimit g).1 := by
  unfold State.checkLimit
  split
  · exact shownStands_trans (shownStands_setGroup s g { s.group g with reported := true } rfl) (shownStands_of_groups rfl)
  · exact shownStands_refl

theorem shownStands_groupMinute (s : State) (g : Fin 16) : s.shownStands (s.groupMinute g).1 := by
  unfold State.groupMinute
  dsimp only
  split
  · exact shownStands_checkLimit s g
  · exact shownStands_trans (shownStands_setGroup s g { s.group g with elapsed := min 255 ((s.group g).elapsed + 1) } rfl)
      (shownStands_checkLimit _ g)

/-- Only the timetable engine's event changes what a group shows. -/
theorem shownStands_tickEvent (other : e ≠ .timetable) (s : State) : s.shownStands (s.tickEvent k w run e).1 := by
  cases e with
  | slot i => exact shownStands_of_groups ((slotClosed_coordinator i s).advanceSlot k ⟨rfl, rfl⟩).1
  | scrub =>
    have frame : s.changesOnly s.scrubVisit [.store, .records] := changesOnly_scrubVisit (by simp) (by simp) changesOnly_refl
    exact shownStands_of_groups (frame.2.2 .groups (by decide))
  | stepFlags => exact shownStands_of_groups (setStepFlags_closed (P := fun t => t.groups = s.groups) (fun _ _ _ h => h) run rfl)
  | groupMinute g => exact shownStands_groupMinute s g
  | timetable => exact absurd rfl other
  | lineSeen p l => exact shownStands_of_groups rfl
  | memberArrives i => exact shownStands_refl
  | forcedArrives i => exact shownStands_refl

/-! ### The timetable engine's event (R112) -/

theorem tickClosed_grows (r : RecordUnit) : TickClosed fun t => r.grows t.records :=
  { engineClosed_grows r with
    tables := fun _ _ h _ => h
    scrubOnward := fun _ h => h
    lineSeen := fun _ _ _ h => h }

/-- The record unit only gains in a tick. -/
theorem tick_grows (s : State) (order : List TickEvent) : s.tickStart.records.grows (s.tick order).records := by
  rw [tick_eq]
  exact (tickClosed_grows _).takeEvents _ _ _ _ _ _ (RecordUnit.grows_refl _)

/-- R5: a wrap is a rollover from the last day. -/
theorem wraps_day (wraps : s.time.wraps s.time.amount = true) (low : s.time.day < 65536) :
    s.time.day = 65535 ∧ s.tickStart.time.day = 0 := by
  obtain ⟨above, last⟩ := wraps_iff.mp wraps
  have day : s.time.day = 65535 := by omega
  rw [(tickStart_clock s).2.1, ((tick_nt s.time).2 above).2, day]
  exact ⟨rfl, rfl⟩

theorem wraps_of_day (last : s.time.day = 65535) (first : s.tickStart.time.day = 0) : s.time.wraps s.time.amount = true := by
  rw [wraps_iff]
  refine ⟨Nat.not_lt.mp fun below => ?_, by omega⟩
  rw [(tickStart_clock s).2.1, ((tick_nt s.time).1 below).2, last] at first
  exact nomatch first

/-- A tick raises the wrap's TIME_STEP while time is set. -/
theorem tickStart_wrap (wraps : s.time.wraps s.time.amount = true) (timeSet : s.time.disc ≠ .unset) : s.notified s.tickStart .timeStep := by
  have ticked : (s.setTime s.time.tick).enterHoldover.time.isSet = true := by
    rw [← (tickStart_frame s).2.2.2]
    exact isSet_iff.mpr ((tickStart_clock s).2.2.not.mpr timeSet)
  obtain ⟨-, -, grown⟩ := enterHoldover_frame (s.setTime s.time.tick)
  unfold State.tickStart
  dsimp only
  rw [wraps, ticked]
  exact notified_raise grown .timeStep (RecordUnit.grows_refl _)

/-- What the timetable engine leaves in a tick: the tables, and the selections of every group. -/
def State.timetabled (tables : Timetable) (time : TimeBase) (u : State) : Prop :=
  u.tables = tables ∧ u.time = time ∧ ∀ g, u.showsSelection g

theorem timetabled_of {tables : Timetable} {time : TimeBase} (frame : u.changesOnly v Block.engine) (shown : u.shownStands v)
    (h : State.timetabled tables time u) : State.timetabled tables time v := by
  have sameTables : v.tables = u.tables := frame.2.2 .tables (by decide)
  have sameTime : v.time = u.time := frame.2.2 .time (by decide)
  exact ⟨sameTables.trans h.1, sameTime.trans h.2.1, fun g => (showsSelection_congr sameTables sameTime (shown g)).mpr (h.2.2 g)⟩

/-- R112: the tables after a tick that raises a minute event or a day event while time is set. -/
theorem tick_timetabled (s : State) (order : List TickEvent) (timeSet : s.time.disc ≠ .unset) (minute : ¬s.sameMinute) :
    State.timetabled (if s.time.wraps s.time.amount then s.tables.stepExpire s.tickStart.time.ref
      else s.tables.expire s.tickStart.time.day s.tickStart.time.minute) s.tickStart.time (s.tick order) := by
  have start : s.tickStart.time.disc ≠ .unset := (tickStart_clock s).2.2.not.mpr timeSet
  rw [tick_eq]
  refine takeEvents_once (P := fun u => s.tickStart.changesOnly u Block.engine) (Q := State.timetabled _ _)
    (count_tick rfl (mem_tickEvents.mpr minute) order) (fun _ _ _ other h => tickEvent_frame other h) (fun u h => ?_)
    (fun u _ _ other h => timetabled_of (tickEvent_frame other changesOnly_refl) (shownStands_tickEvent other u) h)
    (fun _ v h => arrive_frame v h) (fun u v h => timetabled_of (arrive_frame v changesOnly_refl) (shownStands_arrive v u) h)
    _ _ changesOnly_refl
  have time : u.time = s.tickStart.time := h.2.2 .time (by decide)
  have tables : u.tables = s.tables := (h.2.2 .tables (by decide)).trans ((tickStart_frame s).1.2.2 .tables (by decide))
  have uSet : u.time.disc ≠ .unset := time.symm ▸ start
  have clock : ∀ x : State, u.changesOnly x (.tables :: Block.engine) → x.time = s.tickStart.time := fun x frame =>
    (frame.2.2 .time (by decide)).trans time
  change State.timetabled _ _ (if s.time.wraps s.time.amount then u.timetableStep else u.timetableMinute u.time.day u.time.minute)
  split
  · obtain ⟨left, shows⟩ := timetableStep_leaves uSet
    exact ⟨by rw [left, tables, time], clock _ (changesOnly_timetableStep (by simp) (by simp) changesOnly_refl), shows⟩
  · obtain ⟨left, shows⟩ := timetableMinute_leaves uSet
    exact ⟨by rw [left, tables, time], clock _ (changesOnly_timetableMinute _ _ (by simp) (by simp) changesOnly_refl), shows⟩

/-- A tick that raises no minute leaves the tables. -/
theorem tick_tables (s : State) (order : List TickEvent) (same : s.sameMinute) : (s.tick order).tables = s.tables := by
  have kept : s.tickStart.changesOnly (s.tick order) Block.engine := by
    rw [tick_eq]
    refine takeEvents_keeps (P := fun u => s.tickStart.changesOnly u Block.engine) (fun u d mem h => tickEvent_frame ?_ h) (fun _ v h => arrive_frame v h) _ _ changesOnly_refl
    rintro rfl
    exact mem_tickEvents.mp ((mem_schedule rfl _ _).mp mem) same
  exact (kept.2.2 .tables (by decide)).trans ((tickStart_frame s).1.2.2 .tables (by decide))

theorem keepCue_get (tb : Timetable) (keep : ActiveCue → Bool) (g : Fin 16) :
    (tb.keepCue keep g).active.get g = (tb.active.get g).filter keep := Vector.getElem_set_self g.isLt

theorem keepCue_get_ne (tb : Timetable) (keep : ActiveCue → Bool) (ne : h ≠ g) : (tb.keepCue keep g).active.get h = tb.active.get h :=
  Vector.getElem_set_ne g.isLt h.isLt fun same => ne (Fin.ext same.symm)

/-- Settles O30: each condition at its own command, and the timetable engine's event among the others of a tick. -/
theorem conditionsActWhenTheyStand : Obligations.ConditionsActWhenTheyStand := by
  refine ⟨fun s running locked old => ?_, fun s id running timeSet => ?_, fun s g running timeSet => ?_,
    fun s g running timeSet => ?_, fun s order running => ?_⟩
  · obtain ⟨frame, notices, -⟩ := enterHoldover_frame s
    refine ⟨_, exec_of_event (f := State.enterHoldover) rfl running, ?_, ?_, notices, frame⟩
    · rw [enterHoldover_time, if_pos ⟨locked, old⟩]
    · have due : s.time.holdoverDue = true := by
        simp only [TimeBase.holdoverDue, Bool.and_eq_true, beq_iff_eq, decide_eq_true_eq]
        exact ⟨locked, old⟩
      unfold State.enterHoldover
      rw [if_pos due]
      exact notified_raise (t := s.setTime _) (RecordUnit.grows_refl _) .timeHoldover (RecordUnit.grows_refl _)
  · refine ⟨_, (exec_of_event (f := fun s => if s.time.isSet then
      s.setTables (s.tables.endEntry id.val s.time.day s.time.minute) else s) rfl running).trans
        (congrArg _ (if_pos (isSet_iff.mpr timeSet))), ?_, fun e => ?_, ?_⟩
    · rw [State.setTables_tables]
      rfl
    · rw [State.setTables_tables, Timetable.endEntry, List.mem_filter, Bool.not_eq_true', ← Bool.not_eq_true, Bool.and_eq_true,
        beq_iff_eq, pairLe_iff]
      rfl
    · exact changesOnly_setTables _ (by simp) changesOnly_refl
  · intro instant
    refine ⟨_, (exec_of_event (f := fun s => if s.time.isSet then
      s.setTables (s.tables.keepCue (·.inForce s.time.instant) g) else s) rfl running).trans
        (congrArg _ (if_pos (isSet_iff.mpr timeSet))), ?_, fun h ne => ?_, fun c held ended => ?_, fun c held stands => ?_, ?_⟩
    · rw [State.setTables_tables]
      rfl
    · rw [State.setTables_tables, keepCue_get_ne _ _ ne]
    · rw [State.setTables_tables, keepCue_get, held]
      exact if_neg fun stands => Nat.not_lt.mpr ended (ActiveCue.inForce_iff.mp stands)
    · rw [State.setTables_tables, keepCue_get, held, Option.filter_eq_some_iff, ActiveCue.inForce_iff]
      exact ⟨rfl, stands⟩
    · exact changesOnly_setTables _ (by simp) changesOnly_refl
  · intro instant
    refine ⟨_, (exec_of_event (f := fun s => if s.time.isSet then
      s.setTables (s.tables.keepDirect (·.inForce s.time.instant) g) else s) rfl running).trans
        (congrArg _ (if_pos (isSet_iff.mpr timeSet))), ?_, fun h ne => ?_, fun d e held ends ended => ?_, fun d held stands => ?_, ?_⟩
    · rw [State.setTables_tables]
      rfl
    · rw [State.setTables_tables, Timetable.keepDirect, setDirect_get_ne _ ne]
    · rw [State.setTables_tables, Timetable.keepDirect, setDirect_get, held]
      exact if_neg fun stands => Nat.not_lt.mpr ended (DirectSelection.inForce_iff.mp stands e ends)
    · rw [State.setTables_tables, Timetable.keepDirect, setDirect_get, held, Option.filter_eq_some_iff, DirectSelection.inForce_iff]
      exact ⟨rfl, stands⟩
    · exact changesOnly_setTables _ (by simp) changesOnly_refl
  · refine ⟨s.tick order, exec_of_event (f := fun s => s.tick order) rfl running, tick_tables s order,
      fun timeSet minute low notLast => ?_, fun timeSet minute last first => ?_⟩
    · rw [tick_time] at notLast
      have no : ¬s.time.wraps s.time.amount = true := fun wraps => by
        obtain ⟨last, first⟩ := wraps_day wraps low
        omega
      have left := tick_timetabled s order timeSet minute
      rw [if_neg no] at left
      obtain ⟨tables, time, shows⟩ := left
      obtain ⟨frame, cues, directs⟩ := expire_spec s.tables s.tickStart.time.day s.tickStart.time.minute
      rw [time, tables]
      exact ⟨frame, cues, directs, shows⟩
    · rw [tick_time] at first
      have left := tick_timetabled s order timeSet minute
      rw [if_pos (wraps_of_day last first)] at left
      obtain ⟨tables, time, shows⟩ := left
      obtain ⟨frame, cues, directs⟩ := stepExpire_spec s.tables s.tickStart.time.ref
      have ref : s.tickStart.time.ref = s.tickStart.time.nt := by
        simp only [TimeBase.ref, first, Nat.zero_mul, Nat.zero_add]
      rw [ref] at frame cues directs tables
      rw [time, tables]
      exact ⟨notified_of_grows (tickStart_wrap (wraps_of_day last first) timeSet) (tick_grows s order), frame, cues, directs, shows⟩

/-! ### Exchanges (R121 to R123, R129, R130) -/

/-- A port set to what it holds. -/
theorem setPort_self (s : State) (p : Fin 4) : s.setPort p (s.port p) = s := by
  have same : s.ports.set p.val (s.port p) p.isLt = s.ports := Vector.set_getElem_self p.isLt
  rw [State.setPort, same]

/-- R122: the last byte of a frame has gone out, or nothing is being sent. -/
theorem transmitEnd_of_quiet {q : Port} (quiet : q.directionAsserted = false) (line : LineCondition) : q.transmitEnd line = q := by
  unfold Port.transmitEnd
  unfold Port.directionAsserted at quiet
  split
  next x held =>
    rw [held] at quiet
    exact if_neg (by simpa using quiet)
  next => rfl

theorem transmitEnd_of_sending {q : Port} {x : Exchange} (held : q.exchange = some x) (sending : x.phase = .sending) (line : LineCondition) :
    q.transmitEnd line = { q with exchange := some { x with phase := .window, elapsed := 0 }, blockedTimer := 0, line := line, wire := [] } := by
  unfold Port.transmitEnd
  rw [held]
  exact if_pos sending

/-- What a tick raises when nothing runs and the minute stands: the scrubber's visit alone. -/
theorem tickEvents_quiet (idle : ∀ i, (s.slot i).run = none) (same : s.sameMinute) : s.tickStart.tickEvents s.time = [.scrub] := by
  have none : s.runningSlots = [] := List.eq_nil_iff_forall_not_mem.mpr fun i mem => by
    have running := mem_runningSlots.mp mem
    rw [idle i] at running
    exact nomatch running
  have minute : minuteRaised s.time s.tickStart.time = false := by
    rw [← Bool.not_eq_true, minuteRaised_iff, not_not]
    exact same
  unfold State.tickEvents
  rw [tickStart_running, none, minute, not_wraps_of_sameMinute same]
  rfl

/-- A tick that names a line report alone, when nothing else happens. -/
theorem tick_lineSeen (idle : ∀ i, (s.slot i).run = none) (same : s.sameMinute) (off : s.store.scrubOn = false) :
    s.tick [.lineSeen p line] = s.tickStart.setPort p ((s.port p).lineSeen line) := by
  have port : s.tickStart.port p = s.port p := port_congr ((tickStart_frame s).1.2.2 .ports (by decide)) p
  have store : s.tickStart.store = s.store := (tickStart_frame s).1.2.2 .store (by decide)
  have taken : s.tick [.lineSeen p line] = (s.tickStart.setPort p ((s.tickStart.port p).lineSeen line)).scrubVisit := by
    rw [tick_eq, tickEvents_quiet idle same]
    rfl
  rw [taken, port]
  exact scrubVisit_of_off ((congrArg PlanStore.scrubOn store).trans off)

/-- Settles O41: the head frame, the window, and a line report. -/
theorem exchangesRun : Obligations.ExchangesRun := by
  refine ⟨fun s p running => ⟨fun waits => ?_, fun idle e rest queued => ?_⟩, fun s p line running => ⟨fun quiet => ?_, fun x held sending => ?_⟩,
    fun s p line running same off idle => ?_⟩
  · refine exec_of_idle (f := fun s => if (s.port p).state = .idle ∧ (s.port p).queue ≠ [] then
      s.setPort p ({ s.port p with line := .idle, blockedTimer := 0 } : Port).startIfReady else s) rfl running (if_neg ?_)
    rintro ⟨idle, queued⟩
    exact waits.elim (absurd idle) (absurd · queued)
  · have ready : (s.port p).state = .idle ∧ (s.port p).queue ≠ [] := ⟨idle, by simp [queued]⟩
    have sent := (sendsHead_startIfReady { s.port p with line := .idle, blockedTimer := 0 }).2 idle rfl e rest queued
    obtain ⟨port, others, frame⟩ := setPort_alone s p ({ s.port p with line := .idle, blockedTimer := 0 } : Port).startIfReady
    refine ⟨_, (exec_of_event (f := fun s => if (s.port p).state = .idle ∧ (s.port p).queue ≠ [] then
      s.setPort p ({ s.port p with line := .idle, blockedTimer := 0 } : Port).startIfReady else s) rfl running).trans
        (congrArg _ (if_pos ready)), ?_⟩
    have after := port.trans sent
    generalize s.setPort p _ = t at after others frame ⊢
    rw [after]
    exact ⟨rfl, rfl, rfl, rfl, ⟨_, rfl, rfl, rfl, rfl, rfl, rfl, rfl, rfl, rfl, rfl, rfl⟩, rfl, others, frame⟩
  · refine exec_of_idle (f := fun s => s.setPort p ((s.port p).transmitEnd line)) rfl running ?_
    rw [transmitEnd_of_quiet quiet, setPort_self]
  · obtain ⟨port, others, frame⟩ := setPort_alone s p ((s.port p).transmitEnd line)
    exact ⟨_, exec_of_event (f := fun s => s.setPort p ((s.port p).transmitEnd line)) rfl running,
      port.trans (transmitEnd_of_sending held sending line), others, frame⟩
  · refine ⟨_, exec_of_event (f := fun s => s.tick [.lineSeen p line]) rfl running, ?_⟩
    rw [tick_lineSeen idle same off]
    obtain ⟨port, others, frame⟩ := setPort_alone s.tickStart p ((s.port p).lineSeen line)
    have start := (tickStart_frame s).1
    have stood : ∀ q, s.tickStart.port q = s.port q := port_congr (start.2.2 .ports (by decide))
    refine ⟨fun sending => ?_, fun quiet => ⟨fun active => ?_, fun idle => ?_⟩, fun q ne => (others q ne).trans (stood q), ?_⟩
    · exact port.trans (if_pos sending)
    · subst active
      exact port.trans (if_neg (by simpa [Port.sending] using quiet))
    · subst idle
      have seen : (s.port p).lineSeen .idle = ({ s.port p with line := .idle, blockedTimer := 0 } : Port).startIfReady :=
        if_neg (by simpa [Port.sending] using quiet)
      rw [port, seen]
      exact sendsHead_startIfReady _
    · exact changesOnly_trans (changesOnly_mono start (by simp)) (changesOnly_setPort _ _ (by simp) changesOnly_refl)

end Sys2Proof.Machine
end

section
/-! PROOFS. A tick at the slots: positions and boundaries whatever the order, the default order, and a member event on its way (O5). -/

namespace Sys2Proof.Machine

variable {s t u v : State} {i j l : Fin 64} {g h : Fin 16} {e d : TickEvent} {es order pending : List TickEvent}
  {k : Nat} {w : Bool} {run : List (Fin 64)} {P Q : State → Prop}

/-! ### Where a slot stands in its cycle -/

/-- A slot's cycle count and its position. -/
def Slot.moment (x : Slot) : Nat × Option Nat := (x.count, x.run.map CycleRun.p)

theorem exitStep_moment (s : State) (i : Fin 64) : ((s.exitStep i).slot i).moment = (s.slot i).moment := by
  unfold State.exitStep
  dsimp only
  split
  · rw [raise_slot, State.setSlot_slot_same]
    split <;> rfl
  · rfl

theorem adoptionFailed_moment (s : State) (i : Fin 64) (k : Notice) : ((s.adoptionFailed i k).slot i).moment = (s.slot i).moment := by
  unfold State.adoptionFailed
  split
  · rfl
  · rw [raise_slot, State.setSlot_slot_same]
    rfl

theorem adoptTarget_moment (s : State) (i : Fin 64) : ((s.adoptTarget i).1.slot i).moment = (s.slot i).moment := by
  have slot := readRecord_slot s i (s.slot i).target i
  unfold State.adoptTarget
  dsimp only
  split
  · split <;> rename_i e <;> rw [e] at slot
    · rw [State.setSlot_slot_same]
      rfl
    · rw [adoptionFailed_moment, slot]
    · rw [adoptionFailed_moment, slot]
  · rfl

theorem shadowStep_moment (s : State) (i : Fin 64) (n : Nat) (a : Option EvalCause) :
    ((s.shadowStep i n a).1.slot i).moment = (s.slot i).moment := by
  unfold State.shadowStep
  dsimp only
  split
  · split
    · rfl
    · have slot : ((s.setStore (s.store.promote i n)).readRecord i n).1.slot i = s.slot i := readRecord_slot _ i n i
      split <;> rename_i e <;> rw [e] at slot
      · rw [State.setSlot_slot_same, ← slot]
        rfl
      · rw [raise_slot, slot]
      · rw [raise_slot, slot]
  · rfl

theorem planCycle_moment (s : State) (i : Fin 64) : ((s.planCycle i).slot i).moment = (s.slot i).moment := by
  unfold State.planCycle
  dsimp only
  split
  next r _ held =>
    rw [State.setSlot_slot_same, Slot.moment, Slot.moment, held]
    rfl
  next => rfl

theorem correctedRun_p (pl : Plan) (p e : Nat) (d : Direction) : (correctedRun pl p e d).p = p := by
  unfold correctedRun
  dsimp only
  split <;> rfl

theorem transitionCycle_moment {pl : Plan} {r : CycleRun} (e : Nat) (tr : Transition) (d : Direction) (held : (s.slot i).run = some r) :
    ((s.transitionCycle i pl r.p e tr d).slot i).moment = (s.slot i).moment := by
  rw [transitionCycle_slot, Slot.moment, Slot.moment, held]
  simp only [Option.map_some, correctedRun_p]

theorem evaluateCause_moment (s : State) (i : Fin 64) (c : EvalCause) : ((s.evaluateCause i c).slot i).moment = (s.slot i).moment := by
  unfold State.evaluateCause
  dsimp only
  split
  next held =>
    split
    · rw [planCycle_moment]
      split <;> rfl
    · exact transitionCycle_moment _ _ _ held
  next => rfl

theorem evaluateCoordinated_moment (s : State) (i : Fin 64) (a : Option EvalCause) (b : Bool) :
    ((s.evaluateCoordinated i a b).slot i).moment = (s.slot i).moment := by
  unfold State.evaluateCoordinated
  dsimp only
  split
  · rw [planCycle_moment, State.setSlot_slot_same]
    rfl
  · rw [evaluateCause_moment, State.setSlot_slot_same]
    rfl

theorem evaluationStep_moment (s : State) (i : Fin 64) (a : Option EvalCause) (b : Bool) :
    ((s.evaluationStep i a b).slot i).moment = (s.slot i).moment := by
  unfold State.evaluationStep
  split
  · exact evaluateCoordinated_moment s i a b
  · unfold State.evaluateTransition
    dsimp only
    split
    · rw [evaluateCoordinated_moment, State.setSlot_slot_same, endTransition_slot]
      rfl
    · split
      next held _ =>
        split
        · rw [planCycle_moment, State.setSlot_slot_same, endTransition_slot]
          rfl
        · exact transitionCycle_moment _ _ _ held
      next => rfl
  · unfold State.evaluateJoining
    dsimp only
    split
    next held =>
      split
      · rw [State.setSlot_slot_same, Slot.moment, Slot.moment, held]
        simp only [Option.map_some, correctedRun_p]
      · exact planCycle_moment s i
    next => rfl
  · rw [planCycle_moment, State.setSlot_slot_same]
    rfl
  · exact planCycle_moment s i
  · rfl

/-- R20: the position and the count of a boundary stand through its later steps. -/
theorem boundarySteps_moment (s : State) (i : Fin 64) (p : Nat) :
    ((s.boundarySteps i p).slot i).moment = ((s.slot i).beginCycle p).moment := by
  have steps : s.boundarySteps i p = (((s.setSlot i ((s.slot i).beginCycle p)).exitStep i).adoptionStep i).1.stepAndEvaluate i
      (((s.setSlot i ((s.slot i).beginCycle p)).exitStep i).adoptionStep i).2 := rfl
  rw [steps]
  generalize ha : ((s.setSlot i ((s.slot i).beginCycle p)).exitStep i).adoptionStep i = a
  rw [State.stepAndEvaluate, evaluationStep_moment, State.setSlot_slot_same]
  change (a.1.slot i).moment = _
  rw [← ha, State.adoptionStep, shadowStep_moment, adoptTarget_moment, exitStep_moment, State.setSlot_slot_same]

theorem miss_moment (s : State) (i : Fin 64) (k : MissKind) : ((s.miss i k).1.slot i).moment = (s.slot i).moment := by
  have counted : ∀ x : Slot, (x.countMiss k).moment = x.moment := fun x => by cases k <;> rfl
  rcases miss_cases s i k with ⟨-, e⟩ | ⟨-, -, e⟩ | ⟨-, -, e⟩ <;> rw [e]
  · rw [State.setSlot_slot_same, counted]
  · rw [State.setSlot_slot_same]
    exact counted _
  · rw [enterLost_slot, State.setSlot_slot_same]
    exact counted _

theorem handOverStep_moment (s : State) (i : Fin 64) : ((s.handOverStep i).1.slot i).moment = (s.slot i).moment := by
  unfold State.handOverStep
  dsimp only
  split
  · rfl
  · exact miss_moment (s.setPort _ _) i _

/-! ### An advance at one slot (R19, R20) -/

theorem advanceSlot_short {r : CycleRun} (held : (s.slot i).run = some r) (short : r.p + k < r.len) :
    s.advanceSlot i k = (s.setSlot i { s.slot i with run := some { r with p := r.p + k } }, []) := by
  rw [State.advanceSlot, held]
  exact if_pos short

theorem advanceSlot_boundary {r : CycleRun} (held : (s.slot i).run = some r) (long : r.len ≤ r.p + k) :
    s.advanceSlot i k = s.boundary i (r.p + k - r.len) := by
  rw [State.advanceSlot, held]
  exact if_neg (Nat.not_lt.mpr long)

theorem boundary_moment {r : CycleRun} (held : (s.slot i).run = some r) (p : Nat) :
    ((s.boundary i p).1.slot i).moment = (((s.slot i).count + 1) % 256, some p) := by
  rw [boundary_fst, handOverStep_moment, boundarySteps_moment, Slot.beginCycle, Slot.moment, held]
  rfl

/-- A boundary from what its steps 1 to 5 leave: the change told, and the hand-over. -/
theorem boundary_sends {p : Nat} (steps : s.boundarySteps i p = u) : (s.boundary i p).1 = (u.handOverStep i).1 ∧
    (¬((u.slot i).state ≠ (s.slot i).state ∨ (u.slot i).current ≠ (s.slot i).current) → (s.boundary i p).2 = (u.handOverStep i).2) ∧
    ((u.slot i).state ≠ (s.slot i).state ∨ (u.slot i).current ≠ (s.slot i).current →
      (s.boundary i p).2 = ⟨i, (u.slot i).state, (u.slot i).current, none⟩ :: (u.handOverStep i).2) := by
  rw [boundary_fst, boundary_snd, steps]
  refine ⟨rfl, fun stood => ?_, fun changed => ?_⟩
  · rw [changeEvents, if_neg stood, List.nil_append]
  · rw [changeEvents, if_pos changed]
    rfl

/-- What a tick makes of a slot that runs. -/
def Slot.moved (x y : Slot) (r : CycleRun) (k : Nat) : Prop :=
  (r.p + k < r.len → y.run = some { r with p := r.p + k } ∧ y.count = x.count) ∧
  (r.len ≤ r.p + k → y.count = (x.count + 1) % 256 ∧ ∃ r', y.run = some r' ∧ r'.p = r.p + k - r.len)

/-- What rides through the events beside a slot's own advance. -/
theorem Slot.moved_congr {x y z : Slot} {r : CycleRun} (moved : x.moved y r k) (run : z.run = y.run) (count : z.count = y.count) :
    x.moved z r k := by
  unfold Slot.moved
  rw [run, count]
  exact moved

theorem advanceSlot_moved {r : CycleRun} (held : (s.slot i).run = some r) (k : Nat) :
    (s.slot i).moved ((s.advanceSlot i k).1.slot i) r k := by
  refine ⟨fun short => ?_, fun long => ?_⟩
  · rw [advanceSlot_short held short, State.setSlot_slot_same]
    exact ⟨rfl, rfl⟩
  · rw [advanceSlot_boundary held long]
    have moment := boundary_moment held (r.p + k - r.len)
    obtain ⟨count, position⟩ := Prod.mk.inj moment
    obtain ⟨r', run, p⟩ := Option.map_eq_some_iff.mp position
    exact ⟨count, r', run, p⟩

/-! ### A running slot through a tick -/

theorem timetableStep_ride {x : Option CycleRun × Nat × Bool} (running : x.1.isSome = true) (h : (s.slot j).ride = x) :
    (s.timetableStep.slot j).ride = x := by
  unfold State.timetableStep
  split
  · generalize s.tables.stepExpire s.time.ref = tb
    exact evaluateNow_ride (s := s.setTables tb) running _ h
  · exact h

theorem timetableMinute_ride {x : Option CycleRun × Nat × Bool} (running : x.1.isSome = true) (day minute : Nat)
    (h : (s.slot j).ride = x) : ((s.timetableMinute day minute).slot j).ride = x := by
  unfold State.timetableMinute
  split
  · generalize s.tables.expire day minute = tb
    exact evaluateGroups_ride (s := s.setTables tb) running _ _ _ h
  · exact h


/-- Slot `i` runs at `x` with count `c`; its step flag is left open. -/
def State.ridesAt (i : Fin 64) (x : CycleRun) (c : Nat) (t : State) : Prop := ∃ flag, (t.slot i).ride = (some x, c, flag)

theorem ridesAt_iff {x : CycleRun} {c : Nat} : State.ridesAt i x c t ↔ (t.slot i).run = some x ∧ (t.slot i).count = c := by
  unfold State.ridesAt Slot.ride
  simp

theorem ridesAt_arrive {x : CycleRun} {c : Nat} (v : OnWay) (h : State.ridesAt i x c t) : State.ridesAt i x c (t.arrive v) := by
  obtain ⟨flag, ride⟩ := h
  exact ⟨flag, (groupClosed_ride i _).arrive v ride⟩

theorem ridesAt_tickEvent {x : CycleRun} {c : Nat} (other : e ≠ .slot i) (h : State.ridesAt i x c t) :
    State.ridesAt i x c (t.tickEvent k w run e).1 := by
  obtain ⟨flag, ride⟩ := h
  cases e with
  | slot j =>
    have ne : i ≠ j := fun same => other (congrArg _ same.symm)
    exact ⟨flag, (congrArg Slot.ride ((slotClosed_other (x := t.slot i) ne).advanceSlot k rfl)).trans ride⟩
  | scrub =>
    have frame : t.changesOnly t.scrubVisit [.store, .records] := changesOnly_scrubVisit (by simp) (by simp) changesOnly_refl
    exact ⟨flag, (congrArg Slot.ride (slot_congr (frame.2.2 .slots (by decide)) i)).trans ride⟩
  | stepFlags =>
    refine ridesAt_iff.mpr ?_
    obtain ⟨run', count⟩ := ridesAt_iff.mp ⟨flag, ride⟩
    change ((t.setStepFlags run).slot i).run = _ ∧ ((t.setStepFlags run).slot i).count = _
    rw [setStepFlags_slot]
    split <;> exact ⟨run', count⟩
  | groupMinute g => exact ⟨flag, (groupClosed_ride i _).groupMinute g ride⟩
  | timetable =>
    refine ⟨flag, ?_⟩
    unfold State.tickEvent
    dsimp only
    split
    · exact timetableStep_ride rfl ride
    · exact timetableMinute_ride rfl _ _ ride
  | lineSeen p l => exact ⟨flag, ride⟩
  | memberArrives j => exact ⟨flag, ride⟩
  | forcedArrives j => exact ⟨flag, ride⟩

/-- R19: a running slot moves by the amount, whatever the order of the events. -/
theorem tick_moves {r : CycleRun} (held : (s.slot i).run = some r) (order : List TickEvent) :
    (s.slot i).moved ((s.tick order).slot i) r s.time.amount := by
  have raised : (schedule order (s.tickStart.tickEvents s.time)).count (.slot i) = 1 :=
    count_tick rfl (mem_tickEvents.mpr (by simp [held])) order
  have start : State.ridesAt i r (s.slot i).count s.tickStart := ridesAt_iff.mpr (by rw [tickStart_slot]; exact ⟨held, rfl⟩)
  suffices ∃ x c, (s.slot i).moved { s.slot i with run := some x, count := c } r s.time.amount ∧ State.ridesAt i x c (s.tick order) by
    obtain ⟨x, c, moved, rides⟩ := this
    obtain ⟨run, count⟩ := ridesAt_iff.mp rides
    exact Slot.moved_congr moved run count
  rw [tick_eq]
  refine takeEvents_once (P := State.ridesAt i r (s.slot i).count) (Q := fun u => ∃ x c,
      (s.slot i).moved { s.slot i with run := some x, count := c } r s.time.amount ∧ State.ridesAt i x c u) raised
    (fun _ _ _ other h => ridesAt_tickEvent other h) (fun u h => ?_)
    (fun _ _ _ other ⟨x, c, moved, h⟩ => ⟨x, c, moved, ridesAt_tickEvent other h⟩) (fun _ v h => ridesAt_arrive v h)
    (fun _ v ⟨x, c, moved, h⟩ => ⟨x, c, moved, ridesAt_arrive v h⟩) _ _ start
  obtain ⟨run, count⟩ := ridesAt_iff.mp h
  obtain ⟨below, above⟩ := advanceSlot_moved run s.time.amount
  change ∃ x c, _ ∧ State.ridesAt i x c (u.advanceSlot i s.time.amount).1
  rw [count] at below above
  rcases Nat.lt_or_ge (r.p + s.time.amount) r.len with short | long
  · obtain ⟨moved, same⟩ := below short
    exact ⟨_, _, ⟨fun _ => ⟨rfl, rfl⟩, fun long => absurd short (Nat.not_lt.mpr long)⟩, ridesAt_iff.mpr ⟨moved, same⟩⟩
  · obtain ⟨same, r', moved, p⟩ := above long
    exact ⟨_, _, ⟨fun short => absurd short (Nat.not_lt.mpr long), fun _ => ⟨rfl, r', rfl, p⟩⟩, ridesAt_iff.mpr ⟨moved, same⟩⟩

/-! ### The order of a tick -/

/-- Events that are awaited by no arrival arrive with the event that sends them. -/
theorem takeEvents_slots (is : List (Fin 64)) (k : Nat) (w : Bool) (run : List (Fin 64)) (rest : List TickEvent)
    (quiet : ∀ j, TickEvent.memberArrives j ∉ rest) : ∀ s : State, s.takeEvents k w run (is.map .slot ++ rest) .none =
      (is.foldl (fun v i => (v.advanceSlot i k).deliver) s).takeEvents k w run rest .none := by
  induction is with
  | nil => exact fun _ => rfl
  | cons i is ih =>
    intro s
    have absent : ∀ e : MemberEvent, TickEvent.memberArrives e.slot ∉ is.map TickEvent.slot ++ rest := fun e mem => by
      rcases List.mem_append.mp mem with mem | mem
      · simp at mem
      · exact quiet _ mem
    have sent : (OnWay.and .none ⟨(s.advanceSlot i k).2, []⟩) = ⟨(s.advanceSlot i k).2, []⟩ := rfl
    have now : OnWay.now ⟨(s.advanceSlot i k).2, []⟩ (is.map TickEvent.slot ++ rest) = ⟨(s.advanceSlot i k).2, []⟩ := by
      simp [OnWay.now, absent]
    have later : OnWay.later ⟨(s.advanceSlot i k).2, []⟩ (is.map TickEvent.slot ++ rest) = .none := by
      simp [OnWay.later, OnWay.none, absent]
    rw [List.map_cons, List.cons_append, State.takeEvents]
    dsimp only [State.tickEvent]
    rw [sent, now, later, ih]
    rfl

/-- What a tick that raises no minute raises. -/
theorem tickEvents_of_sameMinute (same : s.sameMinute) : s.tickStart.tickEvents s.time = s.runningSlots.map .slot ++ [.scrub] := by
  have minute : minuteRaised s.time s.tickStart.time = false := by
    rw [← Bool.not_eq_true, minuteRaised_iff, not_not]
    exact same
  unfold State.tickEvents
  rw [tickStart_running, minute, not_wraps_of_sameMinute same]
  simp

theorem tickStart_of_sameMinute (same : s.sameMinute) : s.tickStart = (s.setTime s.time.tick).enterHoldover :=
  tickStart_of_not_wraps (not_wraps_of_sameMinute same)

/-- What is left of the raised events of two running slots when the order has named both. -/
theorem erase_two (running : ∀ l, (s.slot l).run.isSome ↔ l = i ∨ l = j) :
    ((s.runningSlots.map TickEvent.slot ++ [TickEvent.scrub]).erase (.slot i)).erase (.slot j) = [TickEvent.scrub] := by
  have slots : (s.runningSlots.map TickEvent.slot).Nodup :=
    (List.nodup_map_iff fun a b h => TickEvent.slot.inj h).mpr ((List.nodup_finRange 64).filter _)
  have distinct : (s.runningSlots.map TickEvent.slot ++ [TickEvent.scrub]).Nodup :=
    List.nodup_append.mpr ⟨slots, by simp, by simp⟩
  refine List.perm_singleton.mp ((List.perm_ext_iff_of_nodup ((distinct.erase _).erase _) (by simp)).mpr fun e => ?_)
  rw [(distinct.erase _).mem_erase_iff, distinct.mem_erase_iff, List.mem_append, List.mem_map]
  simp only [mem_runningSlots, running]
  cases e <;> simp
  grind

/-- One event, and what arrives with it. -/
theorem takeEvents_cons {m v now later : OnWay} (taken : s.tickEvent k w run e = (t, m)) (hn : (v.and m).now es = now)
    (hl : (v.and m).later es = later) : s.takeEvents k w run (e :: es) v = (t.arrive now).takeEvents k w run es later := by
  rw [State.takeEvents, taken, hn, hl]

/-- The member events of one slot arrive together. -/
theorem filter_of_slot {ms : List MemberEvent} (own : ∀ e ∈ ms, e.slot = i) (es : List TickEvent) :
    (ms.filter fun e => decide (.memberArrives e.slot ∉ es)) = (if .memberArrives i ∈ es then [] else ms) ∧
    (ms.filter fun e => decide (.memberArrives e.slot ∈ es)) = if .memberArrives i ∈ es then ms else [] := by
  constructor
  · split
    next awaited => exact List.filter_eq_nil_iff.mpr fun e mem => by simpa [own e mem] using awaited
    next not => exact List.filter_eq_self.mpr fun e mem => by simpa [own e mem] using not
  · split
    next awaited => exact List.filter_eq_self.mpr fun e mem => by simpa [own e mem] using awaited
    next not => exact List.filter_eq_nil_iff.mpr fun e mem => by simpa [own e mem] using not

/-- R88: a member event whose arrival is named behind another slot's boundary. -/
theorem tick_memberArrives (same : s.sameMinute) (ne : i ≠ j) (running : ∀ l, (s.slot l).run.isSome ↔ l = i ∨ l = j) :
    s.tick [.slot i, .slot j, .memberArrives i] =
      (((s.tickStart.advanceSlot i s.time.amount).1.advanceSlot j s.time.amount).deliver.takeMembers
        (s.tickStart.advanceSlot i s.time.amount).2).scrubVisit := by
  have raised : ∀ l, l = i ∨ l = j → TickEvent.slot l ∈ s.tickStart.tickEvents s.time := fun l hl =>
    mem_tickEvents.mpr ((running l).mpr hl)
  have second : TickEvent.slot j ∈ (s.tickStart.tickEvents s.time).erase (.slot i) :=
    (List.mem_erase_of_ne (by simpa using Ne.symm ne)).mpr (raised j (.inr rfl))
  have order : schedule [.slot i, .slot j, .memberArrives i] (s.tickStart.tickEvents s.time) =
      [.slot i, .slot j, .memberArrives i, .scrub] := by
    simp only [schedule, TickEvent.raised, Bool.not_true, Bool.not_false, Bool.false_eq_true, if_false, if_true, raised i (.inl rfl), second]
    rw [tickEvents_of_sameMinute same, erase_two running]
  rw [tick_eq, order]
  generalize s.tickStart = u
  generalize s.time.amount = k
  have first : ∀ e ∈ (u.advanceSlot i k).2, e.slot = i := fun e mem => (advanceSlot_events_slot mem).1
  generalize hf : u.advanceSlot i k = f
  rw [hf] at first
  have own : ∀ e ∈ (f.1.advanceSlot j k).2, e.slot = j := fun e mem => (advanceSlot_events_slot mem).1
  generalize hb : f.1.advanceSlot j k = b
  rw [hb] at own
  have waits : ∀ es, .memberArrives i ∈ es → (OnWay.mk f.2 []).now es = .none ∧ (OnWay.mk f.2 []).later es = ⟨f.2, []⟩ := fun es mem => by
    simp only [OnWay.now, OnWay.later, filter_of_slot first, List.filter_nil, if_pos mem]
    exact ⟨rfl, trivial⟩
  have comes : ∀ es, .memberArrives i ∉ es → (OnWay.mk f.2 []).now es = ⟨f.2, []⟩ ∧ (OnWay.mk f.2 []).later es = .none := fun es not => by
    simp only [OnWay.now, OnWay.later, filter_of_slot first, List.filter_nil, if_neg not]
    exact ⟨trivial, rfl⟩
  have sent : (OnWay.mk f.2 []).and .none = ⟨f.2, []⟩ := by simp [OnWay.and, OnWay.none]
  have both : (OnWay.mk (f.2 ++ b.2) []).now [.memberArrives i, .scrub] = ⟨b.2, []⟩ ∧
      (OnWay.mk (f.2 ++ b.2) []).later [.memberArrives i, .scrub] = ⟨f.2, []⟩ := by
    simp only [OnWay.now, OnWay.later, List.filter_append, filter_of_slot first, filter_of_slot own, List.filter_nil]
    simp [Ne.symm ne]
  have firstTaken : ∀ w run, u.tickEvent k w run (.slot i) = (f.1, ⟨f.2, []⟩) := fun _ _ => by rw [← hf]; rfl
  have secondTaken : ∀ w run, f.1.tickEvent k w run (.slot j) = (b.1, ⟨b.2, []⟩) := fun _ _ => by rw [← hb]; rfl
  obtain ⟨now1, later1⟩ := waits [.slot j, .memberArrives i, .scrub] (by simp)
  obtain ⟨now3, later3⟩ := comes [.scrub] (by simp)
  have turn1 := takeEvents_cons (v := .none) (firstTaken (s.time.wraps k) u.runningSlots) now1 later1
  have turn2 := takeEvents_cons (v := ⟨f.2, []⟩) (secondTaken (s.time.wraps k) u.runningSlots) both.1 both.2
  have turn3 := takeEvents_cons (s := b.deliver) (t := b.deliver) (m := .none) (k := k) (w := s.time.wraps k) (run := u.runningSlots)
    (e := .memberArrives i) rfl ((congrArg (OnWay.now · _) sent).trans now3)
    ((congrArg (OnWay.later · _) sent).trans later3)
  exact turn1.trans (turn2.trans (turn3.trans rfl))

/-! ### The frame of a new cycle (R27) and its hand-over (R28, R119) -/

theorem decideFrame_sync {x : Slot} {pl : Plan} {r : CycleRun} (copy : x.copy = some pl) (held : x.run = some r)
    (first transition resync : Bool) : x.sync first transition resync = FieldFrame.sync x.drop x.intersection x.current x.count r.len
      first transition resync pl.coord ((List.range r.splits.length).map fun j => (r.splits.take (j + 1)).sum) := by
  rw [Slot.sync, copy, held, ← forceOffPoints_eq]
  rfl

theorem finding_of_queued {q : Port} (queued : ∃ e ∈ q.queue, e.slot = i) : q.finding i = .queued := by
  unfold Port.finding
  exact if_pos (by simpa using queued)

theorem finding_of_not_queued {q : Port} (absent : ¬∃ e ∈ q.queue, e.slot = i) :
    q.finding i = if (q.exchange.any fun x => x.slot == i && !x.detached) then .inFlight else .gone := by
  unfold Port.finding
  exact if_neg (by simpa using absent)

theorem inFlight_iff {q : Port} :
    (q.exchange.any fun x => x.slot == i && !x.detached) = true ↔ ∃ y, q.exchange = some y ∧ y.slot = i ∧ y.detached = false := by
  cases q.exchange <;> simp

theorem handOver_gone {q : Port} (found : q.finding i = .gone) : (q.handOver i none).1 = q ∧
    ∀ f, (q.handOver i (some f)).1 = ({ q with queue := q.queue ++ [⟨i, f⟩] } : Port).startIfReady := by
  unfold Port.handOver
  simp only [found, implies_true, and_self]

theorem handOver_queued {q : Port} (found : q.finding i = .queued) : (q.handOver i none).1 = q.removeEntry i ∧
    ∀ f, (q.handOver i (some f)).1 = { q with queue := q.queue.map fun e => if e.slot = i then ⟨i, f⟩ else e } := by
  unfold Port.handOver
  rw [found]
  simp only [beq_iff_eq, implies_true, and_self]

theorem handOver_inFlight {q : Port} (found : q.finding i = .inFlight) (frame : Option FieldFrame) : (q.handOver i frame).1 = q := by
  unfold Port.handOver
  rw [found]

theorem removeEntry_queue (q : Port) (i : Fin 64) : q.removeEntry i = { q with queue := q.queue.filter fun e => e.slot ≠ i } := by
  unfold Port.removeEntry
  simp only [ne_eq, decide_not]
  rfl

/-- R28, R119: a hand-over that finds the previous frame gone. -/
theorem handOverStep_gone (s : State) (i : Fin 64) (gone : (s.port (s.slot i).port).finding i = .gone) :
    s.handOverStep i = (s.setPort (s.slot i).port ((s.port (s.slot i).port).handOver i (s.slot i).decideFrame).1, []) := by
  have result : ((s.port (s.slot i).port).handOver i (s.slot i).decideFrame).2 = .gone := by
    unfold Port.handOver
    rw [gone]
    cases (s.slot i).decideFrame <;> rfl
  unfold State.handOverStep
  exact if_pos result

/-- R28, R119: a hand-over that finds it queued or in flight is a late sync. -/
theorem handOverStep_late (s : State) (i : Fin 64) (late : (s.port (s.slot i).port).finding i ≠ .gone) :
    s.handOverStep i =
      (s.setPort (s.slot i).port ((s.port (s.slot i).port).handOver i (s.slot i).decideFrame).1).miss i .lateSync := by
  have result : ((s.port (s.slot i).port).handOver i (s.slot i).decideFrame).2 ≠ .gone := by
    unfold Port.handOver
    cases found : (s.port (s.slot i).port).finding i
    · exact absurd found late
    · cases (s.slot i).decideFrame <;> nofun
    · cases (s.slot i).decideFrame <;> nofun
  unfold State.handOverStep
  exact if_neg result

theorem miss_ports (s : State) (i : Fin 64) (k : MissKind) : s.otherSlotsStand (s.miss i k).1 i ∧
    s.changesOnly (s.miss i k).1 [.slots, .records] := by
  refine ⟨fun j ne => (slotClosed_other (x := s.slot j) ne).miss k rfl, ?_⟩
  rcases miss_cases s i k with ⟨-, e⟩ | ⟨-, -, e⟩ | ⟨-, -, e⟩ <;> rw [e]
  · exact changesOnly_setSlot _ _ (by simp) changesOnly_refl
  · exact changesOnly_setSlot _ _ (by simp) changesOnly_refl
  · have first : s.changesOnly (s.setSlot i ((s.slot i).takeMiss k)) [.slots, .records] := changesOnly_setSlot _ _ (by simp) changesOnly_refl
    exact changesOnly_raise _ (by simp) (changesOnly_setSlot _ _ (by simp) (changesOnly_trans first (endTransition_frame _ _ _)))

/-- The member event of a miss: entry to LOST. -/
theorem miss_events (s : State) (i : Fin 64) (k : MissKind) :
    (s.miss i k).2 = if ((s.miss i k).1.slot i).state = (s.slot i).state then [] else [⟨i, .lost, (s.slot i).current, none⟩] := by
  rcases miss_cases s i k with ⟨-, e⟩ | ⟨-, -, e⟩ | ⟨counts, -, e⟩ <;> rw [e]
  · rw [State.setSlot_slot_same, if_pos ((s.slot i).countMiss_leaves k).2.2.2.2.1]
  · rw [State.setSlot_slot_same, if_pos ((s.slot i).takeMiss_leaves k).2.2.2.2.1]
  · rw [enterLost_slot, enterLost_events, State.setSlot_slot_same, if_neg ?_, ((s.slot i).takeMiss_leaves k).2.1]
    · rfl
    · intro same
      rcases counts with state | state <;> exact nomatch same.trans state

/-- R28, R119: the hand-over of a slot's frame, by what is left of the previous one. -/
theorem handOverStep_spec (s : State) (i : Fin 64) :
    s.otherPortsStand (s.handOverStep i).1 (s.slot i).port ∧ s.otherSlotsStand (s.handOverStep i).1 i ∧
    ((s.port (s.slot i).port).finding i = .gone → (s.handOverStep i).2 = [] ∧ s.changesOnly (s.handOverStep i).1 [.ports]) ∧
    ((s.port (s.slot i).port).finding i ≠ .gone → s.missed (s.handOverStep i).1 i .lateSync ∧
      s.changesOnly (s.handOverStep i).1 [.slots, .ports, .records] ∧
      (s.handOverStep i).2 = if ((s.handOverStep i).1.slot i).state = (s.slot i).state then [] else
        [⟨i, .lost, (s.slot i).current, none⟩]) ∧
    (s.handOverStep i).1.port (s.slot i).port = ((s.port (s.slot i).port).handOver i (s.slot i).decideFrame).1 := by
  obtain ⟨own, others, frame⟩ := setPort_alone s (s.slot i).port ((s.port (s.slot i).port).handOver i (s.slot i).decideFrame).1
  by_cases gone : (s.port (s.slot i).port).finding i = .gone
  · rw [handOverStep_gone s i gone]
    exact ⟨others, fun _ _ => rfl, fun _ => ⟨rfl, frame⟩, fun late => absurd gone late, own⟩
  · rw [handOverStep_late s i gone]
    have missed := missed_of_miss (s.setPort (s.slot i).port ((s.port (s.slot i).port).handOver i (s.slot i).decideFrame).1) i .lateSync
    obtain ⟨slots, leaves⟩ := miss_ports (s.setPort (s.slot i).port ((s.port (s.slot i).port).handOver i (s.slot i).decideFrame).1) i .lateSync
    have events := miss_events (s.setPort (s.slot i).port ((s.port (s.slot i).port).handOver i (s.slot i).decideFrame).1) i .lateSync
    have ports := port_congr (leaves.2.2 .ports (by decide))
    exact ⟨fun q ne => (ports q).trans (others q ne), slots, fun not => absurd not gone, fun _ => ⟨missed,
      changesOnly_trans (changesOnly_mono frame (by simp)) (changesOnly_mono leaves (by simp)), events⟩, (ports _).trans own⟩

/-- Settles O5: each running slot's advance, the default order, and a boundary's last steps. -/
theorem tickMovesSlots : Obligations.TickMovesSlots := by
  unfold Obligations.TickMovesSlots
  intro amount
  have amounts : ∀ x : TimeBase, amount x = x.amount := fun x => (amount_eq x).symm
  refine ⟨fun s order i r running held => ?_, fun s running same => ?_, fun s i j running same ne both => ?_, fun s i r k held => ⟨fun short =>
    advanceSlot_short held short, fun long => ?_⟩, fun x pl r copy held => ?_, fun s i => ?_⟩
  · refine ⟨s.tick order, exec_of_event (f := fun s => s.tick order) rfl running, ?_⟩
    intro k
    have k_eq : k = s.time.amount := amounts s.time
    rw [k_eq]
    exact tick_moves held order
  · intro slots
    have listed : s.runningSlots = slots := rfl
    refine (exec_of_event (f := fun s => s.tick []) rfl running).trans (congrArg _ ?_)
    rw [amounts, tick_eq, tickEvents_of_sameMinute same, tickStart_of_sameMinute same]
    exact takeEvents_slots s.runningSlots _ _ _ [.scrub] (by simp) _
  · intro first result
    refine (exec_of_event (f := fun s => s.tick [.slot i, .slot j, .memberArrives i]) rfl running).trans (congrArg _ ?_)
    rw [tick_memberArrives same ne both, tickStart_of_sameMinute same, ← amounts]
  · rw [advanceSlot_boundary held long]
    exact boundary_sends rfl
  · intro points sync
    have synced := decideFrame_sync copy held
    have frame : ∀ st, x.state = st → x.decideFrame = Slot.decideFrame { x with state := st } := fun st e => by rw [← e]
    refine ⟨fun st => (frame _ st).trans (congrArg some (synced true false false)),
      fun st => (frame _ st).trans (congrArg some (synced false true false)),
      fun st => (frame _ st).trans (congrArg some (synced false false true)), fun st => frame _ st,
      fun st due => ?_, fun st off again => ?_⟩
    · exact ((frame _ st).trans (if_pos due)).trans (congrArg some (synced false false false))
    · refine (frame _ st).trans (if_neg ?_)
      simp [off, again]
  · intro x q t queued inFlight
    obtain ⟨others, slots, gone, late, port⟩ := handOverStep_spec s i
    refine ⟨others, slots, fun absent free => ?_, fun found => ?_, fun here => ?_, fun absent flying => ?_⟩
    · have found : q.finding i = .gone := by
        rw [finding_of_not_queued absent, if_neg (inFlight_iff.not.mpr free)]
      obtain ⟨events, frame⟩ := gone found
      refine ⟨events, frame, fun none => ?_, fun f some => ?_⟩
      · rw [port, none]
        exact (handOver_gone found).1
      · rw [port, some, (handOver_gone found).2]
        exact sendsHead_startIfReady _
    · refine late ?_
      rcases found with here | flying
      · rw [finding_of_queued here]
        nofun
      · by_cases here : queued
        · rw [finding_of_queued here]
          nofun
        · rw [finding_of_not_queued here, if_pos (inFlight_iff.mpr flying)]
          nofun
    · have found : q.finding i = .queued := finding_of_queued here
      refine ⟨fun none => ?_, fun f some => ?_⟩
      · rw [port, none, (handOver_queued found).1]
        exact removeEntry_queue q i
      · rw [port, some]
        exact (handOver_queued found).2 f
    · have found : q.finding i = .inFlight := by
        rw [finding_of_not_queued absent, if_pos (inFlight_iff.mpr flying)]
      rw [port]
      exact handOver_inFlight found _

end Sys2Proof.Machine
end

section
/-! PROOFS. The transition limit: its command, a group's minute, and the minute events of a tick (O29). -/

namespace Sys2Proof.Machine

variable {s t u b : State} {i j : Fin 64} {g h : Fin 16} {e d : TickEvent} {es order pending : List TickEvent} {v : OnWay}
  {k : Nat} {w : Bool} {run : List (Fin 64)}

/-! ### The limit at one group (R90, R91) -/

/-- R90: elapsed after a minute event. -/
def Group.elapsedAfter (x : Group) : Nat := if x.state = .steady then x.elapsed else min 255 (x.elapsed + 1)

/-- R90: a minute event finds the limit reached. -/
def Group.reaches (x : Group) : Bool := decide (x.limit ≤ x.elapsedAfter) && !x.reported

/-- R90, R91: a group record after a minute event. -/
def Group.minuted (x : Group) : Group := { x with elapsed := x.elapsedAfter, reported := x.reported || x.reaches }

/-- R47: a slot after a forced-immediate event. -/
def Slot.forced (x : Slot) : Slot := { x with trans := x.trans.map fun r => { r with forced := true } }

theorem Slot.forced_forced (x : Slot) : x.forced.forced = x.forced := by
  unfold Slot.forced
  cases x.trans <;> rfl

theorem forceImmediate_slot (s : State) (i j : Fin 64) : (s.forceImmediate i).slot j = if i = j then (s.slot j).forced else s.slot j := by
  rw [State.forceImmediate, State.setSlot_slot]
  split
  next same => rw [same]; rfl
  next => rfl

theorem forceAll_slot (s : State) (is : List (Fin 64)) (j : Fin 64) :
    (s.forceAll is).slot j = if j ∈ is then (s.slot j).forced else s.slot j := by
  unfold State.forceAll
  induction is generalizing s with
  | nil => rfl
  | cons i is ih =>
    rw [List.foldl_cons, ih, forceImmediate_slot]
    by_cases same : i = j
    · subst same
      simp [Slot.forced_forced]
    · simp [same, eq_comm (a := j)]

/-- R91: the members that a limit reached forces. -/
theorem mem_inTransition : i ∈ s.inTransition g ↔ (s.member i).any (fun m => m.group == g && m.state == .transition) = true := by
  simp only [State.inTransition, State.membersOf, List.mem_filter, List.mem_finRange, true_and]
  cases s.member i <;> simp

theorem inTransition_eq (s : State) (g : Fin 16) : s.inTransition g =
    (List.finRange 64).filter fun i => (s.member i).any fun m => m.group == g && m.state == .transition := by
  unfold State.inTransition State.membersOf
  rw [List.filter_filter]
  refine List.filter_congr fun i _ => ?_
  cases s.member i with
  | none => rfl
  | some m => exact Bool.and_comm _ _

theorem atLimit_iff {x : Group} : x.atLimit = true ↔ x.limit ≤ x.elapsed ∧ x.reported = false := by
  simp [Group.atLimit]

theorem checkLimit_of_limit (limit : (s.group g).atLimit = true) :
    s.checkLimit g = ((s.setGroup g { s.group g with reported := true }).raise .groupLimit, s.inTransition g) := if_pos limit

theorem checkLimit_of_below (below : (s.group g).atLimit = false) : s.checkLimit g = (s, []) := if_neg (by simp [below])

/-- R90: a minute event at a group is its elapsed time and then its limit. -/
theorem groupMinute_spec (s : State) (g : Fin 16) : s.groupMinute g =
    if (s.group g).reaches then ((s.setGroup g (s.group g).minuted).raise .groupLimit, s.inTransition g)
    else (s.setGroup g (s.group g).minuted, []) := by
  have counted : (if (s.group g).state = .steady then s.group g else { s.group g with elapsed := min 255 ((s.group g).elapsed + 1) }) =
      { s.group g with elapsed := (s.group g).elapsedAfter } := by
    unfold Group.elapsedAfter
    split <;> rfl
  have limit : Group.atLimit { s.group g with elapsed := (s.group g).elapsedAfter } = (s.group g).reaches := rfl
  have minute := groupMinute_eq s g
  dsimp only at minute
  rw [counted, limit] at minute
  rw [minute, Group.minuted]
  split
  next reached => rw [reached, Bool.or_true]
  next not => rw [eq_false_of_ne_true not, Bool.or_false]

theorem groupMinute_of_reached (reached : (s.group g).reaches = true) :
    s.groupMinute g = ((s.setGroup g (s.group g).minuted).raise .groupLimit, s.inTransition g) := by
  rw [groupMinute_spec, if_pos reached]

theorem groupMinute_of_not (not : (s.group g).reaches = false) : s.groupMinute g = (s.setGroup g (s.group g).minuted, []) := by
  rw [groupMinute_spec, if_neg (by simp [not])]

/-- R90, R91: what a minute event at a group leaves, and whom it forces. -/
theorem groupMinute_leaves (s : State) (g : Fin 16) :
    (s.groupMinute g).1.group g = (s.group g).minuted ∧ (∀ h, h ≠ g → (s.groupMinute g).1.group h = s.group h) ∧
    s.onlyNotices (s.groupMinute g).1 ∧ s.changesOnly (s.groupMinute g).1 [.groups, .records] ∧
    s.records.grows (s.groupMinute g).1.records ∧ ((s.group g).reaches = true → s.notified (s.groupMinute g).1 .groupLimit) ∧
    ∀ i, i ∈ (s.groupMinute g).2 ↔ (s.group g).reaches = true ∧
      (s.member i).any (fun m => m.group == g && m.state == .transition) = true := by
  have set : s.changesOnly (s.setGroup g (s.group g).minuted) [.groups, .records] := changesOnly_setGroup _ _ (by simp) changesOnly_refl
  by_cases reached : (s.group g).reaches = true
  · rw [groupMinute_of_reached reached]
    exact ⟨State.setGroup_group_same _ _ _, fun h ne => State.setGroup_group_ne _ _ _ _ (Ne.symm ne),
      onlyNotices_raise (t := s.setGroup g _) .groupLimit rfl, changesOnly_raise _ (by simp) set,
      RecordUnit.grows_raise _ _, fun _ => notified_raise (t := s.setGroup g _) (RecordUnit.grows_refl _) .groupLimit (RecordUnit.grows_refl _),
      fun i => by rw [mem_inTransition, and_iff_right reached]⟩
  · rw [groupMinute_of_not (by simpa using reached)]
    exact ⟨State.setGroup_group_same _ _ _, fun h ne => State.setGroup_group_ne _ _ _ _ (Ne.symm ne), rfl, set, RecordUnit.grows_refl _,
      fun yes => absurd yes reached, fun i => ⟨fun mem => (nomatch mem), fun h => absurd h.1 reached⟩⟩

/-! ### The minute events of a tick -/

/-- The minute events force a slot: the member view shows it in TRANSITION in a group that reaches its limit (R90, R91). -/
def State.forces (b : State) (i : Fin 64) : Bool := (b.member i).any fun m => m.state == .transition && (b.group m.group).reaches

/-- From `b` the events `es` are still to come, with `v` on its way: what the minute events have done so far at the groups and at the
slots they force. -/
structure Minuting (b : State) (es : List TickEvent) (v : OnWay) (u : State) : Prop where
  frame : b.changesOnly u [.slots, .groups, .store, .ports, .records]
  grown : b.records.grows u.records
  quiet : v.members = []
  sent : ∀ i ∈ v.forced, b.forces i = true
  waiting : ∀ g, .groupMinute g ∈ es → u.group g = b.group g
  done : ∀ g, .groupMinute g ∉ es → u.group g = (b.group g).minuted ∧ ((b.group g).reaches = true → b.notified u .groupLimit)
  left : ∀ i, b.forces i = false → u.slot i = b.slot i
  reached : ∀ i, b.forces i = true → u.slot i = b.slot i ∨ u.slot i = (b.slot i).forced
  forced : ∀ i m, b.member i = some m → b.forces i = true → .groupMinute m.group ∉ es → i ∈ v.forced ∨ u.slot i = (b.slot i).forced

theorem forces_iff : b.forces i = true ↔ ∃ m, b.member i = some m ∧ m.state = .transition ∧ (b.group m.group).reaches = true := by
  simp [State.forces, Option.any_eq_true]

theorem forces_of_minute (group : u.group g = b.group g) (view : u.member i = b.member i)
    (sent : (u.group g).reaches = true ∧ (u.member i).any (fun m => m.group == g && m.state == .transition) = true) : b.forces i = true := by
  obtain ⟨reached, shown⟩ := sent
  rw [view] at shown
  obtain ⟨m, held, both⟩ := (Option.any_eq_true _ _).mp shown
  simp only [Bool.and_eq_true, beq_iff_eq] at both
  refine forces_iff.mpr ⟨m, held, both.2, ?_⟩
  rw [both.1, ← group]
  exact reached

/-- What arrives with an event, and what stays on its way. -/
theorem Minuting.arrive (h : Minuting b es v u) : Minuting b es (v.later es) (u.arrive (v.now es)) := by
  have arrived : u.arrive (v.now es) = u.forceAll (v.now es).forced := by
    unfold State.arrive OnWay.now
    rw [h.quiet]
    rfl
  have slot : ∀ i, (u.arrive (v.now es)).slot i = if i ∈ (v.now es).forced then (u.slot i).forced else u.slot i := fun i => by
    rw [arrived, forceAll_slot]
  have now : ∀ i, i ∈ (v.now es).forced ↔ i ∈ v.forced ∧ .forcedArrives i ∉ es := fun i => by simp [OnWay.now]
  have later : ∀ i, i ∈ (v.later es).forced ↔ i ∈ v.forced ∧ .forcedArrives i ∈ es := fun i => by simp [OnWay.later]
  have others : u.changesOnly (u.arrive (v.now es)) [.slots] := by
    rw [arrived]
    exact changesOnly_forceAll _ (by simp) changesOnly_refl
  have groups : ∀ g, (u.arrive (v.now es)).group g = u.group g := group_congr (others.2.2 .groups (by decide))
  have records : (u.arrive (v.now es)).records = u.records := others.2.2 .records (by decide)
  have settled : ∀ i, b.forces i = true → (u.slot i).forced = (b.slot i).forced := fun i forces => by
    rcases h.reached i forces with e | e <;> rw [e]
    exact Slot.forced_forced _
  refine ⟨changesOnly_trans h.frame (changesOnly_mono others (by simp)), by rw [records]; exact h.grown, ?_, fun i mem => h.sent i ((later i).mp mem).1,
    fun g mem => (groups g).trans (h.waiting g mem), fun g not => ?_, fun i free => ?_, fun i forces => ?_, fun i m held forces not => ?_⟩
  · rw [OnWay.later, h.quiet]
    rfl
  · rw [groups]
    refine ⟨(h.done g not).1, fun reached => ?_⟩
    unfold State.notified
    rw [records]
    exact (h.done g not).2 reached
  · rw [slot, if_neg fun mem => ?_, h.left i free]
    rw [h.sent i ((now i).mp mem).1] at free
    exact nomatch free
  · rw [slot]
    split
    · exact .inr (settled i forces)
    · exact h.reached i forces
  · rw [slot, later]
    rcases h.forced i m held forces not with mem | e
    · by_cases waits : .forcedArrives i ∈ es
      · exact .inl ⟨mem, waits⟩
      · rw [if_pos ((now i).mpr ⟨mem, waits⟩)]
        exact .inr (settled i forces)
    · right
      split
      · rw [e, Slot.forced_forced]
      · exact e

/-- An event that leaves the groups and the slots. -/
theorem Minuting.pass (h : Minuting b (e :: es) v u) (other : ∀ g, e ≠ .groupMinute g) (groups : t.groups = u.groups) (slots : t.slots = u.slots)
    (frame : u.changesOnly t [.slots, .groups, .store, .ports, .records]) (grown : u.records.grows t.records) : Minuting b es v t := by
  have mem : ∀ g, .groupMinute g ∈ es ↔ .groupMinute g ∈ e :: es := fun g => by simp [Ne.symm (other g)]
  refine ⟨changesOnly_trans h.frame frame, RecordUnit.grows_trans h.grown grown, h.quiet, h.sent, fun g yes => ?_, fun g no => ?_, fun i free => ?_,
    fun i forces => ?_, fun i m held forces no => ?_⟩
  · rw [group_congr groups, h.waiting g ((mem g).mp yes)]
  · rw [group_congr groups]
    obtain ⟨group, raised⟩ := h.done g ((mem g).not.mp no)
    exact ⟨group, fun reached => notified_of_grows (raised reached) grown⟩
  · rw [slot_congr slots, h.left i free]
  · rw [slot_congr slots]
    exact h.reached i forces
  · rw [slot_congr slots]
    exact h.forced i m held forces ((mem _).not.mp no)

/-- A group's minute event. -/
theorem Minuting.minute (h : Minuting b (.groupMinute g :: es) v u) (once : .groupMinute g ∉ es) :
    Minuting b es (v.and ⟨[], (u.groupMinute g).2⟩) (u.groupMinute g).1 := by
  obtain ⟨own, others, -, frame, grown, raised, sent⟩ := groupMinute_leaves u g
  have before : u.group g = b.group g := h.waiting g List.mem_cons_self
  have view : ∀ i, u.member i = b.member i := member_congr (h.frame.2.2 .members (by decide))
  have slot : ∀ i, (u.groupMinute g).1.slot i = u.slot i := slot_congr (frame.2.2 .slots (by decide))
  refine ⟨changesOnly_trans h.frame (changesOnly_mono frame (by simp)), RecordUnit.grows_trans h.grown grown, ?_, fun i mem => ?_, fun x mem => ?_,
    fun x not => ?_, fun i free => (slot i).trans (h.left i free), fun i forces => ?_, fun i m held forces not => ?_⟩
  · rw [OnWay.and, h.quiet]
    rfl
  · rcases List.mem_append.mp mem with mem | mem
    · exact h.sent i mem
    · exact forces_of_minute before (view i) ((sent i).mp mem)
  · rw [others x fun same => once (same ▸ mem), h.waiting x (List.mem_cons_of_mem _ mem)]
  · by_cases same : x = g
    · subst same
      rw [own, before]
      refine ⟨rfl, fun reached => ?_⟩
      rw [before] at raised
      have told := raised reached
      unfold State.notified at told ⊢
      rw [h.grown.1] at told
      exact told
    · obtain ⟨group, told⟩ := h.done x (by simp [same, not])
      rw [others x same]
      exact ⟨group, fun reached => notified_of_grows (told reached) grown⟩
  · rw [slot]
    exact h.reached i forces
  · rw [slot]
    by_cases same : m.group = g
    · left
      obtain ⟨m', held', state, reached⟩ := forces_iff.mp forces
      obtain rfl : m = m' := Option.some.inj (held.symm.trans held')
      refine List.mem_append_right _ ((sent i).mpr ⟨?_, ?_⟩)
      · rw [before, ← same]
        exact reached
      · rw [view, held]
        simp [same, state]
    · exact (h.forced i m held forces (by simp [same, not])).imp (fun mem => List.mem_append_left _ mem) id

/-- Any event of a tick in which no slot runs and the timetable engine does nothing. -/
theorem Minuting.tickEvent (h : Minuting b (e :: es) v u) (idle : ∀ i, e ≠ .slot i) (once : ∀ g, e = .groupMinute g → e ∉ es)
    (tables : e = .timetable → b.time.disc = .unset) : Minuting b es (v.and (u.tickEvent k w [] e).2) (u.tickEvent k w [] e).1 := by
  have nothing : v.and .none = v := by simp [OnWay.and, OnWay.none]
  cases e with
  | slot i => exact absurd rfl (idle i)
  | groupMinute g => exact h.minute (once g rfl)
  | scrub =>
    have frame : u.changesOnly u.scrubVisit [.store, .records] := changesOnly_scrubVisit (by simp) (by simp) changesOnly_refl
    have grown : u.records.grows u.scrubVisit.records := by
      unfold State.scrubVisit
      dsimp only
      split
      · split
        · split
          · exact RecordUnit.grows_refl _
          · exact (readLocation_notices u _).2.1
        · exact RecordUnit.grows_refl _
      · exact RecordUnit.grows_refl _
    refine nothing.symm ▸ h.pass nofun (frame.2.2 .groups (by decide)) (frame.2.2 .slots (by decide)) (changesOnly_mono frame (by simp)) grown
  | stepFlags => exact nothing.symm ▸ h.pass nofun rfl rfl changesOnly_refl (RecordUnit.grows_refl _)
  | timetable =>
    have time : u.time = b.time := h.frame.2.2 .time (by decide)
    have unset : u.time.isSet = false := by
      rw [← Bool.not_eq_true, isSet_iff, not_not, time]
      exact tables rfl
    have stands : u.tickEvent k w [] .timetable = (u, .none) := by
      unfold State.tickEvent State.timetableStep State.timetableMinute
      dsimp only
      rw [unset]
      cases w <;> rfl
    rw [stands]
    exact nothing.symm ▸ h.pass nofun rfl rfl changesOnly_refl (RecordUnit.grows_refl _)
  | lineSeen p l =>
    exact nothing.symm ▸ h.pass nofun rfl rfl (changesOnly_setPort _ _ (by simp) changesOnly_refl) (RecordUnit.grows_refl _)
  | memberArrives i => exact nothing.symm ▸ h.pass nofun rfl rfl changesOnly_refl (RecordUnit.grows_refl _)
  | forcedArrives i => exact nothing.symm ▸ h.pass nofun rfl rfl changesOnly_refl (RecordUnit.grows_refl _)

/-- The minute events of a tick, whatever the order. -/
theorem Minuting.takeEvents (es : List TickEvent) : (∀ i, TickEvent.slot i ∉ es) → (∀ g, es.count (.groupMinute g) ≤ 1) →
    (TickEvent.timetable ∈ es → b.time.disc = .unset) → ∀ (u : State) (v : OnWay), Minuting b es v u → (∀ i ∈ v.forced, .forcedArrives i ∈ es) →
      Minuting b [] .none (u.takeEvents k w [] es v) := by
  induction es with
  | nil =>
    intro _ _ _ u v h awaited
    have none : v = .none := by
      obtain ⟨members, forced⟩ := v
      have quiet : members = [] := h.quiet
      have empty : forced = [] := List.eq_nil_iff_forall_not_mem.mpr fun i mem => List.not_mem_nil (awaited i mem)
      rw [quiet, empty]
      rfl
    exact none ▸ h
  | cons e es ih =>
    intro idle once tables u v h awaited
    refine ih (fun i mem => idle i (List.mem_cons_of_mem _ mem)) (fun g => (List.count_le_count_cons).trans (once g))
      (fun mem => tables (List.mem_cons_of_mem _ mem)) _ _ (Minuting.arrive (h.tickEvent ?_ ?_ ?_)) ?_
    · rintro i rfl
      exact idle i List.mem_cons_self
    · rintro g rfl mem
      have := once g
      rw [List.count_cons_self] at this
      have := List.count_pos_iff.mpr mem
      omega
    · rintro rfl
      exact tables List.mem_cons_self
    · intro i mem
      simpa using (List.mem_filter.mp mem).2

end Sys2Proof.Machine
end

section
/-! PROOFS. What the group coordinator and the slot engine's target events do does not depend on the record unit, and of the time base
on the clock alone: with that, the minute events of a tick (O29). -/

namespace Sys2Proof.Machine

variable {s t u v b : State} {i j : Fin 64} {g h : Fin 16} {e d : TickEvent} {es order pending : List TickEvent}
  {k : Nat} {w : Bool} {run pendingSlots : List (Fin 64)}

/-! ### Relations that the operations of an evaluation keep -/

/-- States that the group coordinator and the slot engine's target events cannot tell apart, and that their operations leave so. -/
structure Blind (R : State → State → Prop) : Prop where
  slots : ∀ {u v : State}, R u v → v.slots = u.slots
  groups : ∀ {u v : State}, R u v → v.groups = u.groups
  members : ∀ {u v : State}, R u v → v.members = u.members
  tables : ∀ {u v : State}, R u v → v.tables = u.tables
  store : ∀ {u v : State}, R u v → v.store = u.store
  ports : ∀ {u v : State}, R u v → v.ports = u.ports
  day : ∀ {u v : State}, R u v → v.time.day = u.time.day
  nt : ∀ {u v : State}, R u v → v.time.nt = u.time.nt
  set : ∀ {u v : State}, R u v → v.time.isSet = u.time.isSet
  setSlot : ∀ {u v : State} (i : Fin 64) (x : Slot), R u v → R (u.setSlot i x) (v.setSlot i x)
  setGroup : ∀ {u v : State} (g : Fin 16) (x : Group), R u v → R (u.setGroup g x) (v.setGroup g x)
  setMember : ∀ {u v : State} (i : Fin 64) (m : Option Member), R u v → R (u.setMember i m) (v.setMember i m)
  setPort : ∀ {u v : State} (p : Fin 4) (q : Port), R u v → R (u.setPort p q) (v.setPort p q)
  setStore : ∀ {u v : State} (st : PlanStore), R u v → R (u.setStore st) (v.setStore st)
  setTables : ∀ {u v : State} (x : Timetable), R u v → R (u.setTables x) (v.setTables x)
  raise : ∀ {u v : State} (n : Notice), R u v → R (u.raise n) (v.raise n)
  takeRecord : ∀ {u v : State} (x : TransitionRecord), R u v → R (u.takeRecord x) (v.takeRecord x)

section
variable {R : State → State → Prop}

theorem Blind.slot (bl : Blind R) (h : R u v) (i : Fin 64) : v.slot i = u.slot i := slot_congr (bl.slots h) i

theorem Blind.group (bl : Blind R) (h : R u v) (g : Fin 16) : v.group g = u.group g := group_congr (bl.groups h) g

theorem Blind.member (bl : Blind R) (h : R u v) (i : Fin 64) : v.member i = u.member i := member_congr (bl.members h) i

theorem Blind.port (bl : Blind R) (h : R u v) (p : Fin 4) : v.port p = u.port p := port_congr (bl.ports h) p

/-! ### The operations of an evaluation -/

theorem Blind.forceImmediate (bl : Blind R) (i : Fin 64) (h : R u v) : R (u.forceImmediate i) (v.forceImmediate i) := by
  unfold State.forceImmediate
  rw [bl.slot h]
  exact bl.setSlot _ _ h

theorem Blind.decision (bl : Blind R) (h : R u v) (g : Fin 16) : v.decision g = u.decision g := by
  refine decision_congr (by rw [bl.group h]) fun i => ?_
  rw [State.inView, State.inView, bl.member h]

theorem Blind.settle (bl : Blind R) (g : Fin 16) (change : Bool) (h : R u v) : R (u.settle g change) (v.settle g change) := by
  have first : R (if change ∧ (u.group g).state = .steady ∧ u.decision g ≠ .steady then
      u.setGroup g { u.group g with elapsed := 0, reported := false, adopted := true } else u)
      (if change ∧ (v.group g).state = .steady ∧ v.decision g ≠ .steady then
      v.setGroup g { v.group g with elapsed := 0, reported := false, adopted := true } else v) := by
    rw [bl.group h, bl.decision h]
    split
    · exact bl.setGroup _ _ h
    · exact h
  unfold State.settle
  dsimp only
  generalize (if change ∧ (u.group g).state = .steady ∧ u.decision g ≠ .steady then
      u.setGroup g { u.group g with elapsed := 0, reported := false, adopted := true } else u) = u1 at first
  generalize (if change ∧ (v.group g).state = .steady ∧ v.decision g ≠ .steady then
      v.setGroup g { v.group g with elapsed := 0, reported := false, adopted := true } else v) = v1 at first
  rw [bl.decision first, bl.group first, bl.group h]
  split
  · exact bl.raise _ (bl.setGroup _ _ first)
  · exact bl.setGroup _ _ first

theorem Blind.adoptedBy (bl : Blind R) (g : Fin 16) (m : Member) (n : Nat) (h : R u v) : R (u.adoptedBy g m n) (v.adoptedBy g m n) := by
  unfold State.adoptedBy
  rw [bl.group h]
  split
  · exact bl.setGroup _ _ h
  · exact h

theorem Blind.takeMember (bl : Blind R) (e : MemberEvent) (h : R u v) : R (u.takeMember e) (v.takeMember e) := by
  unfold State.takeMember
  rw [bl.member h]
  split
  · exact bl.settle _ _ (bl.setMember _ _ h)
  · exact h
  next old _ _ =>
    dsimp only
    have settled := bl.settle old.group true
      (bl.setMember e.slot (some ⟨old.group, e.state, e.current⟩) (bl.adoptedBy old.group old e.current h))
    rw [bl.group settled]
    split
    · exact bl.settle _ _ (bl.setMember _ _ h)
    · split
      · exact bl.forceImmediate _ settled
      · exact settled

theorem Blind.takeMembers (bl : Blind R) (es : List MemberEvent) : ∀ {u v : State}, R u v → R (u.takeMembers es) (v.takeMembers es) := by
  induction es with
  | nil => exact fun h => h
  | cons e es ih => exact fun h => ih (bl.takeMember e h)

theorem Blind.readLocation (bl : Blind R) (l : Location) (h : R u v) :
    R (u.readLocation l).1 (v.readLocation l).1 ∧ (u.readLocation l).2 = (v.readLocation l).2 := by
  unfold State.readLocation
  rw [bl.store h]
  generalize u.store.read l = r
  dsimp only
  refine ⟨?_, rfl⟩
  split
  · exact bl.raise _ (bl.setStore _ h)
  · exact bl.setStore _ h

theorem Blind.readRecord (bl : Blind R) (i : Fin 64) (n : Nat) (h : R u v) :
    R (u.readRecord i n).1 (v.readRecord i n).1 ∧ (u.readRecord i n).2 = (v.readRecord i n).2 := by
  unfold State.readRecord
  rw [bl.store h]
  split
  · exact ⟨h, rfl⟩
  next l _ =>
    obtain ⟨state, image⟩ := bl.readLocation l h
    split
    · exact ⟨h, rfl⟩
    · generalize u.readLocation l = a at state image
      generalize v.readLocation l = c at state image
      obtain ⟨a1, a2⟩ := a
      obtain ⟨c1, c2⟩ := c
      obtain rfl : a2 = c2 := image
      cases a2 <;> exact ⟨state, rfl⟩

theorem Blind.endTransition (bl : Blind R) (i : Fin 64) (o : RecordOutcome) (h : R u v) : R (u.endTransition i o) (v.endTransition i o) := by
  unfold State.endTransition
  rw [bl.slot h]
  split
  · exact h
  next r _ =>
    have recorded := bl.takeRecord ((u.slot i).endRecord i r o) h
    dsimp only
    rw [bl.slot recorded]
    exact bl.setSlot _ _ recorded

theorem Blind.enterOverridden (bl : Blind R) (i : Fin 64) (h : R u v) :
    R (u.enterOverridden i).1 (v.enterOverridden i).1 ∧ (u.enterOverridden i).2 = (v.enterOverridden i).2 := by
  have ended := bl.endTransition i .overridden h
  unfold State.enterOverridden
  dsimp only
  rw [bl.slot ended, bl.port ended]
  exact ⟨bl.raise _ (bl.setSlot _ _ (bl.setPort _ _ ended)), rfl⟩

theorem Blind.ref (bl : Blind R) (h : R u v) : v.time.ref = u.time.ref := by
  rw [TimeBase.ref, TimeBase.ref, bl.day h, bl.nt h]

theorem Blind.positionAttempt (bl : Blind R) (i : Fin 64) (h : R u v) :
    R (u.positionAttempt i).1 (v.positionAttempt i).1 ∧ (u.positionAttempt i).2 = (v.positionAttempt i).2 := by
  obtain ⟨state, found⟩ := bl.readRecord i (u.slot i).target h
  unfold State.positionAttempt
  rw [bl.slot h, bl.ref h, bl.set h]
  dsimp only
  generalize u.readRecord i (u.slot i).target = a at state found
  generalize v.readRecord i (u.slot i).target = c at state found
  obtain ⟨a1, a2⟩ := a
  obtain ⟨c1, c2⟩ := c
  obtain rfl : a2 = c2 := found
  split
  · cases a2 with
    | sound pl =>
      dsimp only
      split
      · exact ⟨bl.setSlot _ _ state, rfl⟩
      · obtain ⟨entered, events⟩ := bl.enterOverridden i (bl.setSlot i { u.slot i with
            copy := some pl, current := (u.slot i).target, run := some (planRun pl (planError u.time.ref 0 pl))
            count := 0, firstCycle := true } state)
        exact ⟨entered, congrArg (_ :: ·) events⟩
    | missing => exact ⟨state, rfl⟩
    | faulted => exact ⟨state, rfl⟩
  · exact ⟨h, rfl⟩

theorem Blind.targetEvent (bl : Blind R) (i : Fin 64) (n : Nat) (c : Option Layer) (m : Option Mode) (h : R u v) :
    R (u.targetEvent i n c m).1 (v.targetEvent i n c m).1 ∧ (u.targetEvent i n c m).2 = (v.targetEvent i n c m).2 := by
  unfold State.targetEvent
  rw [bl.slot h]
  dsimp only
  split
  · exact ⟨h, rfl⟩
  · exact bl.positionAttempt i (bl.setSlot _ _ h)

theorem overSlots_related {f : State → Fin 64 → Sent} (hf : ∀ {u v : State} (i : Fin 64), R u v → R (f u i).1 (f v i).1 ∧ (f u i).2 = (f v i).2)
    (is : List (Fin 64)) (h : R u v) : R (overSlots is f u).1 (overSlots is f v).1 ∧ (overSlots is f u).2 = (overSlots is f v).2 := by
  have fold : ∀ (is : List (Fin 64)) (a c : Sent), R a.1 c.1 → a.2 = c.2 →
      R (is.foldl (fun a i => a.andThen fun s => f s i) a).1 (is.foldl (fun a i => a.andThen fun s => f s i) c).1 ∧
      (is.foldl (fun a i => a.andThen fun s => f s i) a).2 = (is.foldl (fun a i => a.andThen fun s => f s i) c).2 := by
    intro is
    induction is with
    | nil => exact fun _ _ state events => ⟨state, events⟩
    | cons i is ih =>
      intro a c state events
      obtain ⟨next, sent⟩ := hf i state
      exact ih _ _ next (congrArg₂ (· ++ ·) events sent)
  exact fold is _ _ h rfl

theorem Blind.membersOf (bl : Blind R) (h : R u v) (g : Fin 16) : v.membersOf g = u.membersOf g := by
  unfold State.membersOf
  simp only [bl.member h]

theorem Blind.takeSelection (bl : Blind R) (g : Fin 16) (r : Selection) (h : R u v) : R (u.takeSelection g r) (v.takeSelection g r) := by
  unfold State.takeSelection
  dsimp only
  rw [bl.group h]
  have selected := bl.setGroup g ((u.group g).select r) h
  rw [bl.membersOf selected]
  obtain ⟨state, events⟩ := overSlots_related (f := fun s i => s.targetEvent i ((u.group g).select r).target ((u.group g).select r).layer
    ((u.group g).select r).targetMode) (fun i h => bl.targetEvent i _ _ _ h) ((u.setGroup g ((u.group g).select r)).membersOf g) selected
  rw [← events]
  exact bl.takeMembers _ (bl.settle _ _ state)

theorem Blind.evaluateGroups (bl : Blind R) (gs : List (Fin 16)) (day minute : Nat) : ∀ {u v : State}, R u v →
    R (u.evaluateGroups gs day minute) (v.evaluateGroups gs day minute) := by
  induction gs with
  | nil => exact fun h => h
  | cons g gs ih =>
    intro u v h
    refine ih (?_ : R (u.evaluateGroup g day minute) (v.evaluateGroup g day minute))
    rw [State.evaluateGroup, State.evaluateGroup, bl.tables h, bl.group h]
    exact bl.takeSelection _ _ h

theorem Blind.timetableMinute (bl : Blind R) (day minute : Nat) (h : R u v) : R (u.timetableMinute day minute) (v.timetableMinute day minute) := by
  unfold State.timetableMinute
  rw [bl.set h, bl.tables h]
  split
  · exact bl.evaluateGroups _ _ _ (bl.setTables _ h)
  · exact h

theorem Blind.evaluateNow (bl : Blind R) (gs : List (Fin 16)) (h : R u v) : R (u.evaluateNow gs) (v.evaluateNow gs) := by
  have minute : v.time.minute = u.time.minute := by rw [TimeBase.minute, TimeBase.minute, bl.nt h]
  unfold State.evaluateNow
  rw [bl.set h, bl.day h, minute]
  split
  · exact bl.evaluateGroups _ _ _ h
  · exact h

theorem Blind.timetableStep (bl : Blind R) (h : R u v) : R u.timetableStep v.timetableStep := by
  unfold State.timetableStep
  rw [bl.set h, bl.tables h, bl.ref h]
  split
  · exact bl.evaluateNow _ (bl.setTables _ h)
  · exact h

end

/-! ### States alike but for the record unit and the rest of the time base -/

/-- A state with another time base and another record unit. -/
def State.redress (u : State) (x : TimeBase) (r : RecordUnit) : State := { u with time := x, records := r }

/-- Two states that differ at most in the record unit and, of the time base, beside the clock. -/
def State.alike (u v : State) : Prop :=
  (∃ r, v = u.redress v.time r) ∧ v.time.day = u.time.day ∧ v.time.nt = u.time.nt ∧ v.time.isSet = u.time.isSet

theorem alike_fields (h : u.alike v) : v.slots = u.slots ∧ v.groups = u.groups ∧ v.members = u.members ∧ v.tables = u.tables ∧
    v.store = u.store ∧ v.ports = u.ports := by
  obtain ⟨⟨r, e⟩, -⟩ := h
  rw [e]
  exact ⟨rfl, rfl, rfl, rfl, rfl, rfl⟩

/-- An operation that reads neither, but for the clock, and leaves the time base. -/
theorem alike_map (f : State → State) (h : u.alike v)
    (same : ∀ x r, x.day = u.time.day → x.nt = u.time.nt → x.isSet = u.time.isSet → ∃ r', f (u.redress x r) = (f u).redress x r')
    (time : (f u).time = u.time) : (f u).alike (f v) := by
  obtain ⟨⟨r, e⟩, day, nt, set⟩ := h
  generalize v.time = x at e day nt set
  subst e
  obtain ⟨r', e'⟩ := same x r day nt set
  rw [e']
  exact ⟨⟨r', rfl⟩, day.trans (congrArg TimeBase.day time).symm, nt.trans (congrArg TimeBase.nt time).symm,
    set.trans (congrArg TimeBase.isSet time).symm⟩

theorem blind_alike : Blind State.alike where
  slots h := (alike_fields h).1
  groups h := (alike_fields h).2.1
  members h := (alike_fields h).2.2.1
  tables h := (alike_fields h).2.2.2.1
  store h := (alike_fields h).2.2.2.2.1
  ports h := (alike_fields h).2.2.2.2.2
  day h := h.2.1
  nt h := h.2.2.1
  set h := h.2.2.2
  setSlot i x h := alike_map (·.setSlot i x) h (fun _ r _ _ _ => ⟨r, rfl⟩) rfl
  setGroup g x h := alike_map (·.setGroup g x) h (fun _ r _ _ _ => ⟨r, rfl⟩) rfl
  setMember i m h := alike_map (·.setMember i m) h (fun _ r _ _ _ => ⟨r, rfl⟩) rfl
  setPort p q h := alike_map (·.setPort p q) h (fun _ r _ _ _ => ⟨r, rfl⟩) rfl
  setStore st h := alike_map (·.setStore st) h (fun _ r _ _ _ => ⟨r, rfl⟩) rfl
  setTables x h := alike_map (·.setTables x) h (fun _ r _ _ _ => ⟨r, rfl⟩) rfl
  raise n h := alike_map (·.raise n) h (fun _ r _ _ _ => ⟨r.raise n, rfl⟩) rfl
  takeRecord x h := alike_map (·.takeRecord x) h (fun _ _ _ _ _ => ⟨_, rfl⟩) rfl

/-- The events of a tick start from the ticked time base, alike. -/
theorem alike_tickStart (s : State) : (s.setTime s.time.tick).alike s.tickStart := by
  have frame : (s.setTime s.time.tick).changesOnly (s.setTime s.time.tick).enterHoldover [.time, .records] := (enterHoldover_frame _).1
  obtain ⟨nt, day, unset⟩ := tickStart_clock s
  have set : s.tickStart.time.isSet = s.time.tick.isSet := by
    rw [Bool.eq_iff_iff, isSet_iff, isSet_iff, (tick_second s.time).1]
    exact not_congr unset
  refine ⟨⟨s.tickStart.records, ?_⟩, day, nt, set⟩
  unfold State.tickStart State.enterHoldover
  dsimp only
  split <;> split <;> rfl

/-! ### All minute events of a tick (R90, R91) -/

/-- Every group has taken its minute, and every slot that the limits force is forced. -/
def State.allMinuted (s t : State) : Prop := (∀ g, t.group g = (s.group g).minuted) ∧
  (∀ g, (s.group g).reaches = true → s.notified t .groupLimit) ∧
  (∀ i, s.forces i = true → t.slot i = (s.slot i).forced) ∧ ∀ i, ¬s.forces i = true → t.slot i = s.slot i

theorem Minuting.all (h : Minuting b [] .none u) : b.allMinuted u := by
  refine ⟨fun g => (h.done g List.not_mem_nil).1, fun g reached => (h.done g List.not_mem_nil).2 reached, fun i forces => ?_,
    fun i free => h.left i (by simpa using free)⟩
  obtain ⟨m, held, -⟩ := forces_iff.mp forces
  exact (h.forced i m held forces List.not_mem_nil).resolve_left List.not_mem_nil

theorem allMinuted_congr (groups : b.groups = s.groups) (members : b.members = s.members) (slots : b.slots = s.slots)
    (mask : b.records.mask = s.records.mask) (h : b.allMinuted t) : s.allMinuted t := by
  have group := group_congr groups
  have slot := slot_congr slots
  have forces : ∀ i, b.forces i = s.forces i := fun i => by simp only [State.forces, member_congr members, group]
  unfold State.allMinuted State.notified at h ⊢
  simp only [group, slot, forces, mask] at h
  exact h

/-- Where the minute events begin. -/
theorem minuting_start (groups : ∀ g, .groupMinute g ∈ es) : Minuting b es .none b :=
  ⟨changesOnly_refl, RecordUnit.grows_refl _, rfl, fun _ mem => (nomatch mem), fun _ _ => rfl, fun g not => absurd (groups g) not,
    fun _ _ => rfl, fun _ _ => .inl rfl, fun _ m _ _ not => absurd (groups m.group) not⟩

theorem groupMinute_raised (minute : ¬s.sameMinute) (order : List TickEvent) (g : Fin 16) :
    (schedule order (s.tickStart.tickEvents s.time)).count (.groupMinute g) = 1 := count_tick rfl (mem_tickEvents.mpr minute) order

theorem runningSlots_nil (idle : ∀ i, (s.slot i).run = none) : s.tickStart.runningSlots = [] := by
  rw [tickStart_running]
  refine List.eq_nil_iff_forall_not_mem.mpr fun i mem => ?_
  have running := mem_runningSlots.mp mem
  rw [idle i] at running
  exact nomatch running

/-- R90: a tick that raises a minute with time UNSET and no slot running. -/
theorem tick_minuted (unset : s.time.disc = .unset) (idle : ∀ i, (s.slot i).run = none) (minute : ¬s.sameMinute) (order : List TickEvent) :
    s.allMinuted (s.tick order) ∧ s.changesOnly (s.tick order) [.time, .slots, .groups, .store, .ports, .records] := by
  have start := (tickStart_frame s).1
  have done : Minuting s.tickStart [] .none (s.tick order) := by
    rw [tick_eq, runningSlots_nil idle]
    refine Minuting.takeEvents _ (fun i mem => slot_not_raised idle mem rfl) (fun g => (groupMinute_raised minute order g).le)
      (fun _ => (tickStart_clock s).2.2.mpr unset) _ _ (minuting_start fun g => ?_) fun _ mem => (nomatch mem)
    exact List.count_pos_iff.mp (by rw [groupMinute_raised minute order g]; exact Nat.one_pos)
  exact ⟨allMinuted_congr (start.2.2 .groups (by decide)) (start.2.2 .members (by decide)) (start.2.2 .slots (by decide))
    (tickStart_frame s).2.2.1.1 done.all, changesOnly_trans (changesOnly_mono start (by simp)) (changesOnly_mono done.frame (by simp))⟩

/-- What the timetable engine's event leaves in a tick where it is the first. -/
def State.timetableFirst (s : State) : State :=
  if s.time.wraps s.time.amount then (s.setTime s.time.tick).timetableStep
  else (s.setTime s.time.tick).timetableMinute s.time.tick.day (s.time.tick.nt / 600)

theorem grows_timetable (t : State) (wrap : Bool) :
    t.records.grows (if wrap then t.timetableStep else t.timetableMinute t.time.day t.time.minute).records := by
  split
  · exact (tickClosed_grows _).timetableStep (RecordUnit.grows_refl _)
  · exact (tickClosed_grows _).timetableMinute _ _ (RecordUnit.grows_refl _)

theorem alike_timetableFirst (s : State) : s.timetableFirst.alike (if s.time.wraps s.time.amount then s.tickStart.timetableStep
    else s.tickStart.timetableMinute s.tickStart.time.day s.tickStart.time.minute) := by
  have start := alike_tickStart s
  obtain ⟨nt, day, -⟩ := tickStart_clock s
  have minute : s.tickStart.time.minute = s.time.tick.nt / 600 := by rw [TimeBase.minute, nt]; rfl
  unfold State.timetableFirst
  rw [day, minute]
  split
  · exact blind_alike.timetableStep start
  · exact blind_alike.timetableMinute _ _ start

/-- R90, R112: a tick that raises a minute with no slot running and the timetable engine named first. -/
theorem tick_timetable_minuted (idle : ∀ i, (s.slot i).run = none) (minute : ¬s.sameMinute) (order : List TickEvent) :
    s.timetableFirst.allMinuted (s.tick (.timetable :: order)) := by
  have raised : .timetable ∈ s.tickStart.tickEvents s.time := mem_tickEvents.mpr minute
  have distinct : (s.tickStart.tickEvents s.time).Nodup := tickEvents_nodup _ _
  have first : schedule (.timetable :: order) (s.tickStart.tickEvents s.time) =
      .timetable :: schedule order ((s.tickStart.tickEvents s.time).erase .timetable) := by
    rw [schedule, if_neg (by simp [TickEvent.raised]), if_pos raised]
  have rest : ∀ e, e.raised = true → e ≠ .timetable →
      (schedule order ((s.tickStart.tickEvents s.time).erase .timetable)).count e = (s.tickStart.tickEvents s.time).count e := fun e he ne => by
    rw [schedule_count he, List.count_erase_of_ne ne]
  have groups : ∀ g, (schedule order ((s.tickStart.tickEvents s.time).erase .timetable)).count (.groupMinute g) = 1 := fun g =>
    (rest (.groupMinute g) rfl (by simp)).trans (List.count_eq_one_of_mem distinct (mem_tickEvents.mpr minute))
  generalize hl : (if s.time.wraps s.time.amount then s.tickStart.timetableStep
    else s.tickStart.timetableMinute s.tickStart.time.day s.tickStart.time.minute) = left
  have taken : s.tick (.timetable :: order) = left.takeEvents s.time.amount (s.time.wraps s.time.amount) []
      (schedule order ((s.tickStart.tickEvents s.time).erase .timetable)) .none := by
    rw [tick_eq, runningSlots_nil idle, first, ← hl]
    rfl
  have done : Minuting left [] .none (s.tick (.timetable :: order)) := by
    rw [taken]
    refine Minuting.takeEvents _ (fun i mem => ?_) (fun g => (groups g).le) (fun mem => ?_) _ _ (minuting_start fun g => ?_)
      fun _ mem => (nomatch mem)
    · have pos := List.count_pos_iff.mpr mem
      rw [rest (.slot i) rfl (by simp)] at pos
      have running : (s.slot i).run.isSome = true := mem_tickEvents.mp (List.count_pos_iff.mp pos)
      rw [idle i] at running
      exact nomatch running
    · exact absurd ((mem_schedule rfl _ _).mp mem) distinct.not_mem_erase
    · exact List.count_pos_iff.mp (by rw [groups g]; exact Nat.one_pos)
  have alike := alike_timetableFirst s
  rw [hl] at alike
  obtain ⟨slots, groups, members, -⟩ := alike_fields alike
  refine allMinuted_congr groups members slots ?_ done.all
  have mask : ∀ t : State, t.records.mask = s.records.mask → ∀ wrap : Bool,
      (if wrap then t.timetableStep else t.timetableMinute t.time.day t.time.minute).records.mask = s.records.mask := fun t same wrap =>
    (grows_timetable t wrap).1.trans same
  have ticked : s.timetableFirst.records.mask = s.records.mask := mask (s.setTime s.time.tick) rfl _
  rw [ticked, ← hl]
  exact mask s.tickStart (tickStart_frame s).2.2.1.1 _

/-! ### A boundary between the limit and the arrival at its slot (R47, R91) -/

/-- With time UNSET, what the rest of a tick is to leave of a slot that no other group's limit forces. -/
structure SettledAt (i : Fin 64) (g : Fin 16) (x : Slot) (ring : List TransitionRecord) (u : State) : Prop where
  slot : u.slot i = x
  ring : u.records.ring = ring
  unset : u.time.disc = .unset
  member : ∀ m, u.member i = some m → m.group = g

theorem SettledAt.of_frame {x : Slot} {ring : List TransitionRecord} (h : SettledAt i g x ring u) (slot : t.slot i = u.slot i)
    (records : t.records.ring = u.records.ring) (frame : u.changesOnly t [.slots, .groups, .store, .ports, .records]) : SettledAt i g x ring t :=
  ⟨slot.trans h.slot, records.trans h.ring, (congrArg TimeBase.disc (frame.2.2 .time (by decide))).trans h.unset, fun m held =>
    h.member m ((member_congr (frame.2.2 .members (by decide)) i).symm.trans held)⟩

/-- An event that neither advances a slot nor concerns group `g` nor is an arrival. -/
def takenAside (g : Fin 16) (e : TickEvent) : Prop :=
  (∀ j, e ≠ .slot j) ∧ e ≠ .stepFlags ∧ e ≠ .groupMinute g ∧ (∀ j, e ≠ .forcedArrives j) ∧ ∀ j, e ≠ .memberArrives j

/-- One event of the rest, and what it forces. -/
theorem SettledAt.tickEvent {x : Slot} {ring : List TransitionRecord} (h : SettledAt i g x ring u) (idle : ∀ j, e ≠ .slot j)
    (flags : e ≠ .stepFlags) (other : e ≠ .groupMinute g) : ∃ forced, (u.tickEvent k w run e).2 = ⟨[], forced⟩ ∧
      SettledAt i g x ring ((u.tickEvent k w run e).1.arrive ⟨[], forced⟩) := by
  cases e with
  | slot j => exact absurd rfl (idle j)
  | stepFlags => exact absurd rfl flags
  | groupMinute y =>
    have ne : y ≠ g := fun same => other (congrArg _ same)
    obtain ⟨-, -, notices, frame, -, -, sent⟩ := groupMinute_leaves u y
    have free : i ∉ (u.groupMinute y).2 := fun mem => by
      obtain ⟨m, held, both⟩ := (Option.any_eq_true _ _).mp ((sent i).mp mem).2
      simp only [Bool.and_eq_true, beq_iff_eq] at both
      exact ne (both.1.symm.trans (h.member m held))
    have arrived : (u.groupMinute y).1.changesOnly ((u.groupMinute y).1.forceAll (u.groupMinute y).2) [.slots] :=
      changesOnly_forceAll _ (by simp) changesOnly_refl
    refine ⟨_, rfl, h.of_frame ?_ ((congrArg RecordUnit.ring (arrived.2.2 .records (by decide))).trans (onlyNotices_ring notices)) ?_⟩
    · change ((u.groupMinute y).1.forceAll (u.groupMinute y).2).slot i = _
      rw [forceAll_slot, if_neg free, slot_congr (frame.2.2 .slots (by decide))]
    · exact changesOnly_trans (changesOnly_mono frame (by simp)) (changesOnly_mono arrived (by simp))
  | scrub =>
    have frame : u.changesOnly u.scrubVisit [.store, .records] := changesOnly_scrubVisit (by simp) (by simp) changesOnly_refl
    exact ⟨[], rfl, h.of_frame (slot_congr (frame.2.2 .slots (by decide)) i) (onlyNotices_ring (scrubVisit_notices u))
      (changesOnly_mono frame (by simp))⟩
  | timetable =>
    have unset : u.time.isSet = false := by
      rw [← Bool.not_eq_true, isSet_iff, not_not]
      exact h.unset
    have stands : u.tickEvent k w run .timetable = (u, .none) := by
      unfold State.tickEvent State.timetableStep State.timetableMinute
      dsimp only
      rw [unset]
      cases w <;> rfl
    rw [stands]
    exact ⟨[], rfl, h⟩
  | lineSeen p l => exact ⟨[], rfl, h.of_frame rfl rfl (changesOnly_setPort _ _ (by simp) changesOnly_refl)⟩
  | memberArrives j => exact ⟨[], rfl, h⟩
  | forcedArrives j => exact ⟨[], rfl, h⟩

theorem SettledAt.takeEvents {x : Slot} {ring : List TransitionRecord} (es : List TickEvent) : (∀ e ∈ es, takenAside g e) →
    ∀ u : State, SettledAt i g x ring u →
      SettledAt i g x ring (u.takeEvents k w run es .none) := by
  induction es with
  | nil => exact fun _ _ h => h
  | cons e es ih =>
    intro aside u h
    obtain ⟨idle, flags, other, -⟩ := aside e List.mem_cons_self
    obtain ⟨forced, sent, settled⟩ := h.tickEvent (k := k) (w := w) (run := run) idle flags other
    have absent : ∀ j, TickEvent.forcedArrives j ∉ es := fun j mem => (aside _ (List.mem_cons_of_mem _ mem)).2.2.2.1 j rfl
    generalize ha : u.tickEvent k w run e = a at sent settled
    obtain ⟨a1, a2⟩ := a
    obtain rfl : a2 = ⟨[], forced⟩ := sent
    rw [takeEvents_cons (now := ⟨[], forced⟩) (later := .none) ha (by simp [OnWay.and, OnWay.none, OnWay.now, absent])
      (by simp [OnWay.and, OnWay.none, OnWay.later, absent])]
    exact ih (fun d mem => aside d (List.mem_cons_of_mem _ mem)) _ settled

/-- A group's minute event whose forced-immediate events arrive at once, but at the slots named later. -/
theorem takeEvents_minute (later : ∀ j, TickEvent.forcedArrives j ∈ es ↔ j ∈ pendingSlots) : s.takeEvents k w run (.groupMinute g :: es) .none =
    ((s.groupMinute g).1.forceAll ((s.groupMinute g).2.filter (· ∉ pendingSlots))).takeEvents k w run es
      ⟨[], (s.groupMinute g).2.filter (· ∈ pendingSlots)⟩ := by
  have taken : s.tickEvent k w run (.groupMinute g) = ((s.groupMinute g).1, ⟨[], (s.groupMinute g).2⟩) := rfl
  rw [takeEvents_cons (now := ⟨[], (s.groupMinute g).2.filter (· ∉ pendingSlots)⟩)
    (later := ⟨[], (s.groupMinute g).2.filter (· ∈ pendingSlots)⟩) taken (by simp [OnWay.and, OnWay.none, OnWay.now, later])
    (by simp [OnWay.and, OnWay.none, OnWay.later, later])]
  rfl

/-- A slot's event whose member events arrive at once, with forced-immediate events still on their way. -/
theorem takeEvents_slot {forced : List (Fin 64)} (quiet : ∀ j, TickEvent.memberArrives j ∉ es) (waits : ∀ j ∈ forced, .forcedArrives j ∈ es) :
    s.takeEvents k w run (.slot i :: es) ⟨[], forced⟩ = (s.advanceSlot i k).deliver.takeEvents k w run es ⟨[], forced⟩ := by
  have taken : s.tickEvent k w run (.slot i) = ((s.advanceSlot i k).1, ⟨(s.advanceSlot i k).2, []⟩) := rfl
  have none : forced.filter (fun j => decide (TickEvent.forcedArrives j ∉ es)) = [] :=
    List.filter_eq_nil_iff.mpr fun j mem => by simpa using waits j mem
  have all : forced.filter (fun j => decide (TickEvent.forcedArrives j ∈ es)) = forced :=
    List.filter_eq_self.mpr fun j mem => by simpa using waits j mem
  rw [takeEvents_cons (now := ⟨(s.advanceSlot i k).2, []⟩) (later := ⟨[], forced⟩) taken
    (by simp only [OnWay.and, OnWay.now, List.append_nil, none]; simp [quiet]) (by simp only [OnWay.and, OnWay.later, List.append_nil, all]; simp [quiet])]
  rfl

/-- The arrival of the last forced-immediate events. -/
theorem takeEvents_forced {forced : List (Fin 64)} (last : ∀ j, TickEvent.forcedArrives j ∉ es) :
    s.takeEvents k w run (.forcedArrives i :: es) ⟨[], forced⟩ = (s.forceAll forced).takeEvents k w run es .none := by
  have taken : s.tickEvent k w run (.forcedArrives i) = (s, .none) := rfl
  rw [takeEvents_cons (now := ⟨[], forced⟩) (later := .none) taken (by simp [OnWay.and, OnWay.none, OnWay.now, last])
    (by simp [OnWay.and, OnWay.none, OnWay.later, last])]
  rfl

/-- The event of a slot that may or may not run. -/
theorem takeEvents_slot_if {forced : List (Fin 64)} (quiet : ∀ j, TickEvent.memberArrives j ∉ es) (waits : ∀ j ∈ forced, .forcedArrives j ∈ es) :
    s.takeEvents k w run ((if (s.slot i).run.isSome then [.slot i] else []) ++ es) ⟨[], forced⟩ =
      (s.advanceSlot i k).deliver.takeEvents k w run es ⟨[], forced⟩ := by
  split
  · exact takeEvents_slot quiet waits
  next stopped =>
    have idle : (s.slot i).run = none := by simpa using stopped
    have stands : s.advanceSlot i k = (s, []) := by rw [State.advanceSlot, idle]
    rw [stands]
    rfl

theorem schedule_slot (order pending : List TickEvent) : schedule (.slot i :: order) pending =
    (if .slot i ∈ pending then [.slot i] else []) ++ schedule order (pending.erase (.slot i)) := by
  rw [schedule, if_neg (by simp [TickEvent.raised])]
  split
  · rfl
  next absent => rw [List.erase_of_not_mem absent]; rfl

theorem tickStart_of_unset (unset : s.time.disc = .unset) : s.tickStart = s.setTime s.time.tick := by
  have ticked : s.time.tick.disc = .unset := (tick_second s.time).1.trans unset
  have first : (s.setTime s.time.tick).enterHoldover = s.setTime s.time.tick := by
    unfold State.enterHoldover TimeBase.holdoverDue
    rw [State.setTime_time, ticked]
    rfl
  unfold State.tickStart
  dsimp only
  rw [first, State.setTime_time, TimeBase.isSet, ticked, if_neg]
  simp

theorem seenBy_group (es : List MemberEvent) : ∀ {v : Option Member}, (∀ m, v = some m → m.group = g) →
    ∀ m, seenBy i es v = some m → m.group = g := by
  unfold seenBy
  generalize es.filter (fun e => decide (e.slot = i)) = fs
  induction fs with
  | nil => exact fun h => h
  | cons e fs ih =>
    intro v h
    refine ih fun m seen => ?_
    unfold MemberEvent.seen at seen
    obtain ⟨old, held, now⟩ := Option.bind_eq_some_iff.mp seen
    split at now
    · exact nomatch now
    · rw [← Option.some.inj now]
      exact h old held

/-- A slot's advance leaves the group of its view. -/
theorem advance_member (s : State) (i : Fin 64) (k : Nat) (h : ∀ m, s.member i = some m → m.group = g) :
    ∀ m, (s.advanceSlot i k).deliver.member i = some m → m.group = g := by
  have tells := tells_advanceSlot s i k
  rw [Sent.deliver, takeMembers_member _ tells.plain, member_congr tells.members]
  exact seenBy_group _ h

/-- The rest of the events of a tick with time UNSET, once a group's minute event and a slot's event are named. -/
theorem rest_aside (unset : s.time.disc = .unset) (idle : ∀ j, j ≠ i → (s.slot j).run = none) (mem : e ∈
    ((s.tickStart.tickEvents s.time).erase (.groupMinute g)).erase (.slot i)) : takenAside g e := by
  have distinct : (s.tickStart.tickEvents s.time).Nodup := tickEvents_nodup _ _
  obtain ⟨notSlot, rest⟩ := (distinct.erase _).mem_erase_iff.mp mem
  obtain ⟨notMinute, raised⟩ := distinct.mem_erase_iff.mp rest
  refine ⟨?_, ?_, notMinute, ?_, ?_⟩
  · rintro j rfl
    have running : (s.slot j).run.isSome = true := mem_tickEvents.mp raised
    by_cases same : j = i
    · exact notSlot (congrArg _ same)
    · rw [idle j same] at running
      exact nomatch running
  · rintro rfl
    exact (mem_tickEvents.mp raised).2 unset
  · rintro j rfl
    exact mem_tickEvents.mp raised
  · rintro j rfl
    exact mem_tickEvents.mp raised

/-- The state in which the rest of such a tick is taken, and what it is to leave. -/
theorem tick_limit_boundary (unset : s.time.disc = .unset) (minute : ¬s.sameMinute) (idle : ∀ j, j ≠ i → (s.slot j).run = none) (forced : List (Fin 64)) (order : List TickEvent)
    (named : ∀ pending, schedule order pending = order ++ pending)
    (arrivals : ∀ j, TickEvent.forcedArrives j ∈ order ↔ j ∈ forced) (only : ∀ e ∈ order, ∃ j, e = .forcedArrives j) :
    ∃ rest : List TickEvent, (∀ e ∈ rest, takenAside g e) ∧
      s.tick (.groupMinute g :: .slot i :: order) =
        ((((s.setTime s.time.tick).groupMinute g).1.forceAll (((s.setTime s.time.tick).groupMinute g).2.filter (· ∉ forced))).advanceSlot i
          s.time.amount).deliver.takeEvents s.time.amount (s.time.wraps s.time.amount) s.tickStart.runningSlots (order ++ rest)
          ⟨[], ((s.setTime s.time.tick).groupMinute g).2.filter (· ∈ forced)⟩ := by
  have raised : .groupMinute g ∈ s.tickStart.tickEvents s.time := mem_tickEvents.mpr minute
  refine ⟨_, fun e mem => rest_aside (g := g) unset idle mem, ?_⟩
  have slotRuns : TickEvent.slot i ∈ (s.tickStart.tickEvents s.time).erase (.groupMinute g) ↔ (s.slot i).run.isSome = true := by
    rw [(tickEvents_nodup _ _).mem_erase_iff]
    exact (and_iff_right (by simp)).trans mem_tickEvents
  have quiet : ∀ e ∈ order ++ ((s.tickStart.tickEvents s.time).erase (.groupMinute g)).erase (.slot i), ∀ j, e ≠ .memberArrives j := by
    intro e mem j
    rcases List.mem_append.mp mem with mem | mem
    · obtain ⟨l, rfl⟩ := only e mem
      nofun
    · exact (rest_aside (g := g) unset idle mem).2.2.2.2 j
  have waits : ∀ j, TickEvent.forcedArrives j ∈ order ++ ((s.tickStart.tickEvents s.time).erase (.groupMinute g)).erase (.slot i) ↔ j ∈ forced := by
    intro j
    rw [List.mem_append, arrivals]
    exact or_iff_left fun mem => (rest_aside (g := g) unset idle mem).2.2.2.1 j rfl
  have listed : schedule (.groupMinute g :: .slot i :: order) (s.tickStart.tickEvents s.time) = .groupMinute g ::
      ((if (s.slot i).run.isSome then [.slot i] else []) ++
        (order ++ ((s.tickStart.tickEvents s.time).erase (.groupMinute g)).erase (.slot i))) := by
    rw [schedule, if_neg (by simp [TickEvent.raised]), if_pos raised, schedule_slot, named]
    simp only [slotRuns]
  have before : ∀ j, TickEvent.forcedArrives j ∈ (if (s.slot i).run.isSome then [TickEvent.slot i] else []) ++
      (order ++ ((s.tickStart.tickEvents s.time).erase (.groupMinute g)).erase (.slot i)) ↔ j ∈ forced := by
    intro j
    rw [List.mem_append, waits]
    refine or_iff_right fun mem => ?_
    split at mem <;> simp at mem
  rw [tick_eq, listed, takeEvents_minute before, tickStart_of_unset unset]
  generalize hu : s.setTime s.time.tick = u
  have run : ((((u.groupMinute g).1.forceAll ((u.groupMinute g).2.filter (· ∉ forced))).slot i).run).isSome = (s.slot i).run.isSome := by
    have frame := (groupMinute_leaves u g).2.2.2.1
    rw [forceAll_slot, slot_congr (frame.2.2 .slots (by decide)), ← hu]
    split <;> rfl
  rw [← run]
  refine takeEvents_slot_if (fun j mem => ?_) fun j mem => ?_
  · exact quiet _ (by rw [tickStart_of_unset unset, hu]; exact mem) j rfl
  · have here := (waits j).mpr (by simpa using (List.mem_filter.mp mem).2)
    rw [tickStart_of_unset unset, hu] at here
    exact here

/-- The boundary of a member between its group's limit and the arrival at it: what the rest of the tick finds. -/
theorem settledAt_boundary (unset : s.time.disc = .unset) (view : ∀ m, s.member i = some m → m.group = g) (sent forced : List (Fin 64)) (k : Nat) :
    let u := ((((s.setTime s.time.tick).groupMinute g).1.forceAll sent).advanceSlot i k).deliver
    SettledAt i g ((u.forceAll forced).slot i) u.records.ring (u.forceAll forced) := by
  intro u
  have frame := (groupMinute_leaves (s.setTime s.time.tick) g).2.2.2.1
  have first : ((s.setTime s.time.tick).groupMinute g).1.changesOnly (((s.setTime s.time.tick).groupMinute g).1.forceAll sent) [.slots] :=
    changesOnly_forceAll _ (by simp) changesOnly_refl
  have before : (s.setTime s.time.tick).changesOnly (((s.setTime s.time.tick).groupMinute g).1.forceAll sent) [.groups, .records, .slots] :=
    changesOnly_trans (changesOnly_mono frame (by simp)) (changesOnly_mono first (by simp))
  have last : u.changesOnly (u.forceAll forced) [.slots] := changesOnly_forceAll _ (by simp) changesOnly_refl
  have advanced : (((s.setTime s.time.tick).groupMinute g).1.forceAll sent).changesOnly u Block.engine :=
    changesOnly_deliver (List.Subset.refl _) (changesOnly_advanceSlot _ _ (List.Subset.refl _) changesOnly_refl)
  have time : (u.forceAll forced).time = (s.setTime s.time.tick).time :=
    (last.2.2 .time (by decide)).trans ((advanced.2.2 .time (by decide)).trans (before.2.2 .time (by decide)))
  refine ⟨rfl, congrArg RecordUnit.ring (last.2.2 .records (by decide)), ?_, ?_⟩
  · rw [time, State.setTime_time, (tick_second s.time).1]
    exact unset
  · rw [member_congr (last.2.2 .members (by decide))]
    refine advance_member _ i k ?_
    rw [member_congr (before.2.2 .members (by decide))]
    exact view

section
variable (unset : s.time.disc = .unset) (minute : ¬s.sameMinute) (idle : ∀ j, j ≠ i → (s.slot j).run = none)
  (view : ∀ m, s.member i = some m → m.group = g)
include unset minute idle view

/-- The arrival at a slot named behind its boundary. -/
theorem tick_boundary_first {limit : Forcing} {u : State} (reached : (s.setTime s.time.tick).groupMinute g = limit)
    (boundary : ((limit.1.forceAll (limit.2.filter (· ≠ i))).advanceSlot i s.time.amount).deliver = u) :
    SettledAt i g (if i ∈ limit.2 then (u.slot i).forced else u.slot i) u.records.ring (s.tick [.groupMinute g, .slot i, .forcedArrives i]) := by
  obtain ⟨rest, quiet, ticked⟩ := tick_limit_boundary (g := g) unset minute idle [i] [.forcedArrives i] (fun _ => rfl) (by simp) (by simp)
  have settled := settledAt_boundary unset view (limit.2.filter (· ∉ [i])) (limit.2.filter (· ∈ [i])) s.time.amount
  have late : limit.2.filter (· ∉ [i]) = limit.2.filter (· ≠ i) := List.filter_congr fun j _ => by simp
  rw [reached, late, boundary] at ticked settled
  rw [List.cons_append, List.nil_append, takeEvents_forced fun j mem => (quiet _ mem).2.2.2.1 j rfl] at ticked
  have found := congrArg (fun x => SettledAt i g x u.records.ring (u.forceAll (limit.2.filter (· ∈ [i]))))
    (forceAll_slot u (limit.2.filter (· ∈ [i])) i)
  rw [found] at settled
  have own : i ∈ limit.2.filter (· ∈ [i]) ↔ i ∈ limit.2 := by simp
  simp only [own] at settled
  rw [ticked]
  exact SettledAt.takeEvents rest quiet _ settled

/-- The arrival with the limit itself. -/
theorem tick_limit_first {limit : Forcing} {u : State} (reached : (s.setTime s.time.tick).groupMinute g = limit)
    (boundary : (limit.arrive.advanceSlot i s.time.amount).deliver = u) :
    SettledAt i g (u.slot i) u.records.ring (s.tick [.groupMinute g, .slot i]) := by
  obtain ⟨rest, quiet, ticked⟩ := tick_limit_boundary (g := g) unset minute idle [] [] (fun _ => rfl) (by simp) (by simp)
  have settled := settledAt_boundary unset view limit.2 [] s.time.amount
  have all : limit.2.filter (fun j => decide (j ∉ ([] : List (Fin 64)))) = limit.2 := List.filter_eq_self.mpr fun j _ => by simp
  have nothing : limit.2.filter (fun j => decide (j ∈ ([] : List (Fin 64)))) = [] := List.filter_eq_nil_iff.mpr fun j _ => by simp
  have arrived : ((limit.1.forceAll limit.2).advanceSlot i s.time.amount).deliver = u := boundary
  rw [reached, all, nothing, arrived] at ticked
  rw [reached] at settled
  dsimp only at settled
  rw [arrived] at settled
  rw [ticked]
  exact SettledAt.takeEvents rest quiet _ settled

end

/-- R91: a limit reached, with its forced-immediate events arrived. -/
theorem limit_leaves (s : State) (g : Fin 16) :
    let t := ((s.setGroup g { s.group g with reported := true }).raise .groupLimit).forceAll (s.inTransition g)
    t.group g = { s.group g with reported := true } ∧ (∀ h, h ≠ g → t.group h = s.group h) ∧ s.notified t .groupLimit ∧
    (∀ i, (s.member i).any (fun m => m.group == g && m.state == .transition) = true → t.slot i = (s.slot i).forced) ∧
    (∀ i, ¬(s.member i).any (fun m => m.group == g && m.state == .transition) = true → t.slot i = s.slot i) ∧
    s.onlyNotices t ∧ s.changesOnly t [.slots, .groups, .records] := by
  have set : s.changesOnly (s.setGroup g { s.group g with reported := true }) [.slots, .groups, .records] :=
    changesOnly_setGroup _ _ (by simp) changesOnly_refl
  have frame : s.changesOnly ((s.setGroup g { s.group g with reported := true }).raise .groupLimit) [.slots, .groups, .records] :=
    changesOnly_raise _ (by simp) set
  have notices : s.onlyNotices ((s.setGroup g { s.group g with reported := true }).raise .groupLimit) :=
    onlyNotices_raise (t := s.setGroup g _) .groupLimit rfl
  have raised : s.notified ((s.setGroup g { s.group g with reported := true }).raise .groupLimit) .groupLimit :=
    notified_raise (t := s.setGroup g _) (RecordUnit.grows_refl _) .groupLimit (RecordUnit.grows_refl _)
  have own : ((s.setGroup g { s.group g with reported := true }).raise .groupLimit).group g = { s.group g with reported := true } :=
    State.setGroup_group_same _ _ _
  have others : ∀ h, h ≠ g → ((s.setGroup g { s.group g with reported := true }).raise .groupLimit).group h = s.group h := fun h ne =>
    State.setGroup_group_ne _ _ _ _ (Ne.symm ne)
  have slot : ∀ i, ((s.setGroup g { s.group g with reported := true }).raise .groupLimit).slot i = s.slot i := fun _ => rfl
  generalize (s.setGroup g { s.group g with reported := true }).raise .groupLimit = u at frame notices raised own others slot
  intro t
  have arrived : u.changesOnly t [.slots] := changesOnly_forceAll _ (by simp) changesOnly_refl
  have groups : ∀ h, t.group h = u.group h := group_congr (arrived.2.2 .groups (by decide))
  have records : t.records = u.records := arrived.2.2 .records (by decide)
  refine ⟨(groups g).trans own, fun h ne => (groups h).trans (others h ne), notified_of_grows raised (records ▸ RecordUnit.grows_refl _),
    fun i mem => ?_, fun i free => ?_, onlyNotices_trans notices (onlyNotices_of_records records),
    changesOnly_trans frame (changesOnly_mono arrived (by simp))⟩
  · rw [forceAll_slot, if_pos (mem_inTransition.mpr mem), slot]
  · rw [forceAll_slot, if_neg (mem_inTransition.not.mpr free), slot]

/-- Settles O29: the limit's command, a group's minute event, and the minute events of a tick. -/
theorem limitForcesTransitions : Obligations.LimitForcesTransitions := by
  unfold Obligations.LimitForcesTransitions
  intro elapsedAfter reaches minuted forced allMinuted
  refine ⟨fun s g running => ⟨fun below => ?_, fun limit unreported => ?_⟩, fun s g => ?_, fun s g i m running unset minute idle held own => ?_,
    fun s order running unset idle minute => ?_, fun s order running timeSet idle minute => ?_⟩
  · refine exec_of_idle (f := fun s => (s.checkLimit g).arrive) rfl running ?_
    have not : (s.group g).atLimit = false := by
      rw [← Bool.not_eq_true, atLimit_iff]
      rintro ⟨limit, unreported⟩
      rcases below with below | reported
      · omega
      · exact nomatch reported.symm.trans unreported
    rw [checkLimit_of_below not]
    rfl
  · have limited := checkLimit_of_limit (atLimit_iff.mpr ⟨limit, unreported⟩)
    exact ⟨_, (exec_of_event (f := fun s => (s.checkLimit g).arrive) rfl running).trans (congrArg _ (congrArg Forcing.arrive limited)),
      limit_leaves s g⟩
  · obtain ⟨group, others, notices, frame, -, raised, -⟩ := groupMinute_leaves s g
    have slot : ∀ i, (s.groupMinute g).arrive.slot i = if i ∈ (s.groupMinute g).2 then (s.slot i).forced else s.slot i := fun i => by
      rw [Forcing.arrive, forceAll_slot, slot_congr (frame.2.2 .slots (by decide))]
    refine ⟨group, others, fun not => ?_, fun reached => ⟨raised reached, notices, frame, ?_⟩, fun i mem => (slot i).trans (if_pos mem),
      fun i free => (slot i).trans (if_neg free), changesOnly_forceAll _ (by simp) changesOnly_refl⟩
    · rw [groupMinute_of_not not]
      exact ⟨rfl, changesOnly_setGroup _ _ (by simp) changesOnly_refl⟩
    · rw [groupMinute_of_reached reached]
      exact inTransition_eq s g
  · intro k limit boundaryFirst
    have k_eq : s.time.amount = k := amount_eq s.time
    have view : ∀ m', s.member i = some m' → m'.group = g := fun m' held' => by
      rw [← Option.some.inj (held.symm.trans held')]
      exact own
    have first := tick_boundary_first unset minute idle view (limit := limit) (u := boundaryFirst) rfl (by rw [k_eq])
    have second := tick_limit_first unset minute idle view (limit := limit) rfl rfl
    rw [k_eq] at second
    exact ⟨⟨_, exec_of_event (f := fun s => s.tick [.groupMinute g, .slot i, .forcedArrives i]) rfl running, first.slot, first.ring⟩,
      ⟨_, exec_of_event (f := fun s => s.tick [.groupMinute g, .slot i]) rfl running, second.slot, second.ring⟩⟩
  · exact ⟨s.tick order, exec_of_event (f := fun s => s.tick order) rfl running, tick_minuted unset idle minute order⟩
  · intro ticked left
    exact ⟨_, exec_of_event (f := fun s => s.tick (.timetable :: order)) rfl running, tick_timetable_minuted idle minute order,
      changesOnly_tick s _⟩

end Sys2Proof.Machine
end

section
/-! PROOFS. Frames of port A that are acted on and passed on: cues (O37). -/

namespace Sys2Proof.Machine

variable {s t u v : State} {i j : Fin 64} {g h : Fin 16} {p : TrunkPort} {f : TrunkFrame} {own kind station hops : Byte} {body : List Byte}

/-! ### A frame counted and passed on (R150 to R152) -/

/-- R150: a frame is counted, and nothing else moves. -/
theorem countAccepted_leaves (s : State) (p : TrunkPort) (f : TrunkFrame) : s.changesOnly (s.countAccepted p f) [.trunk] ∧
    (s.countAccepted p f).trunk = s.trunk.setCounts p { s.trunk.counts p with
      received := min 65535 ((s.trunk.counts p).received + 1)
      foreign := if foreignKind f.kind then min 65535 ((s.trunk.counts p).foreign + 1) else (s.trunk.counts p).foreign } :=
  ⟨changesOnly_count (by simp) _ _ changesOnly_refl, rfl⟩

/-- R151, R152: what passing a frame of port A on leaves. -/
theorem passOn_leaves (u : State) (f : TrunkFrame) : u.passedOn (u.passOn .a f) f ∧
    (u.passOn .a f).trunk = { u.trunk with
      bOut := (u.passOn .a f).trunk.bOut
      countsA := { u.trunk.countsA with hopExpiries := (u.passOn .a f).trunk.countsA.hopExpiries } } ∧
    u.onlyNotices (u.passOn .a f) ∧ u.records.grows (u.passOn .a f).records ∧ u.changesOnly (u.passOn .a f) [.trunk, .records] := by
  have frame : u.changesOnly (u.passOn .a f) [.trunk, .records] := changesOnly_passOn (by simp) (by simp) _ _ changesOnly_refl
  unfold State.passOn hopCount at *
  split
  next none =>
    exact ⟨⟨fun _ => ⟨rfl, rfl⟩, fun some => absurd none (Nat.ne_of_gt some)⟩, rfl, onlyNotices_refl _, RecordUnit.grows_refl _,
      changesOnly_count (by simp) _ _ changesOnly_refl⟩
  next some =>
    dsimp only [State.offerB]
    split
    next room =>
      have room' : u.trunk.bOut.frames.length < 8 := of_decide_eq_true room
      refine ⟨⟨fun none => absurd none some, fun _ => ⟨rfl, fun _ => rfl, fun full => absurd room' (Nat.not_lt.mpr full)⟩⟩, rfl,
        onlyNotices_refl _, RecordUnit.grows_refl _, changesOnly_setTrunk _ (by simp) changesOnly_refl⟩
    next full =>
      have full' : ¬u.trunk.bOut.frames.length < 8 := fun room => full (decide_eq_true room)
      refine ⟨⟨fun none => absurd none some, fun _ => ⟨rfl, fun room => absurd room full', fun _ => ⟨rfl, ?_⟩⟩⟩, rfl,
        onlyNotices_raise (t := u.setTrunk _) .trunkDrop rfl, RecordUnit.grows_raise _ _,
        changesOnly_raise _ (by simp) (changesOnly_setTrunk _ (by simp) changesOnly_refl)⟩
      exact notified_raise (t := u.setTrunk _) (RecordUnit.grows_refl _) .trunkDrop (RecordUnit.grows_refl _)

/-- Passing on is judged from before the frame was acted on. -/
theorem passedOn_of (bOut : u.trunk.bOut = s.trunk.bOut) (expiries : u.trunk.countsA.hopExpiries = s.trunk.countsA.hopExpiries)
    (grown : s.records.grows u.records) (h : u.passedOn t f) : s.passedOn t f := by
  unfold State.passedOn State.notified at h ⊢
  rw [bOut, expiries, grown.1] at h
  exact h

theorem frameFromA_taken (running : s.resetAsserted = false) (fits : body.length ≤ 240) :
    s.frameFromA kind station hops body = s.acceptedFrame .a (.make kind station hops body) := by
  have fits' : body.length ≤ Config.bodyCap := fits
  unfold State.frameFromA
  rw [if_neg (by simp [running]), if_pos fits']

/-- R151, R154: a frame that the part does not consume is acted on, then passed on. -/
theorem acceptedFrame_shared (named : s.trunk.station = some own) (shared : consumed own f = false) :
    s.acceptedFrame .a f = ((s.countAccepted .a f).actOn own f).passOn .a f := by
  unfold State.acceptedFrame
  rw [named]
  exact if_neg (by simp [shared])

/-- R154: a frame that the part consumes is acted on alone. -/
theorem acceptedFrame_consumed (named : s.trunk.station = some own) (mine : consumed own f = true) :
    s.acceptedFrame .a f = (s.countAccepted .a f).actOn own f := by
  unfold State.acceptedFrame
  rw [named]
  exact if_pos mine

/-- R153: a pass-through station passes every frame on. -/
theorem acceptedFrame_through (through : s.trunk.station = none) : s.acceptedFrame .a f = (s.countAccepted .a f).passOn .a f := by
  unfold State.acceptedFrame
  rw [through]

theorem frameFromA_acts (running : s.resetAsserted = false) (named : s.trunk.station = some own) (fits : body.length ≤ 240)
    (shared : consumed own (.make kind station hops body) = false) : s.frameFromA kind station hops body =
      ((s.countAccepted .a (.make kind station hops body)).actOn own (.make kind station hops body)).passOn .a (.make kind station hops body) :=
  (frameFromA_taken running fits).trans (acceptedFrame_shared named shared)

/-- What is left when a frame has been acted on, without a trace at the trunk, and passed on. -/
theorem acted_passed (trunk : u.trunk = (s.countAccepted .a f).trunk) (grown : s.records.grows u.records) :
    s.passedOn (u.passOn .a f) f ∧ (u.passOn .a f).trunk.countsA.received = min 65535 (s.trunk.countsA.received + 1) ∧
    (u.passOn .a f).trunk.aOut = s.trunk.aOut := by
  obtain ⟨passed, left, -⟩ := passOn_leaves u f
  have counted := trunk.trans (countAccepted_leaves s .a f).2
  rw [left]
  refine ⟨passedOn_of ?_ ?_ grown passed, ?_, ?_⟩ <;> rw [counted] <;> rfl

/-- What a frame passed on leaves of a group's selection. -/
theorem showsSelection_passOn (shows : u.showsSelection g) : (u.passOn .a f).showsSelection g := by
  obtain ⟨-, -, -, -, frame⟩ := passOn_leaves u f
  exact (showsSelection_congr (frame.2.2 .tables (by decide)) (frame.2.2 .time (by decide))
    (shownStands_of_groups (frame.2.2 .groups (by decide)) g)).mpr shows

/-! ### A CUE frame (R105) -/

theorem setActive_get (tb : Timetable) (g : Fin 16) (c : Option ActiveCue) : (tb.setActive g c).active.get g = c :=
  Vector.getElem_set_self g.isLt

theorem setActive_get_ne (tb : Timetable) {g h : Fin 16} (hne : h ≠ g) (c : Option ActiveCue) :
    (tb.setActive g c).active.get h = tb.active.get h :=
  Vector.getElem_set_ne g.isLt h.isLt fun same => hne (Fin.ext same.symm)

theorem cueTakes_iff {tb : Timetable} {e : CueEntry} :
    tb.cueTakes e = true ↔ ∀ c, tb.active.get e.group = some c → c.priority ≤ e.priority := by
  unfold Timetable.cueTakes
  cases tb.active.get e.group <;> simp

/-- R105: the active cue that an entry sets. -/
def State.cueOf (s : State) (e : CueEntry) : ActiveCue :=
  ⟨e.number, e.plan, e.priority, s.time.day * 864000 + s.time.nt + 600 * e.duration⟩

/-- What entries of distinct groups, taken in turn from `s`, have left. -/
structure CuesApplied (s : State) (es : List CueEntry) (a : State × List (Fin 16)) : Prop where
  frame : s.changesOnly a.1 [.tables, .records]
  grown : s.records.grows a.1.records
  only : a.1.tables = { s.tables with active := a.1.tables.active }
  others : ∀ g, (∀ e ∈ es, e.group ≠ g) → a.1.tables.active.get g = s.tables.active.get g
  taken : ∀ e ∈ es, s.tables.cueTakes e = true → a.1.tables.active.get e.group = some (s.cueOf e) ∧ e.group ∈ a.2
  ignored : ∀ e ∈ es, s.tables.cueTakes e = false → a.1.tables.active.get e.group = s.tables.active.get e.group ∧ s.notified a.1 .cueIgnored

theorem CuesApplied.snoc {es : List CueEntry} {a : State × List (Fin 16)} (h : CuesApplied s es a) {e : CueEntry}
    (fresh : ∀ d ∈ es, d.group ≠ e.group) : CuesApplied s (es ++ [e]) (State.applyCue a e) := by
  have before : a.1.tables.active.get e.group = s.tables.active.get e.group := h.others _ fresh
  have takes : a.1.tables.cueTakes e = s.tables.cueTakes e := by rw [Bool.eq_iff_iff, cueTakes_iff, cueTakes_iff, before]
  have time : a.1.time = s.time := h.frame.2.2 .time (by decide)
  unfold State.applyCue
  dsimp only
  rw [takes]
  split
  next sets =>
    have cue : (⟨e.number, e.plan, e.priority, a.1.time.ref + Config.minuteDs * e.duration⟩ : ActiveCue) = s.cueOf e := by rw [time]; rfl
    rw [cue]
    refine ⟨changesOnly_setTables _ (by simp) h.frame, h.grown, ?_, fun g absent => ?_, fun d mem takes => ?_, fun d mem leaves => ?_⟩
    · rw [State.setTables_tables, Timetable.setActive]
      conv_lhs => rw [h.only]
    · rw [State.setTables_tables, setActive_get_ne _ (absent e (by simp)).symm]
      exact h.others g fun d mem => absent d (by simp [mem])
    · rw [State.setTables_tables]
      rcases List.mem_append.mp mem with mem | mem
      · obtain ⟨set, listed⟩ := h.taken d mem takes
        exact ⟨(setActive_get_ne _ (fresh d mem) _).trans set, List.mem_append_left _ listed⟩
      · rw [List.mem_singleton.mp mem]
        exact ⟨setActive_get _ _ _, List.mem_append_right _ (List.mem_singleton_self _)⟩
    · rcases List.mem_append.mp mem with mem | mem
      · obtain ⟨same, told⟩ := h.ignored d mem leaves
        exact ⟨(setActive_get_ne _ (fresh d mem) _).trans same, told⟩
      · rw [List.mem_singleton.mp mem, sets] at leaves
        exact nomatch leaves
  next leaves =>
    have raised := RecordUnit.grows_raise a.1.records .cueIgnored
    refine ⟨changesOnly_raise _ (by simp) h.frame, RecordUnit.grows_trans h.grown raised, h.only, fun g absent => ?_, fun d mem takes => ?_,
      fun d mem _ => ?_⟩
    · exact h.others g fun d mem => absent d (by simp [mem])
    · rcases List.mem_append.mp mem with mem | mem
      · exact h.taken d mem takes
      · rw [List.mem_singleton.mp mem] at takes
        exact absurd takes leaves
    · rcases List.mem_append.mp mem with mem | mem
      · obtain ⟨same, told⟩ := h.ignored d mem ‹_›
        exact ⟨same, notified_of_grows told raised⟩
      · rw [List.mem_singleton.mp mem]
        exact ⟨before, notified_raise h.grown .cueIgnored (RecordUnit.grows_refl _)⟩

theorem cuesApplied_foldl (es : List CueEntry) : ∀ (done : List CueEntry) (a : State × List (Fin 16)), CuesApplied s done a →
    (done ++ es).Pairwise (fun a b => a.group ≠ b.group) → CuesApplied s (done ++ es) (es.foldl State.applyCue a) := by
  induction es with
  | nil => exact fun done a h _ => (List.append_nil done).symm ▸ h
  | cons e es ih =>
    intro done a h distinct
    have fresh : ∀ d ∈ done, d.group ≠ e.group := fun d mem =>
      (List.pairwise_append.mp distinct).2.2 d mem e List.mem_cons_self
    have regroup : done ++ e :: es = (done ++ [e]) ++ es := by simp
    rw [regroup] at distinct ⊢
    exact ih _ _ (h.snoc fresh) distinct

/-- R105: entries of one number have distinct groups. -/
theorem cuesOf_distinct {tb : Timetable} (ordered : tb.ordered) (n : Nat) : (tb.cuesOf n).Pairwise fun a b => a.group ≠ b.group := by
  have keys : tb.cues.Pairwise fun a b => a.key < b.key := ordered.2.2.2.2.2.2.2.2.1
  refine (keys.sublist List.filter_sublist).imp_of_mem fun {a b} ha hb below same => ?_
  have number : a.number = b.number := by
    have na := (List.mem_filter.mp ha).2
    have nb := (List.mem_filter.mp hb).2
    simp only [beq_iff_eq] at na nb
    exact na.trans nb.symm
  exact absurd below (Nat.not_lt.mpr (CueEntry.key_eq_iff.mpr ⟨number, same⟩).ge)

/-- R105: a CUE frame while time is set. -/
theorem takeCue_leaves (timeSet : s.time.disc ≠ .unset) {n : Nat} (named : n ≠ 0) (ordered : s.tables.ordered) :
    (s.takeCue n).tables = { s.tables with active := (s.takeCue n).tables.active } ∧
    (∀ g, (∀ e ∈ s.tables.cues, ¬(e.number = n ∧ e.group = g)) → (s.takeCue n).tables.active.get g = s.tables.active.get g) ∧
    ∀ e ∈ s.tables.cues, e.number = n →
      ((∀ c, s.tables.active.get e.group = some c → c.priority ≤ e.priority) →
        (s.takeCue n).tables.active.get e.group = some (s.cueOf e) ∧ (s.takeCue n).showsSelection e.group) ∧
      ∀ c, s.tables.active.get e.group = some c → e.priority < c.priority →
        (s.takeCue n).tables.active.get e.group = some c ∧ s.notified (s.takeCue n) .cueIgnored := by
  have start : CuesApplied s [] (s, []) := ⟨changesOnly_refl, RecordUnit.grows_refl _, rfl, fun _ _ => rfl, nofun, nofun⟩
  have applied := cuesApplied_foldl (s.tables.cuesOf n) [] _ start (cuesOf_distinct ordered n)
  rw [List.nil_append] at applied
  have taken : s.takeCue n = ((s.tables.cuesOf n).foldl State.applyCue (s, [])).1.evaluateNow
      ((s.tables.cuesOf n).foldl State.applyCue (s, [])).2 := if_pos ⟨isSet_iff.mpr timeSet, named⟩
  rw [taken]
  generalize (s.tables.cuesOf n).foldl State.applyCue (s, []) = a at applied
  have tables : (a.1.evaluateNow a.2).tables = a.1.tables := (evaluateNow_frame a.1 a.2).2.2 .tables (by decide)
  have set : a.1.time.disc ≠ .unset := by rwa [applied.frame.2.2 .time (by decide)]
  have later : a.1.records.grows (a.1.evaluateNow a.2).records := (engineClosed_grows _).evaluateNow _ (RecordUnit.grows_refl _)
  have listed : ∀ e, e ∈ s.tables.cuesOf n ↔ e ∈ s.tables.cues ∧ e.number = n := fun e => by
    rw [Timetable.cuesOf, List.mem_filter, beq_iff_eq]
  rw [tables]
  refine ⟨applied.only, fun g absent => applied.others g fun e mem => ?_, fun e mem number => ⟨fun above => ?_, fun c held below => ?_⟩⟩
  · obtain ⟨mem, number⟩ := (listed e).mp mem
    exact fun same => absent e mem ⟨number, same⟩
  · obtain ⟨set', group⟩ := applied.taken e ((listed e).mpr ⟨mem, number⟩) (cueTakes_iff.mpr above)
    exact ⟨set', evaluateNow_showsSelection _ set group⟩
  · have leaves : s.tables.cueTakes e = false := by
      rw [← Bool.not_eq_true, cueTakes_iff]
      exact fun above => absurd below (Nat.not_lt.mpr (above c held))
    obtain ⟨same, told⟩ := applied.ignored e ((listed e).mpr ⟨mem, number⟩) leaves
    exact ⟨same.trans held, notified_of_grows told later⟩

/-! ### A CUE CANCEL frame (R106) -/

theorem foldl_clearActive (gs : List (Fin 16)) : ∀ tb : Timetable,
    gs.foldl (fun tb g => tb.setActive g none) tb = { tb with active := (gs.foldl (fun tb g => tb.setActive g none) tb).active } ∧
    ∀ h, (gs.foldl (fun tb g => tb.setActive g none) tb).active.get h = if h ∈ gs then none else tb.active.get h := by
  induction gs with
  | nil => exact fun tb => ⟨rfl, fun _ => rfl⟩
  | cons g gs ih =>
    intro tb
    obtain ⟨only, each⟩ := ih (tb.setActive g none)
    refine ⟨only, fun h => ?_⟩
    rw [List.foldl_cons, each]
    by_cases same : h = g
    · rw [same, setActive_get]
      simp
    · rw [setActive_get_ne _ same]
      simp [same]

theorem takeCancel_leaves (s : State) (n : Nat) :
    (s.takeCancel n).tables = { s.tables with active := (s.takeCancel n).tables.active } ∧
    (∀ g c, s.tables.active.get g = some c → c.number = n →
      (s.takeCancel n).tables.active.get g = none ∧ (s.time.disc ≠ .unset → (s.takeCancel n).showsSelection g)) ∧
    ∀ g, (∀ c, s.tables.active.get g = some c → c.number ≠ n) → (s.takeCancel n).tables.active.get g = s.tables.active.get g := by
  obtain ⟨only, each⟩ := foldl_clearActive (s.tables.groupsWithCue n) s.tables
  have taken : s.takeCancel n = (s.setTables ((s.tables.groupsWithCue n).foldl (fun tb g => tb.setActive g none) s.tables)).evaluateNow
      (s.tables.groupsWithCue n) := rfl
  have holds : ∀ g, g ∈ s.tables.groupsWithCue n ↔ ∃ c, s.tables.active.get g = some c ∧ c.number = n := fun g => by
    simp [Timetable.groupsWithCue, Option.any_eq_true]
  rw [taken]
  generalize (s.tables.groupsWithCue n).foldl (fun tb g => tb.setActive g none) s.tables = tb at only each
  have tables : ((s.setTables tb).evaluateNow (s.tables.groupsWithCue n)).tables = tb := (evaluateNow_frame _ _).2.2 .tables (by decide)
  rw [tables]
  refine ⟨only, fun g c held number => ?_, fun g free => ?_⟩
  · have listed := (holds g).mpr ⟨c, held, number⟩
    exact ⟨(each g).trans (if_pos listed), fun timeSet => evaluateNow_showsSelection (s.setTables tb) timeSet listed⟩
  · refine (each g).trans (if_neg fun listed => ?_)
    obtain ⟨c, held, number⟩ := (holds g).mp listed
    exact free c held number

/-- Settles O37: the frame acted on, then passed on. -/
theorem cueFramesAct : Obligations.CueFramesAct := by
  refine ⟨fun s station hops n running named ordered => ?_, fun s station hops n running named => ?_⟩
  · obtain ⟨own, station'⟩ := Option.isSome_iff_exists.mp named
    obtain ⟨first, -⟩ := countAccepted_leaves s .a (.make 0x02#8 station hops [n])
    generalize hs1 : s.countAccepted .a (.make 0x02#8 station hops [n]) = s1 at first
    have acted : exec (.cue station hops [n]) s = .next ((s1.takeCue n.toNat).passOn .a (.make 0x02#8 station hops [n])) := by
      rw [← hs1]
      exact congrArg Host.Outcome.next (frameFromA_acts running station' (by simp) rfl)
    have cued : s1.changesOnly (s1.takeCue n.toNat) (.tables :: Block.engine) := changesOnly_takeCue _ (by simp) (by simp) changesOnly_refl
    have records : s1.records = s.records := first.2.2 .records (by decide)
    have tables : s1.tables = s.tables := first.2.2 .tables (by decide)
    have time : s1.time = s.time := first.2.2 .time (by decide)
    have grown : s.records.grows (s1.takeCue n.toNat).records := by
      rw [← records]
      unfold State.takeCue
      split
      · refine (engineClosed_grows _).evaluateNow _ (List.foldlRecOn (motive := fun a : State × List (Fin 16) => s1.records.grows a.1.records)
          _ _ (RecordUnit.grows_refl _) fun a ha e _ => ?_)
        unfold State.applyCue
        dsimp only
        split
        · exact ha
        · exact RecordUnit.grows_trans ha (RecordUnit.grows_raise _ _)
      · exact RecordUnit.grows_refl _
    obtain ⟨passed, received, -⟩ := acted_passed (f := .make 0x02#8 station hops [n]) (hs1 ▸ cued.2.2 .trunk (by decide)) grown
    obtain ⟨-, -, -, later, frame⟩ := passOn_leaves (s1.takeCue n.toNat) (.make 0x02#8 station hops [n])
    refine ⟨_, acted, passed, received, fun unread => ?_, fun timeSet nonzero => ?_⟩
    · have none : s1.takeCue n.toNat = s1 := by
        refine if_neg fun both => ?_
        rcases unread with unset | zero
        · exact isSet_iff.mp both.1 (time ▸ unset)
        · exact both.2 (by rw [zero]; rfl)
      rw [none] at frame ⊢
      exact changesOnly_trans (changesOnly_mono first (by simp)) frame
    · have nonzero' : n.toNat ≠ 0 := fun zero => nonzero (BitVec.eq_of_toNat_eq zero)
      obtain ⟨only, others, entries⟩ := takeCue_leaves (s := s1) (by rw [time]; exact timeSet) nonzero' (by rw [tables]; exact ordered)
      have after : ((s1.takeCue n.toNat).passOn .a (.make 0x02#8 station hops [n])).tables = (s1.takeCue n.toNat).tables :=
        frame.2.2 .tables (by decide)
      have cue : ∀ e, s1.cueOf e = s.cueOf e := fun e => by rw [State.cueOf, State.cueOf, time]
      rw [tables] at only others entries
      rw [after]
      refine ⟨only, others, fun e mem number => ⟨fun above => ?_, fun c held below => ?_⟩,
        changesOnly_trans (changesOnly_mono first (by simp)) (changesOnly_trans (changesOnly_mono cued (by decide)) (changesOnly_mono frame (by decide)))⟩
      · obtain ⟨set, shows⟩ := (entries e mem number).1 above
        exact ⟨set.trans (congrArg some (cue e)), showsSelection_passOn shows⟩
      · obtain ⟨same, told⟩ := (entries e mem number).2 c held below
        refine ⟨same, notified_of_grows ?_ later⟩
        unfold State.notified at told ⊢
        rwa [records] at told
  · obtain ⟨own, station'⟩ := Option.isSome_iff_exists.mp named
    obtain ⟨first, -⟩ := countAccepted_leaves s .a (.make 0x03#8 station hops [n])
    generalize hs1 : s.countAccepted .a (.make 0x03#8 station hops [n]) = s1 at first
    have acted : exec (.cueCancel station hops [n]) s = .next ((s1.takeCancel n.toNat).passOn .a (.make 0x03#8 station hops [n])) := by
      rw [← hs1]
      exact congrArg Host.Outcome.next (frameFromA_acts running station' (by simp) rfl)
    have cancelled : s1.changesOnly (s1.takeCancel n.toNat) (.tables :: Block.engine) :=
      changesOnly_takeCancel _ (by simp) (by simp) changesOnly_refl
    have grown : s.records.grows (s1.takeCancel n.toNat).records := by
      rw [← first.2.2 .records (by decide)]
      exact (engineClosed_grows _).evaluateNow _ (RecordUnit.grows_refl _)
    obtain ⟨passed, received, -⟩ := acted_passed (f := .make 0x03#8 station hops [n]) (hs1 ▸ cancelled.2.2 .trunk (by decide)) grown
    obtain ⟨-, -, -, -, frame⟩ := passOn_leaves (s1.takeCancel n.toNat) (.make 0x03#8 station hops [n])
    obtain ⟨only, cleared, others⟩ := takeCancel_leaves s1 n.toNat
    have after : ((s1.takeCancel n.toNat).passOn .a (.make 0x03#8 station hops [n])).tables = (s1.takeCancel n.toNat).tables :=
      frame.2.2 .tables (by decide)
    rw [first.2.2 .tables (by decide)] at only cleared others
    rw [first.2.2 .time (by decide)] at cleared
    refine ⟨_, acted, passed, received, after.trans ?_, fun g c held number => ?_, fun g free => ?_,
      changesOnly_trans (changesOnly_mono first (by simp)) (changesOnly_trans (changesOnly_mono cancelled (by decide)) (changesOnly_mono frame (by decide)))⟩
    · rw [after]
      exact only
    · obtain ⟨none, shows⟩ := cleared g c held number
      exact ⟨by rw [after]; exact none, fun timeSet => showsSelection_passOn (shows timeSet)⟩
    · rw [after]
      exact others g free

end Sys2Proof.Machine
end

section
/-! PROOFS. Time marks (O7). -/

namespace Sys2Proof.Machine

variable {s t u v : State} {i j : Fin 64} {g h : Fin 16} {k : Notice} {station hops : Byte} {x : TimeBase}

/-! ### The bytes of a mark -/

theorem beHalf_halfBytes (x : Half) : beHalf (hiByte x) (loByte x) = x := by
  unfold beHalf hiByte loByte
  ext i hi
  simp only [BitVec.getElem_append, BitVec.getElem_extractLsb']
  split
  · simp [BitVec.getElem_eq_testBit_toNat, BitVec.getLsbD]
  · rw [Nat.add_sub_cancel' (by omega)]
    simp [BitVec.getElem_eq_testBit_toNat, BitVec.getLsbD]

theorem beHalf_num2 (n : Nat) : (beHalf (hiByte (BitVec.ofNat 16 n)) (loByte (BitVec.ofNat 16 n))).toNat = n % 65536 := by
  rw [beHalf_halfBytes, BitVec.toNat_ofNat]

/-- R156: the body of a mark is read as it was written. -/
theorem markOfBody_of {nt : Nat} (low : nt < 4294967296) (day : Option Nat) :
    markOfBody (num4 nt ++ day.elim [] num2) = some ⟨nt, day.map (· % 65536)⟩ := by
  have whole : nt / 65536 % 65536 * 65536 + nt % 65536 = nt := by omega
  have clock : (beHalf (hiByte (BitVec.ofNat 16 (nt / 65536))) (loByte (BitVec.ofNat 16 (nt / 65536)))).toNat * 65536 +
      (beHalf (hiByte (BitVec.ofNat 16 nt)) (loByte (BitVec.ofNat 16 nt))).toNat = nt := by
    rw [beHalf_num2, beHalf_num2, whole]
  cases day with
  | none => exact congrArg (fun n => some (Mark.mk n none)) clock
  | some n => exact congrArg₂ (fun n d => some (Mark.mk n (some d))) clock (beHalf_num2 n)

theorem map_mod_of_lt {day : Option Nat} (days : ∀ n, day = some n → n < 65536) : day.map (· % 65536) = day := by
  cases day with
  | none => rfl
  | some n => exact congrArg some (Nat.mod_eq_of_lt (days n rfl))

theorem mark_body_length (nt : Nat) (day : Option Nat) : (num4 nt ++ day.elim [] num2).length ≤ 240 := by
  cases day <;> simp [num4, num2, halfBytes]

/-! ### What a mark gives (Table 1-3) -/

theorem smallest_of_le {a b : Int} (le : a.natAbs ≤ b.natAbs) : smallest a b = a := if_neg (Nat.not_lt.mpr le)

theorem smallest_of_lt {a b : Int} (lt : b.natAbs < a.natAbs) : smallest a b = b := if_pos lt

/-- R7: a mark without a day in UNSET, and one with a day, is read as it stands. -/
theorem difference_of_unset (unset : x.disc = .unset) (nt : Nat) : x.difference ⟨nt, none⟩ = (nt : Int) - x.nt := by
  simp [TimeBase.difference, TimeBase.isSet, unset]

theorem difference_of_set (set : x.disc ≠ .unset) (nt : Nat) : x.difference ⟨nt, none⟩ =
    smallest (smallest ((nt : Int) - x.nt) ((nt : Int) - x.nt + 864000)) ((nt : Int) - x.nt - 864000) := by
  simp [TimeBase.difference, TimeBase.isSet, set, Config.dayDs]

/-- R7: the day of a mark without one, by where its difference places it. -/
theorem markDay_of_same {nt : Nat} (same : x.difference ⟨nt, none⟩ = (nt : Int) - x.nt) : x.markDay ⟨nt, none⟩ = x.day := if_pos same

theorem markDay_of_after {nt : Nat} (after : x.difference ⟨nt, none⟩ = (nt : Int) - x.nt + 864000) :
    x.markDay ⟨nt, none⟩ = (x.day + 1) % 65536 := by
  have moved : (nt : Int) - x.nt + 864000 ≠ (nt : Int) - x.nt := by omega
  exact (if_neg (after ▸ moved)).trans (if_pos after)

theorem markDay_of_before {nt : Nat} (before : x.difference ⟨nt, none⟩ = (nt : Int) - x.nt - 864000) :
    x.markDay ⟨nt, none⟩ = (x.day + 65535) % 65536 := by
  have moved : (nt : Int) - x.nt - 864000 ≠ (nt : Int) - x.nt := by omega
  have back : (nt : Int) - x.nt - 864000 ≠ (nt : Int) - x.nt + 864000 := by omega
  exact (if_neg (before ▸ moved)).trans (if_neg (before ▸ back))

/-- R7: the difference and the mark day. -/
theorem markReads_eq {nt : Nat} {day : Option Nat} {d : Int} {markDay : Nat} (reads : x.markReads nt day d markDay) :
    x.difference ⟨nt, day⟩ = d ∧ x.markDay ⟨nt, day⟩ = markDay := by
  cases day with
  | some n => exact ⟨reads.1.symm, reads.2.symm⟩
  | none =>
    rcases reads with ⟨unset, hd, hm⟩ | ⟨set, ⟨after, before, hd, hm⟩ | ⟨near, before, hd, hm⟩ | ⟨near, nearer, hd, hm⟩⟩ <;> rw [hd, hm]
    · have as := difference_of_unset unset nt
      exact ⟨as, markDay_of_same as⟩
    · have as := difference_of_set set nt
      rw [smallest_of_le after, smallest_of_le before] at as
      exact ⟨as, markDay_of_same as⟩
    · have as := difference_of_set set nt
      rw [smallest_of_lt near, smallest_of_le before] at as
      exact ⟨as, markDay_of_after as⟩
    · have as := difference_of_set set nt
      rw [smallest_of_lt] at as
      · exact ⟨as, markDay_of_before as⟩
      · unfold smallest
        split <;> assumption

/-- R7, R6: the time base with the difference recorded, and with the step to a mark. -/
def TimeBase.noted (x : TimeBase) (d : Int) : TimeBase := { x with lastDiff := some (max (-32768) (min 32767 d)) }

def TimeBase.jumped (x : TimeBase) (d : Int) (nt markDay : Nat) : TimeBase :=
  { x.noted d with nt := nt, day := markDay, slew := 0, phase := nt % 10 }

/-- Table 1-3: where a mark of difference `d` raises TIME_LOCKED, where it raises TIME_STEP, and where it steps. -/
def TimeBase.locksAt (x : TimeBase) (d : Int) : Prop :=
  (x.disc = .acquire ∧ d.natAbs ≤ 5 ∧ 2 ≤ x.agree) ∨ (x.disc = .holdover ∧ d.natAbs ≤ 20)

def TimeBase.breaksAt (x : TimeBase) (d : Int) : Prop :=
  (x.disc = .locked ∧ 20 < d.natAbs ∧ 2 ≤ x.outliers) ∨ (x.disc = .holdover ∧ 20 < d.natAbs)

def TimeBase.stepsAt (x : TimeBase) (d : Int) : Prop := x.disc = .unset ∨ (x.disc = .acquire ∧ 5 < d.natAbs) ∨ x.breaksAt d

section
variable {nt markDay : Nat} {day : Option Nat} {d : Int}

/-- Table 1-3, by the discipline state and the difference. -/
theorem takeMark_of_unset (reads : x.markReads nt day d markDay) (valid : nt < 864000) (unset : x.disc = .unset) :
    x.takeMark ⟨nt, day⟩ = ⟨{ x.jumped d nt markDay with disc := .acquire, agree := 0, outliers := 0, age := 0 }, true, none⟩ := by
  obtain ⟨rfl, rfl⟩ := markReads_eq reads
  simp [TimeBase.takeMark, TimeBase.takeValid, valid, unset, TimeBase.jumped, TimeBase.noted, TimeBase.stepTo, clipDifference,
    Config.dayDs, Config.ticksPerSecond]

theorem takeMark_of_acquire (reads : x.markReads nt day d markDay) (valid : nt < 864000) (acquire : x.disc = .acquire) :
    x.takeMark ⟨nt, day⟩ =
      if d.natAbs ≤ 5 then
        if 2 ≤ x.agree then
          ⟨{ x.noted d with disc := .locked, agree := 0, outliers := 0, slew := d, age := 0 }, false, some .timeLocked⟩
        else ⟨{ x.noted d with agree := x.agree + 1, slew := d, age := 0 }, false, none⟩
      else ⟨{ x.jumped d nt markDay with agree := 0, age := 0 }, true, none⟩ := by
  obtain ⟨rfl, rfl⟩ := markReads_eq reads
  simp [TimeBase.takeMark, TimeBase.takeValid, valid, acquire, TimeBase.jumped, TimeBase.noted, TimeBase.stepTo, clipDifference,
    Config.dayDs, Config.ticksPerSecond, Config.agreeWindow, Config.runOfThree]

theorem takeMark_of_locked (reads : x.markReads nt day d markDay) (valid : nt < 864000) (locked : x.disc = .locked) :
    x.takeMark ⟨nt, day⟩ =
      if d.natAbs ≤ 20 then ⟨{ x.noted d with slew := d, outliers := 0, age := 0 }, false, none⟩
      else if 2 ≤ x.outliers then
        ⟨{ x.jumped d nt markDay with disc := .acquire, agree := 0, outliers := 0, age := 0 }, true, some .timeStep⟩
      else ⟨{ x.noted d with outliers := x.outliers + 1 }, false, none⟩ := by
  obtain ⟨rfl, rfl⟩ := markReads_eq reads
  simp [TimeBase.takeMark, TimeBase.takeValid, valid, locked, TimeBase.jumped, TimeBase.noted, TimeBase.stepTo, clipDifference,
    Config.dayDs, Config.ticksPerSecond, Config.acceptWindow, Config.runOfThree]

theorem takeMark_of_holdover (reads : x.markReads nt day d markDay) (valid : nt < 864000) (holdover : x.disc = .holdover) :
    x.takeMark ⟨nt, day⟩ =
      if d.natAbs ≤ 20 then ⟨{ x.noted d with disc := .locked, slew := d, outliers := 0, age := 0 }, false, some .timeLocked⟩
      else ⟨{ x.jumped d nt markDay with disc := .acquire, agree := 0, outliers := 0, age := 0 }, true, some .timeStep⟩ := by
  obtain ⟨rfl, rfl⟩ := markReads_eq reads
  simp [TimeBase.takeMark, TimeBase.takeValid, valid, holdover, TimeBase.jumped, TimeBase.noted, TimeBase.stepTo, clipDifference,
    Config.dayDs, Config.ticksPerSecond, Config.acceptWindow]

/-- R6, Table 1-3: where a mark steps, and its notice; a time base that stepped is set. -/
theorem takeMark_outcome (reads : x.markReads nt day d markDay) (valid : nt < 864000) :
    ((x.takeMark ⟨nt, day⟩).stepped = true ↔ x.stepsAt d) ∧
    (∀ k, (x.takeMark ⟨nt, day⟩).notice = some k ↔ (k = .timeLocked ∧ x.locksAt d) ∨ (k = .timeStep ∧ x.breaksAt d)) ∧
    (x.takeMark ⟨nt, day⟩).time.disc ≠ .unset := by
  unfold TimeBase.stepsAt TimeBase.breaksAt TimeBase.locksAt
  cases disc : x.disc
  case unset => rw [takeMark_of_unset reads valid disc]; simp
  case acquire =>
    rw [takeMark_of_acquire reads valid disc]
    by_cases near : d.natAbs ≤ 5
    · by_cases run : 2 ≤ x.agree <;> simp [near, run, TimeBase.noted, disc, eq_comm]
    · simp [near, TimeBase.jumped, TimeBase.noted, disc]; omega
  case locked =>
    rw [takeMark_of_locked reads valid disc]
    by_cases near : d.natAbs ≤ 20
    · simp [near, TimeBase.noted, disc]
    · by_cases run : 2 ≤ x.outliers <;> simp [near, run, TimeBase.noted, disc, eq_comm]
      omega
  case holdover =>
    rw [takeMark_of_holdover reads valid disc]
    by_cases near : d.natAbs ≤ 20 <;> simp [near, eq_comm]
    omega

end

/-! ### The notices of the time base (Table 1-3) -/

/-- From `u` to `w` the mask stands, and so do the pending notices of the time base. -/
def RecordUnit.sameTimes (u w : RecordUnit) : Prop :=
  w.mask = u.mask ∧ ∀ k, timeNotice k → noticeIn w.notices k = noticeIn u.notices k

theorem RecordUnit.sameTimes_refl (u : RecordUnit) : u.sameTimes u := ⟨rfl, fun _ _ => rfl⟩

theorem RecordUnit.sameTimes_trans {u w y : RecordUnit} (h1 : u.sameTimes w) (h2 : w.sameTimes y) : u.sameTimes y :=
  ⟨h2.1.trans h1.1, fun k timed => (h2.2 k timed).trans (h1.2 k timed)⟩

theorem RecordUnit.sameTimes_raise {u : RecordUnit} {k : Notice} (engine : ¬timeNotice k) : u.sameTimes (u.raise k) :=
  ⟨(RecordUnit.grows_raise u k).1, fun k' timed => by
    have apart : k' ≠ k := fun same => engine (same ▸ timed)
    simp [RecordUnit.raise_notices, apart]⟩

/-- R167, R168: a record raises RING_OVERWRITE and RECORD_COUNT alone. -/
theorem RecordUnit.sameTimes_take (u : RecordUnit) (r : TransitionRecord) : u.sameTimes (u.take r) := by
  have placed : u.sameTimes (u.place r) := by
    unfold RecordUnit.place
    split
    · exact ⟨rfl, fun _ _ => rfl⟩
    · exact RecordUnit.sameTimes_raise (u := { u with ring := u.ring.drop 1 ++ [r], overwrites := satAdd u.overwrites 1 })
        (by simp [timeNotice])
  have counted : ∀ w : RecordUnit, w.sameTimes w.countPlaced := by
    intro w
    unfold RecordUnit.countPlaced RecordUnit.countDownZero
    split
    · exact RecordUnit.sameTimes_refl w
    · dsimp only
      split
      · exact RecordUnit.sameTimes_raise (u := { w with countDown := w.countDown - 1 }) (by simp [timeNotice])
      · exact ⟨rfl, fun _ _ => rfl⟩
  unfold RecordUnit.take
  split
  · exact RecordUnit.sameTimes_trans placed (counted _)
  · exact RecordUnit.sameTimes_refl u

theorem tickClosed_sameTimes (r : RecordUnit) : TickClosed fun t => r.sameTimes t.records where
  slots _ :=
    { slot := fun _ _ h _ => h
      read := fun _ _ h _ _ => h
      promote := fun _ _ h => h
      removeEntry := fun _ h => h
      handOver := fun _ _ h => h
      raise := fun _ _ engine h => RecordUnit.sameTimes_trans h (RecordUnit.sameTimes_raise engine)
      record := fun _ _ h _ => RecordUnit.sameTimes_trans h (RecordUnit.sameTimes_take _ _) }
  group _ _ _ h := h
  member _ _ _ h := h
  tables _ _ h _ := h
  scrubOnward _ h := h
  lineSeen _ _ _ h := h

theorem passOn_sameTimes (u : State) (f : TrunkFrame) : u.records.sameTimes (u.passOn .a f).records := by
  unfold State.passOn
  split
  · exact RecordUnit.sameTimes_refl _
  · dsimp only [State.offerB]
    split
    · exact RecordUnit.sameTimes_refl _
    · exact RecordUnit.sameTimes_raise (by simp [timeNotice])

/-! ### What taking a mark leaves -/

/-- What the notices of the time base are after one may have been raised. -/
theorem raiseOpt_notices (u : State) (raised : Option Notice) (k : Notice) : noticeIn (u.raiseOpt raised).records.notices k = true ↔
    noticeIn u.records.notices k = true ∨ (noticeIn u.records.mask k = false ∧ raised = some k) := by
  cases raised with
  | none => simp [State.raiseOpt]
  | some k' =>
    show noticeIn (u.records.raise k').notices k = true ↔ _
    rw [RecordUnit.raise_notices]
    by_cases same : k = k'
    · subst same
      simp
    · simp [same, Ne.symm same]

/-- R6, R8 to R12: the time base, and at most one notice; a mark that steps has the step's effect at the other blocks. -/
theorem takeMark_leaves (s : State) (m : Mark) : (s.takeMark m).time = (s.time.takeMark m).time ∧
    s.records.grows (s.takeMark m).records ∧
    (∀ k, timeNotice k → (noticeIn (s.takeMark m).records.notices k = true ↔ noticeIn s.records.notices k = true ∨
      (noticeIn s.records.mask k = false ∧ (s.time.takeMark m).notice = some k))) ∧
    ((s.time.takeMark m).stepped = false → s.onlyNotices (s.takeMark m) ∧ s.changesOnly (s.takeMark m) [.time, .records]) ∧
    ((s.time.takeMark m).stepped = true → (s.time.takeMark m).time.disc ≠ .unset →
      (∀ i, (s.slot i).run.isSome = true → ((s.takeMark m).slot i).stepFlag = true) ∧ (∀ g, (s.takeMark m).showsSelection g)) := by
  unfold State.takeMark
  generalize s.time.takeMark m = r
  dsimp only
  have noted := raiseOpt_notices (s.setTime r.time) r.notice
  have base : (s.setTime r.time).changesOnly ((s.setTime r.time).raiseOpt r.notice) [.records] ∧
      s.onlyNotices ((s.setTime r.time).raiseOpt r.notice) ∧ s.records.grows ((s.setTime r.time).raiseOpt r.notice).records := by
    cases r.notice with
    | none => exact ⟨changesOnly_refl, onlyNotices_refl s, RecordUnit.grows_refl _⟩
    | some k => exact ⟨changesOnly_raise _ (by simp) changesOnly_refl, onlyNotices_raise (t := s.setTime r.time) k rfl, RecordUnit.grows_raise _ _⟩
  generalize (s.setTime r.time).raiseOpt r.notice = u at noted base
  obtain ⟨left, only, grown⟩ := base
  have timed : u.time = r.time := left.2.2 .time (by decide)
  have slots : ∀ i, u.slot i = s.slot i := fun i => slot_congr (left.2.2 .slots (by decide)) i
  split
  next stepped =>
    have steps := (tickClosed_sameTimes u.records).stepEvent (RecordUnit.sameTimes_refl _)
    have moved : u.changesOnly u.stepEvent (.tables :: Block.engine) := changesOnly_stepEvent (by simp) (by simp) changesOnly_refl
    refine ⟨(moved.2.2 .time (by decide)).trans timed, RecordUnit.grows_trans grown ((tickClosed_grows _).stepEvent (RecordUnit.grows_refl _)),
      fun k kind => ?_, fun still => absurd stepped (by simp [still]), fun _ set => ?_⟩
    · rw [steps.2 k kind]
      exact noted k
    · obtain ⟨-, shows, flags, -, -⟩ := stepEvent_leaves (s := u) (timed ▸ set)
      exact ⟨fun i runs => flags i (slots i ▸ runs), shows⟩
  next still =>
    exact ⟨timed, grown, fun k _ => noted k, fun _ => ⟨only, changesOnly_trans (changesOnly_setTime _ (by simp) changesOnly_refl)
      (changesOnly_mono left (by simp))⟩, fun stepped => absurd stepped still⟩

theorem takeMark_invalid {m : Mark} (invalid : 864000 ≤ m.nt) : s.takeMark m = s := by
  have ignored : s.time.takeMark m = ⟨s.time, false, none⟩ := if_neg (Nat.not_lt.mpr invalid)
  unfold State.takeMark
  rw [ignored]
  rfl

theorem actOn_mark {own : Byte} {f : TrunkFrame} {m : Mark} (kind : f.kind = 0x01#8) (fits : markOfBody f.body = some m) :
    s.actOn own f = s.takeMark m := by
  unfold State.actOn
  rw [if_pos kind, fits]

/-- Settles O7: the mark taken, then the frame passed on. -/
theorem marksSteerTime : Obligations.MarksSteerTime := by
  unfold Obligations.MarksSteerTime
  refine ⟨fun s station hops nt day d markDay running named valid days reads => ?_, fun s station hops nt day running invalid low => ?_⟩
  · intro body
    have written : body = num4 nt ++ day.elim [] num2 := by cases day <;> rfl
    clear_value body
    subst written
    obtain ⟨own, station'⟩ := Option.isSome_iff_exists.mp named
    generalize hf : TrunkFrame.make 0x01#8 station hops (num4 nt ++ day.elim [] num2) = f
    obtain ⟨first, -⟩ := countAccepted_leaves s .a f
    have kind : f.kind = 0x01#8 := by subst hf; rfl
    have body : markOfBody f.body = some ⟨nt, day⟩ := by
      rw [← hf]
      exact (markOfBody_of (by omega) day).trans (by rw [map_mod_of_lt days])
    have acted : exec (.timeMark station hops (num4 nt ++ day.elim [] num2)) s =
        .next (((s.countAccepted .a f).takeMark ⟨nt, day⟩).passOn .a f) := by
      rw [← actOn_mark (own := own) (kind) body, ← hf]
      exact congrArg Host.Outcome.next (frameFromA_acts running station' (mark_body_length nt day) rfl)
    generalize hs1 : s.countAccepted .a f = s1 at first acted
    have records : s1.records = s.records := first.2.2 .records (by decide)
    have time : s1.time = s.time := first.2.2 .time (by decide)
    have slots : ∀ i, s1.slot i = s.slot i := fun i => slot_congr (first.2.2 .slots (by decide)) i
    obtain ⟨taken, grown, notices, quiet, steps⟩ := takeMark_leaves s1 ⟨nt, day⟩
    have frame : s1.changesOnly (s1.takeMark ⟨nt, day⟩) (.time :: .tables :: Block.engine) :=
      changesOnly_takeMark _ (by simp) (by simp) (by simp) changesOnly_refl
    obtain ⟨passed, received, out⟩ := acted_passed (s := s) (f := f) (u := s1.takeMark ⟨nt, day⟩)
      (hs1 ▸ frame.2.2 .trunk (by decide)) (records ▸ grown)
    obtain ⟨-, -, only, -, later⟩ := passOn_leaves (s1.takeMark ⟨nt, day⟩) f
    have silent := passOn_sameTimes (s1.takeMark ⟨nt, day⟩) f
    obtain ⟨stepped, notice, set⟩ := takeMark_outcome reads valid
    have timed : ((s1.takeMark ⟨nt, day⟩).passOn .a f).time = (s.time.takeMark ⟨nt, day⟩).time := by
      rw [later.2.2 .time (by decide), taken, time]
    rw [time] at notices quiet steps
    rw [records] at notices
    refine ⟨_, acted, passed, received, out, ?_⟩
    intro x stepTo locks breaks stepping
    simp only [timed]
    refine ⟨fun unset => ?_, fun acquire near few => ?_, fun acquire near run => ?_, fun acquire far => ?_, fun locked near => ?_,
      fun locked far few => ?_, fun locked far run => ?_, fun holdover near => ?_, fun holdover far => ?_, fun k kind => ?_,
      fun still => ?_, fun steps' => ?_⟩
    · rw [takeMark_of_unset reads valid unset]
      rfl
    · rw [takeMark_of_acquire reads valid acquire, if_pos near, if_neg (by omega)]
      rfl
    · rw [takeMark_of_acquire reads valid acquire, if_pos near, if_pos run]
      rfl
    · rw [takeMark_of_acquire reads valid acquire, if_neg (by omega)]
      rfl
    · rw [takeMark_of_locked reads valid locked, if_pos near]
      rfl
    · rw [takeMark_of_locked reads valid locked, if_neg (by omega), if_neg (by omega)]
      rfl
    · rw [takeMark_of_locked reads valid locked, if_neg (by omega), if_pos run]
      rfl
    · rw [takeMark_of_holdover reads valid holdover, if_pos near]
      rfl
    · rw [takeMark_of_holdover reads valid holdover, if_neg (by omega)]
      rfl
    · rw [silent.2 k kind, notices k kind, notice k]
      exact Iff.rfl
    · have unstepped : (s.time.takeMark ⟨nt, day⟩).stepped = false := by
        rw [← Bool.not_eq_true, stepped]
        exact still
      obtain ⟨only1, frame1⟩ := quiet unstepped
      exact ⟨onlyNotices_trans (onlyNotices_of_records records) (onlyNotices_trans only1 only),
        changesOnly_trans (changesOnly_mono first (by simp)) (changesOnly_trans (changesOnly_mono frame1 (by simp))
          (changesOnly_mono later (by simp)))⟩
    · obtain ⟨flags, shows⟩ := steps (stepped.mpr steps') set
      refine ⟨fun i runs => ?_, fun g => showsSelection_passOn (shows g), changesOnly_trans (changesOnly_mono first (by simp))
        (changesOnly_trans (changesOnly_mono frame (by decide)) (changesOnly_mono later (by decide)))⟩
      rw [slot_congr (later.2.2 .slots (by decide)) i]
      exact flags i (slots i ▸ runs)
  · intro body
    have written : body = num4 nt ++ day.elim [] num2 := by cases day <;> rfl
    clear_value body
    subst written
    generalize hf : TrunkFrame.make 0x01#8 station hops (num4 nt ++ day.elim [] num2) = f
    obtain ⟨first, -⟩ := countAccepted_leaves s .a f
    have kind : f.kind = 0x01#8 := by subst hf; rfl
    have body : markOfBody f.body = some ⟨nt, day.map (· % 65536)⟩ := by rw [← hf]; exact markOfBody_of low day
    have acted : exec (.timeMark station hops (num4 nt ++ day.elim [] num2)) s = .next ((s.countAccepted .a f).passOn .a f) := by
      refine congrArg Host.Outcome.next ((frameFromA_taken running (mark_body_length nt day)).trans ?_)
      rw [hf]
      cases named : s.trunk.station with
      | none => exact acceptedFrame_through named
      | some own =>
        have shared : consumed own f = false := by subst hf; rfl
        rw [acceptedFrame_shared named shared, actOn_mark kind body, takeMark_invalid invalid]
    obtain ⟨passed, received, out⟩ := acted_passed (s := s) (u := s.countAccepted .a f) (f := f) rfl (RecordUnit.grows_refl _)
    obtain ⟨-, -, only, -, later⟩ := passOn_leaves (s.countAccepted .a f) f
    exact ⟨_, acted, passed, received, out, onlyNotices_trans (onlyNotices_of_records (first.2.2 .records (by decide))) only,
      changesOnly_trans (changesOnly_mono first (by simp)) later⟩

end Sys2Proof.Machine
end

section
/-! PROOFS. Hold lines and override causes (O44, O45). -/

namespace Sys2Proof.Machine

variable {s t u : State} {i j : Fin 64} {c d : OverrideCause} {a b : Sent}

/-! ### Cause sets (R136) -/

theorem causeBit_lt (c : OverrideCause) : causeBit c < 5 := by
  cases c with
  | field => decide
  | hold l => exact Nat.succ_lt_succ l.isLt

theorem causeBit_injective (same : causeBit d = causeBit c) : d = c := by
  cases c <;> cases d <;> simp [causeBit, Fin.val_inj] at same ⊢
  exact same

theorem getLsbD_bit (c d : OverrideCause) : (1#5 <<< causeBit c).getLsbD (causeBit d) = decide (d = c) := by
  have low := causeBit_lt d
  by_cases same : d = c
  · simp [same, causeBit_lt c]
  · have apart : causeBit d ≠ causeBit c := fun h => same (causeBit_injective h)
    simp only [BitVec.getLsbD_shiftLeft, same, decide_false]
    by_cases below : causeBit d < causeBit c
    · simp [below]
    · have : causeBit d - causeBit c ≠ 0 := by omega
      simp [BitVec.getLsbD_one, this]

theorem causeIn_join (set : BitVec 5) (c d : OverrideCause) : causeIn (causeJoin set c) d = (causeIn set d || decide (d = c)) := by
  rw [causeIn, causeJoin, BitVec.getLsbD_or, getLsbD_bit, causeIn]

theorem causeIn_leave (set : BitVec 5) (c d : OverrideCause) : causeIn (causeLeave set c) d = (causeIn set d && !decide (d = c)) := by
  rw [causeIn, causeLeave, BitVec.getLsbD_and, BitVec.getLsbD_not, getLsbD_bit, causeIn]
  simp [causeBit_lt d]

/-! ### What a cause does at a slot -/

/-- R136: the cause is new to a defined slot. -/
def Slot.joins (x : Slot) (c : OverrideCause) : Bool := x.state != .unused && !causeIn x.causes c

/-- R141: the cause brings the slot into OVERRIDDEN. -/
def Slot.enters (x : Slot) (c : OverrideCause) : Bool :=
  x.joins c && x.state != .overridden && !(x.state == .joining && x.run.isNone)

/-- R136, R141, R143: a slot after a cause has joined. -/
def Slot.withCause (x : Slot) (c : OverrideCause) : Slot :=
  if x.enters c then { x with
    causes := causeJoin x.causes c, state := .overridden, trans := none, pendingEval := none, latch := x.latch || x.mode == .latched }
  else if x.joins c then { x with
    causes := causeJoin x.causes c, latch := x.latch || (x.state == .overridden && x.mode == .latched) }
  else x

/-- R136, R139: a slot after a cause has joined or left. -/
def Slot.shifted (x : Slot) (c : OverrideCause) (into out : Bool) : Slot :=
  if into then x.withCause c else if out then { x with causes := causeLeave x.causes c } else x

/-- R165: the record with which a slot's open transition ends now. -/
def State.endedHere (s : State) (i : Fin 64) (o : RecordOutcome) : Option TransitionRecord :=
  if slotIn s.records.filter i then (s.slot i).trans.map fun r => s.endsAs i (s.slot i).current r o else none

theorem endedHere_congr {o : RecordOutcome} (filter : t.records.filter = s.records.filter) (time : t.time = s.time)
    (intersection : (t.slot i).intersection = (s.slot i).intersection) (trans : (t.slot i).trans = (s.slot i).trans)
    (current : (t.slot i).current = (s.slot i).current) : t.endedHere i o = s.endedHere i o := by
  unfold State.endedHere State.endsAs
  rw [filter, time, intersection, trans, current]

theorem endTransition_ring (o : RecordOutcome) (room : s.records.ring.length + (s.endedHere i o).toList.length ≤ 128) :
    (s.endTransition i o).records.ring = s.records.ring ++ (s.endedHere i o).toList := by
  unfold State.endedHere at room ⊢
  cases open_ : (s.slot i).trans with
  | none => simp [endTransition_of_closed open_]
  | some r =>
    rw [open_] at room
    split
    next held => exact recorded_endTransition open_ o held (by simpa [held] using room)
    next out =>
      have left : s.records.take { (s.slot i).endRecord i r o with stop := s.time.stamp } = s.records := if_neg out
      simpa [State.endTransition, open_, State.takeRecord] using congrArg RecordUnit.ring left

theorem setSlot_self (s : State) (i : Fin 64) : s.setSlot i (s.slot i) = s := by
  have same : s.slots.set i.val (s.slot i) i.isLt = s.slots := Vector.set_getElem_self i.isLt
  rw [State.setSlot, same]

/-! ### An entry to OVERRIDDEN -/

theorem enterOverridden_port (s : State) (i : Fin 64) (p : Fin 4) : (s.enterOverridden i).1.port p =
    { s.port p with queue := (s.port p).queue.filter fun e => !(decide (e.slot = i) && (s.slot i).port == p) } := by
  have ports := port_congr ((endTransition_frame s i .overridden).2.2 .ports (by decide))
  have slot := endTransition_slot s i .overridden
  have removed : (s.enterOverridden i).1.port p =
      if (s.slot i).port = p then ((s.endTransition i .overridden).port (s.slot i).port).removeEntry i
      else (s.endTransition i .overridden).port p := by
    unfold State.enterOverridden
    simp only [State.raise, State.setRecords_port, State.setSlot_port, State.setPort_port, slot]
  rw [removed, ports, ports, removeEntry_queue]
  split
  next here => subst here; simp
  next away =>
    have apart : ((s.slot i).port == p) = false := by simpa using away
    simp [apart]

theorem enterOverridden_records (s : State) (i : Fin 64) :
    (s.enterOverridden i).1.records = (s.endTransition i .overridden).records.raise .overrideEnter := rfl

/-! ### Causes that join and leave -/

/-- R141: the cause brings a slot that it reaches into OVERRIDDEN. -/
def State.overrides (s : State) (c : OverrideCause) (into : Fin 64 → Bool) (i : Fin 64) : Bool := into i && (s.slot i).enters c

/-- R165: the record of the transition that this ends. -/
def State.endedBy (s : State) (c : OverrideCause) (into : Fin 64 → Bool) (i : Fin 64) : Option TransitionRecord :=
  if s.overrides c into i then s.endedHere i .overridden else none

/-- R136, R139: a cause joins the slots that `into` names and leaves those that `out` names. -/
def State.shift (c : OverrideCause) (into out : Fin 64 → Bool) (s : State) (i : Fin 64) : Sent :=
  if into i then s.joinCause i c else if out i then (s.leaveCause i c, []) else (s, [])

/-- R136, R141 to R143, R120: what is left when the cause has joined and left at the slots of `done`, before the group coordinator hears
of it. -/
structure Shifted (s : State) (c : OverrideCause) (into out : Fin 64 → Bool) (done : List (Fin 64)) (a : Sent) : Prop where
  slot : ∀ i, a.1.slot i = if i ∈ done then (s.slot i).shifted c (into i) (out i) else s.slot i
  port : ∀ p, a.1.port p = { s.port p with queue := (s.port p).queue.filter fun e =>
    !(decide (e.slot ∈ done) && s.overrides c into e.slot && (s.slot e.slot).port == p) }
  ring : s.records.ring.length + (done.filterMap (s.endedBy c into)).length ≤ 128 →
    a.1.records.ring = s.records.ring ++ done.filterMap (s.endedBy c into)
  grown : s.records.grows a.1.records
  told : ∀ i ∈ done, s.overrides c into i = true → s.notified a.1 .overrideEnter
  plain : ∀ e ∈ a.2, e.group = none ∧ e.state = .overridden
  seen : ∀ i v, seenBy i a.2 v = if i ∈ done ∧ s.overrides c into i = true
    then MemberEvent.seen v (memberEvent i .overridden (s.slot i).current) else v
  members : a.1.members = s.members
  frame : s.changesOnly a.1 [.slots, .ports, .records]

section
variable {into out : Fin 64 → Bool} {done : List (Fin 64)}

theorem shifted_nil (s : State) : Shifted s c into out [] (s, []) where
  slot _ := by simp
  port _ := by simp
  ring := by simp
  grown := RecordUnit.grows_refl _
  told := by simp
  plain := by simp
  seen := by simp
  members := rfl
  frame := changesOnly_refl

/-- An operation of slot `i` that leaves the ports and the records, and sends nothing. -/
theorem shifted_write {x : Slot} (shifted : x = (s.slot i).shifted c (into i) (out i)) (stays : s.overrides c into i = false) :
    Shifted s c into out [i] (s.setSlot i x, []) where
  slot j := by
    rw [State.setSlot_slot, shifted]
    by_cases same : i = j
    · subst same
      simp
    · simp [same, Ne.symm same]
  port p := by
    have none : ∀ e : QueueEntry, (decide (e.slot ∈ [i]) && s.overrides c into e.slot) = false := fun e => by
      by_cases same : e.slot = i <;> simp [same, stays]
    simp only [none, Bool.false_and, Bool.not_false, List.filter_true]
    rfl
  ring := by simp [State.endedBy, stays]
  grown := RecordUnit.grows_refl _
  told := by simp [stays]
  plain := by simp
  seen j v := by
    by_cases same : j = i <;> simp [same, stays]
  members := rfl
  frame := changesOnly_setSlot _ _ (by simp) changesOnly_refl

theorem shifted_stay (same : (s.slot i).shifted c (into i) (out i) = s.slot i) (stays : s.overrides c into i = false) :
    Shifted s c into out [i] (s, []) := by
  have written := shifted_write (x := s.slot i) same.symm stays
  rwa [setSlot_self] at written

theorem shifted_join (named : into i = true) : Shifted s c into out [i] (s.joinCause i c) := by
  have shape : (s.slot i).shifted c (into i) (out i) = (s.slot i).withCause c := if_pos named
  have whole : s.overrides c into i = (s.slot i).enters c := by simp [State.overrides, named]
  rcases joinCause_cases s i c with ⟨idle, e⟩ | ⟨defined, fresh, stays, e⟩ | ⟨defined, fresh, other, runs, e⟩
  · have quiet : (s.slot i).joins c = false := by
      rcases idle with unused | held
      · simp [Slot.joins, unused]
      · simp [Slot.joins, held]
    have outside : (s.slot i).enters c = false := by simp [Slot.enters, quiet]
    rw [e]
    exact shifted_stay (by rw [shape]; simp [Slot.withCause, outside, quiet]) (whole.trans outside)
  · have joins : (s.slot i).joins c = true := by simp [Slot.joins, defined, fresh]
    have outside : (s.slot i).enters c = false := by
      unfold Slot.enters
      rcases stays with over' | ⟨joining, unplaced⟩
      · simp [over']
      · simp [joining, show (s.slot i).run.isNone = true by simpa [Slot.running] using unplaced]
    rw [e]
    exact shifted_write (by rw [shape]; simp [Slot.withCause, outside, joins]) (whole.trans outside)
  · have joins : (s.slot i).joins c = true := by simp [Slot.joins, defined, fresh]
    have enters : (s.slot i).enters c = true := by
      unfold Slot.enters
      by_cases joining : (s.slot i).state = .joining
      · have placed : (s.slot i).run.isNone = false := by simpa [Slot.running] using runs joining
        simp [joins, joining, placed]
      · simp [joins, other, joining]
    have other' : ((s.slot i).state == .overridden) = false := by simpa using other
    generalize hy : ({ s.slot i with causes := causeJoin (s.slot i).causes c, latch := _ } : Slot) = y at e
    have slot := enterOverridden_slot (s.setSlot i y) i
    rw [State.setSlot_slot_same] at slot
    rw [e]
    exact
      { slot := fun j => by
          by_cases same : j = i
          · subst same
            rw [slot.1, if_pos (by simp), shape, ← hy]
            simp [Slot.withCause, enters, other']
          · rw [enterOverridden_slot_ne _ (Ne.symm same), State.setSlot_slot_ne _ _ _ _ (Ne.symm same), if_neg (by simpa using same)]
        port := fun p => by
          rw [enterOverridden_port, State.setSlot_port, State.setSlot_slot_same, ← hy]
          have same : ∀ f : QueueEntry, (decide (f.slot = i) && (s.slot i).port == p) =
              (decide (f.slot ∈ [i]) && s.overrides c into f.slot && (s.slot f.slot).port == p) := fun f => by
            by_cases own : f.slot = i <;> simp [own, whole, enters]
          exact congrArg (fun keep : QueueEntry → Bool => { s.port p with queue := (s.port p).queue.filter keep })
            (funext fun f => congrArg (!·) (same f))
        ring := by
          have ended : (s.setSlot i y).endedHere i .overridden = s.endedHere i .overridden :=
            endedHere_congr rfl rfl (by rw [State.setSlot_slot_same, ← hy]) (by rw [State.setSlot_slot_same, ← hy])
              (by rw [State.setSlot_slot_same, ← hy])
          have listed : [i].filterMap (s.endedBy c into) = (s.endedHere i .overridden).toList := by
            simp only [List.filterMap_cons, State.endedBy, whole, enters, if_true, List.filterMap_nil]
            cases s.endedHere i .overridden <;> rfl
          rw [listed, ← ended]
          intro room
          rw [enterOverridden_records]
          exact (onlyNotices_ring (onlyNotices_raise _ (onlyNotices_refl _))).trans (endTransition_ring .overridden room)
        grown := ((engineClosed_grows _).slots i).enterOverridden (RecordUnit.grows_refl s.records)
        told := fun _ _ _ => notified_raise (t := (s.setSlot i y).endTransition i .overridden)
          (((engineClosed_grows _).slots i).endTransition _ (RecordUnit.grows_refl s.records)) _ (RecordUnit.grows_refl _)
        plain := by simp [slot.2, memberEvent]
        seen := fun j v => by
          rw [slot.2, ← hy]
          by_cases same : j = i
          · subst same
            simp [seenBy, memberEvent, whole, enters]
          · rw [if_neg (by simp [same])]
            exact seenBy_others fun f hf => by
              rw [List.mem_singleton] at hf
              rw [hf]
              exact Ne.symm same
        members := ((slotClosed_coordinator i s).enterOverridden (t := s.setSlot i y) ⟨rfl, rfl⟩).2
        frame := changesOnly_raise _ (by simp) (changesOnly_setSlot _ _ (by simp) (changesOnly_setPort _ _ (by simp)
          (changesOnly_trans (changesOnly_setSlot _ _ (by simp) changesOnly_refl)
            (changesOnly_mono (endTransition_frame _ i .overridden) (by simp))))) }

theorem shifted_shift (s : State) (i : Fin 64) : Shifted s c into out [i] (s.shift c into out i) := by
  unfold State.shift
  split
  next named => exact shifted_join named
  next away =>
    have stays : s.overrides c into i = false := by simp [State.overrides, away]
    split
    next leaves => exact shifted_write (by simp [Slot.shifted, away, leaves]) stays
    next rests => exact shifted_stay (by simp [Slot.shifted, away, rests]) stays

/-- One slot after others. -/
theorem Shifted.snoc (ha : Shifted s c into out done a) (away : i ∉ done) :
    Shifted s c into out (done ++ [i]) (a.andThen fun u => u.shift c into out i) := by
  have hb := shifted_shift (c := c) (into := into) (out := out) a.1 i
  have slot : a.1.slot i = s.slot i := by rw [ha.slot, if_neg away]
  have over' : a.1.overrides c into i = s.overrides c into i := by simp [State.overrides, slot]
  have ended : a.1.endedBy c into i = s.endedBy c into i := by
    unfold State.endedBy
    rw [over', endedHere_congr ha.grown.2.1 (ha.frame.2.2 .time (by decide)) (congrArg _ slot) (congrArg _ slot) (congrArg _ slot)]
  exact
    { slot := fun j => by
        show (a.1.shift c into out i).1.slot j = _
        rw [hb.slot, ha.slot]
        by_cases same : j = i
        · subst same
          simp [away]
        · simp [same]
      port := fun p => by
        show (a.1.shift c into out i).1.port p = _
        rw [hb.port, ha.port]
        refine congrArg (fun q => ({ s.port p with queue := q } : Port)) ?_
        rw [List.filter_filter]
        refine List.filter_congr fun f _ => ?_
        by_cases same : f.slot = i
        · simp [same, away, over', slot]
        · simp [same]
      ring := by
        show _ → (a.1.shift c into out i).1.records.ring = _
        have listed : [i].filterMap (a.1.endedBy c into) = [i].filterMap (s.endedBy c into) := by
          simp only [List.filterMap_cons, ended, List.filterMap_nil]
        intro room
        rw [List.filterMap_append, List.length_append] at room
        have first := ha.ring (by omega)
        rw [hb.ring (by rw [first, List.length_append, listed]; omega), first, listed, List.filterMap_append, List.append_assoc]
      grown := RecordUnit.grows_trans ha.grown hb.grown
      told := fun j mem overrides => by
        rcases List.mem_append.mp mem with before | here
        · exact notified_of_grows (ha.told j before overrides) hb.grown
        · obtain rfl := List.mem_singleton.mp here
          have told := hb.told j here (over'.trans overrides)
          unfold State.notified at told ⊢
          rwa [ha.grown.1] at told
      plain := fun e mem => (List.mem_append.mp mem).elim (ha.plain e) (hb.plain e)
      seen := fun j v => by
        show seenBy j (a.2 ++ (a.1.shift c into out i).2) v = _
        rw [seenBy_append, hb.seen, ha.seen]
        by_cases same : j = i
        · subst same
          simp [away, over', slot]
        · simp [same]
      members := hb.members.trans ha.members
      frame := changesOnly_trans ha.frame hb.frame }

theorem shifted_foldl (rest : List (Fin 64)) : ∀ (done : List (Fin 64)) (a : Sent), (done ++ rest).Nodup → Shifted s c into out done a →
    Shifted s c into out (done ++ rest) (rest.foldl (fun a i => a.andThen fun u => u.shift c into out i) a) := by
  induction rest with
  | nil => exact fun done a _ ha => by simpa using ha
  | cons i rest ih =>
    intro done a distinct ha
    rw [List.append_cons] at distinct ⊢
    have away : i ∉ done := fun mem => by
      simp only [List.nodup_append, List.mem_singleton] at distinct
      exact distinct.1.2.2 i mem i rfl rfl
    exact ih _ _ distinct (ha.snoc away)

theorem shifted_all (s : State) (c : OverrideCause) (into out : Fin 64 → Bool) :
    Shifted s c into out (List.finRange 64) (overSlots (List.finRange 64) (State.shift c into out) s) :=
  shifted_foldl (List.finRange 64) [] (s, []) (List.nodup_finRange 64) (shifted_nil s)

end

/-! ### The group coordinator hears of it -/

section
variable {into out : Fin 64 → Bool}


theorem takeMembers_slots_of_state (es : List MemberEvent) (quiet : ∀ e ∈ es, e.state ≠ .transition) (j : Fin 64) :
    (s.takeMembers es).slot j = s.slot j :=
  List.foldlRecOn (motive := fun t : State => t.slot j = s.slot j) es _ rfl fun _ ht e he => (takeMember_slot_of_state e (quiet e he) j).trans ht

/-- R136, R141 to R143, R120: what causes that join and leave have left when the group coordinator has heard of them. -/
theorem Shifted.delivered (h : Shifted s c into out (List.finRange 64) a) : s.causeJoined a.deliver c into ∧
    ∀ i, a.deliver.slot i = (s.slot i).shifted c (into i) (out i) := by
  have frame : a.1.changesOnly a.deliver [.slots, .groups, .members, .records] :=
    changesOnly_takeMembers _ (by simp) (by simp) (by simp) (by simp) changesOnly_refl
  have slots : ∀ i, a.deliver.slot i = (s.slot i).shifted c (into i) (out i) := fun i => by
    rw [Sent.deliver, takeMembers_slots_of_state _ (fun e he => by simp [(h.plain e he).2]), h.slot, if_pos (by simp)]
  have grown : a.1.records.grows a.deliver.records := (engineClosed_grows _).coordinator.takeMembers _ (RecordUnit.grows_refl _)
  refine ⟨?_, slots⟩
  have joining : ∀ i, (into i && (s.slot i).state != .unused && !causeIn (s.slot i).causes c) = (into i && (s.slot i).joins c) :=
    fun i => Bool.and_assoc ..
  have entering : ∀ i, (into i && (s.slot i).joins c && (s.slot i).state != .overridden &&
      !((s.slot i).state == .joining && (s.slot i).run.isNone)) = s.overrides c into i := fun i => by
    rw [State.overrides, Slot.enters, Bool.and_assoc, Bool.and_assoc, Bool.and_assoc]
  unfold State.causeJoined
  simp only [joining, entering]
  refine ⟨fun i reached still => ?_, fun i joins => ?_, fun p => ?_, ?_⟩
  · have quiet : (s.slot i).joins c = false := by simpa [reached] using still
    rw [slots, reached]
    simp [Slot.shifted, Slot.withCause, Slot.enters, quiet]
  · obtain ⟨reached, joins⟩ := Bool.and_eq_true_iff.mp joins
    have whole : s.overrides c into i = (s.slot i).enters c := by simp [State.overrides, reached]
    have held : (a.deliver.slot i).causes = causeJoin (s.slot i).causes c := by
      rw [slots, reached, Slot.shifted, if_pos rfl, Slot.withCause]
      split
      · rfl
      · rfl
    refine ⟨by simp [held, causeIn_join], fun d other => by simp [held, causeIn_join, other], fun outside => ?_, fun enters => ⟨?_, ?_, ?_⟩⟩
    · rw [held, slots, reached, Slot.shifted, if_pos rfl, Slot.withCause, if_neg (by simp [← whole, outside]), if_pos joins]
    · rw [held, slots, reached, Slot.shifted, if_pos rfl, Slot.withCause, if_pos (whole ▸ enters)]
    · exact notified_of_grows (h.told i (by simp) enters) grown
    · have members : a.1.member i = s.member i := member_congr h.members i
      rw [Sent.deliver, takeMembers_member _ (fun e he => (h.plain e he).1), h.seen, members, if_pos ⟨by simp, enters⟩]
      cases s.member i <;> rfl
  · rw [port_congr (frame.2.2 .ports (by decide)), h.port]
    simp
  · have listed : ((List.finRange 64).filterMap fun i => if s.overrides c into i && slotIn s.records.filter i then
        (s.slot i).trans.map fun r => s.endsAs i (s.slot i).current r .overridden else none) = (List.finRange 64).filterMap (s.endedBy c into) := by
      refine List.filterMap_congr fun i _ => ?_
      unfold State.endedBy State.endedHere
      cases s.overrides c into i <;> simp
    rw [listed]
    intro room
    rw [← h.ring room]
    exact onlyNotices_ring ((groupClosed_onlyNotices a.1).takeMembers _ (onlyNotices_refl _))

end

/-! ### Hold lines (R138, R139) -/

/-- An operation at the slots of a list that satisfy a condition, and one at all that looks at the condition. -/
theorem overSlots_filter (p : Fin 64 → Bool) (f : State → Fin 64 → Sent) (is : List (Fin 64)) (s : State) :
    overSlots (is.filter p) f s = overSlots is (fun s i => if p i then f s i else (s, [])) s := by
  unfold overSlots
  rw [List.foldl_filter]
  congr 1
  funext a i
  split
  next chosen => simp [chosen]
  next left => simp [left, Sent.andThen]

theorem activationEdge_eq (s : State) (l : Fin 4) : s.activationEdge l =
    overSlots (List.finRange 64) (State.shift (.hold l) (slotIn (s.hold l).map) fun _ => false) (s.setHold l { s.hold l with level := .active }) := by
  unfold State.activationEdge
  rw [overSlots_filter]
  rfl

/-- R139: a cause leaves every slot, and nothing else moves there. -/
theorem releaseEdge_slot (s : State) (l : Fin 4) (i : Fin 64) :
    (s.releaseEdge l).slot i = { s.slot i with causes := causeLeave (s.slot i).causes (.hold l) } := by
  have each := foldl_slot (f := fun u i => u.leaveCause i (.hold l)) (g := fun _ x => { x with causes := causeLeave x.causes (.hold l) })
    (fun u i => by simp [State.leaveCause]) (fun u i j ne => State.setSlot_slot_ne _ _ _ _ (Ne.symm ne)) (List.finRange 64) (List.nodup_finRange 64)
    (s.setHold l { s.hold l with level := .inactive }) i
  rw [if_pos (by simp)] at each
  exact each

theorem setHold_frame (s : State) (l : Fin 4) (x : HoldLine) : s.changesOnly (s.setHold l x) [.holds] := changesOnly_setHold _ _ (by simp) changesOnly_refl

theorem hold_congr (h : t.holds = s.holds) (l : Fin 4) : t.hold l = s.hold l := congrArg (Vector.get · l) h

/-- R138: what an activation edge leaves. -/
theorem activationEdge_leaves (s : State) (l : Fin 4) : (s.activationEdge l).deliver.hold l = { s.hold l with level := .active } ∧
    (∀ k, k ≠ l → (s.activationEdge l).deliver.hold k = s.hold k) ∧
    (∀ i, (s.activationEdge l).deliver.slot i = (s.slot i).shifted (.hold l) (slotIn (s.hold l).map i) false) ∧
    s.causeJoined (s.activationEdge l).deliver (.hold l) (slotIn (s.hold l).map) ∧
    s.changesOnly (s.activationEdge l).deliver (.holds :: Block.engine) := by
  have whole := shifted_all (s.setHold l { s.hold l with level := .active }) (.hold l) (slotIn (s.hold l).map) fun _ => false
  have frame : (s.setHold l { s.hold l with level := .active }).changesOnly (s.activationEdge l).deliver Block.engine := by
    rw [activationEdge_eq]
    exact changesOnly_deliver (by simp) (changesOnly_mono whole.frame (by decide))
  rw [← activationEdge_eq] at whole
  obtain ⟨joined, slots⟩ := whole.delivered
  have holds := hold_congr (frame.2.2 .holds (by decide))
  exact ⟨(holds l).trans (State.setHold_hold_same s l _), fun k ne => (holds k).trans (State.setHold_hold_ne s l k _ (Ne.symm ne)), slots, joined,
    changesOnly_trans (changesOnly_mono (setHold_frame s l _) (by simp)) (changesOnly_mono frame (by simp))⟩

/-- R139: what a release edge leaves. -/
theorem releaseEdge_frame (s : State) (l : Fin 4) : (s.setHold l { s.hold l with level := .inactive }).changesOnly (s.releaseEdge l) [.slots] :=
  changesOnly_foldl _ (fun _ _ h => changesOnly_setSlot _ _ (by simp) h) _ _ changesOnly_refl

/-- Settles O44: the cause joined at every mapped slot, or taken from all. -/
theorem holdEdges : Obligations.HoldEdges := by
  refine ⟨fun s l running => ⟨fun up => ?_, fun down => ?_⟩, fun s l running => ⟨fun down => ?_, fun up => ?_⟩⟩
  · exact exec_of_idle (f := fun s => if (s.hold l).level = .inactive then (s.activationEdge l).deliver else s) rfl running
      (if_neg (by simp [up]))
  · obtain ⟨own, others, slots, joined, frame⟩ := activationEdge_leaves s l
    refine ⟨_, (exec_of_event (f := fun s => if (s.hold l).level = .inactive then (s.activationEdge l).deliver else s) rfl running).trans
      (congrArg _ (if_pos down)), own, others, fun i away => ?_, joined, frame⟩
    rw [slots]
    rcases away with unmapped | unused
    · simp [Slot.shifted, unmapped]
    · simp [Slot.shifted, Slot.withCause, Slot.enters, Slot.joins, unused]
  · exact exec_of_idle (f := fun s => if (s.hold l).level = .active then s.releaseEdge l else s) rfl running (if_neg (by simp [down]))
  · have frame := releaseEdge_frame s l
    have holds := hold_congr (frame.2.2 .holds (by decide))
    refine ⟨_, (exec_of_event (f := fun s => if (s.hold l).level = .active then s.releaseEdge l else s) rfl running).trans
      (congrArg _ (if_pos up)), (holds l).trans (State.setHold_hold_same s l _),
      fun k ne => (holds k).trans (State.setHold_hold_ne s l k _ (Ne.symm ne)), fun i => ?_,
      changesOnly_trans (changesOnly_mono (setHold_frame s l _) (by simp)) (changesOnly_mono frame (by simp))⟩
    rw [releaseEdge_slot]
    exact ⟨rfl, by simp [causeIn_leave], fun d other => by simp [causeIn_leave, other]⟩

/-! ### Hold maps and latches (R146, R147) -/

theorem causeJoined_congr {reached : Fin 64 → Bool} (left : u.changesOnly t [.trunk, .mgmt]) (h : s.causeJoined u c reached) :
    s.causeJoined t c reached := by
  have records : t.records = u.records := left.2.2 .records (by decide)
  unfold State.causeJoined State.notified at h ⊢
  simp only [slot_congr (left.2.2 .slots (by decide)), port_congr (left.2.2 .ports (by decide)), records,
    member_congr (left.2.2 .members (by decide))] at h ⊢
  exact h

theorem holdFields_eq (s : State) : s.holdFields = ((List.finRange 4).map fun k => setBytes (s.hold k).map).flatten ++
    ((List.finRange 4).map fun k => num1 (if (s.hold k).level = .active then 1 else 0)).flatten := by
  have coded : ∀ v : Level, levelCode v = if v = .active then 1 else 0 := fun v => by cases v <;> rfl
  simp only [State.holdFields, coded]

/-- R147: on an ACTIVE line the difference of the maps applies at once. -/
theorem setHoldMap_active {l : Fin 4} (up : (s.hold l).level = .active) (map : SlotSet) : s.setHoldMap l map =
    (overSlots (List.finRange 64) (State.shift (.hold l) (fun i => slotIn map i && !slotIn (s.hold l).map i)
      fun i => slotIn (s.hold l).map i && !slotIn map i) (s.setHold l { s.hold l with map := map })).deliver := by
  unfold State.setHoldMap
  rw [up]
  rfl

theorem setHoldMap_inactive {l : Fin 4} (down : (s.hold l).level = .inactive) (map : SlotSet) :
    s.setHoldMap l map = s.setHold l { s.hold l with map := map } := by
  unfold State.setHoldMap
  rw [down]

/-- Settles O45. -/
theorem holdMapsAndLatches : Obligations.HoldMapsAndLatches := by
  refine ⟨fun s src line map r ready => ⟨_, exec_of_owner rfl s, fun high => ?_, fun l hl => ?_⟩,
    fun s src slot r ready => ⟨_, exec_of_owner rfl s, fun high => ?_, fun i hi => ⟨fun unused => ?_, fun defined closed => ?_, fun over' latched => ?_⟩⟩⟩
  · exact carryOut_refuse ready _ _ (by rw [setHoldMap, index?_of_le high])
  · have set : setHoldMap line map s = ⟨s.setHoldMap l map, .done, (s.setHoldMap l map).holdFields⟩ := by rw [setHoldMap, index?_val hl]
    obtain ⟨answered, left, frame⟩ := answered_of (bs := .holds :: Block.engine) ready set
      (changesOnly_setHoldMap l map (by simp) (by simp)) (by decide) (by decide)
    rw [holdFields_eq] at answered
    have sameHold := hold_congr (left.2.2 .holds (by decide))
    have sameSlot := slot_congr (left.2.2 .slots (by decide))
    have engine : (s.setHold l { s.hold l with map := map }).changesOnly (s.setHoldMap l map) Block.engine := by
      cases level : (s.hold l).level
      case inactive => rw [setHoldMap_inactive level]; exact changesOnly_refl
      case active =>
        rw [setHoldMap_active level]
        exact changesOnly_deliver (by simp) (changesOnly_mono (shifted_all _ _ _ _).frame (by decide))
    have holds := hold_congr (engine.2.2 .holds (by decide))
    refine ⟨(sameHold l).trans ((holds l).trans (State.setHold_hold_same s l _)),
      fun k ne => (sameHold k).trans ((holds k).trans (State.setHold_hold_ne s l k _ (Ne.symm ne))), ?_, fun down => ?_, fun up => ?_⟩
    · simpa only [sameHold] using answered
    · rw [setHoldMap_inactive down] at left
      exact changesOnly_trans (changesOnly_mono (setHold_frame s l _) (by simp)) (changesOnly_mono left (by simp))
    · obtain ⟨joined, slots⟩ := (shifted_all (s.setHold l { s.hold l with map := map }) (.hold l)
        (fun i => slotIn map i && !slotIn (s.hold l).map i) fun i => slotIn (s.hold l).map i && !slotIn map i).delivered
      rw [← setHoldMap_active up] at joined slots
      refine ⟨changesOnly_mono frame (by decide), causeJoined_congr left joined, fun i => ⟨fun same => ?_, fun gone held => ?_⟩⟩
      · rw [sameSlot, slots]
        simp [Slot.shifted, same]
      · rw [sameSlot, slots]
        rw [gone, held]
        exact ⟨rfl, by simp [Slot.shifted, causeIn_leave], fun d other => by simp [Slot.shifted, causeIn_leave, other]⟩
  · exact carryOut_refuse ready _ _ (onDefinedSlot_of_bad high)
  · exact carryOut_refuse ready _ _ (onDefinedSlot_of_unused ⟨i, hi, unused⟩)
  · exact carryOut_refuse ready _ _ ((onDefinedSlot_of hi defined).trans (if_pos closed))
  · have cleared : clearOverride slot s = ⟨s.setSlot i { s.slot i with latch := false }, .done,
        { s.slot i with latch := false }.overrideFields⟩ :=
      (onDefinedSlot_of hi (by simp [over'])).trans (if_neg (by simp [over', latched]))
    obtain ⟨answered, left, frame⟩ := answered_of (bs := [.slots]) ready cleared (changesOnly_setSlot _ _ (by simp) changesOnly_refl) (by simp) (by simp)
    have sameSlot := slot_congr (left.2.2 .slots (by decide))
    exact ⟨(sameSlot i).trans (State.setSlot_slot_same ..), fun j ne => (sameSlot j).trans (State.setSlot_slot_ne _ _ _ _ (Ne.symm ne)), answered,
      changesOnly_mono frame (by simp)⟩

end Sys2Proof.Machine
end

section
/-! PROOFS. Frames that leave, held replies, READ STATION, and requests of bad form (O48). -/

namespace Sys2Proof.Machine

variable {s t u : State} {i : Instr} {r : Request} {code : Byte} {params : List Byte} {clear : Byte}

/-! ### The out-queues (R152, R158) -/

theorem sentHead_of {q : OutQueue} {f : TrunkFrame} {rest : List TrunkFrame} (head : q.frames = f :: rest) :
    q.sentHead = ⟨rest, min 65535 (q.sent + 1), q.drops⟩ := by
  unfold OutQueue.sentHead
  rw [head]
  rfl

theorem sentHead_of_empty {q : OutQueue} (empty : q.frames = []) : q.sentHead = q := by
  unfold OutQueue.sentHead
  rw [empty]

/-- R158: a held reply stays while A-out is full, and takes its place where there is room. -/
theorem placeHeld_of_full {reply : TrunkFrame} (held : s.mgmt.engine = .replyWait r reply) (full : 8 ≤ s.trunk.aOut.frames.length) :
    s.placeHeld = s := by
  have none : s.trunk.aOut.hasRoom = false := decide_eq_false (Nat.not_lt.mpr full)
  unfold State.placeHeld
  rw [held]
  simp [none]

theorem placeHeld_of_room {reply : TrunkFrame} (held : s.mgmt.engine = .replyWait r reply) (room : s.trunk.aOut.frames.length < 8) :
    s.placeHeld = (s.setTrunk { s.trunk with aOut := s.trunk.aOut.place reply }).engineDone := by
  have some : s.trunk.aOut.hasRoom = true := decide_eq_true room
  unfold State.placeHeld
  rw [held]
  simp [some]

theorem placeHeld_of_none (none : ∀ r reply, s.mgmt.engine ≠ .replyWait r reply) : s.placeHeld = s := by
  unfold State.placeHeld
  split
  next r reply held => exact absurd held (none r reply)
  next => rfl

/-! ### Requests of bad form (R160, R162) -/

theorem namesNoRow_of (bad : (code ≠ 0x20#8 ∧ paramLength code ≠ some params.length) ∨
    (code = 0x20#8 ∧ (params.length < 10 ∨ ∃ n : Byte, params[9]? = some n ∧ params.length ≠ 10 + 5 * n.toNat)) ∨
    (code = 0x71#8 ∧ ∃ kind : Byte, params = [kind] ∧ 1 < kind.toNat)) : namesNoRow code params = true := by
  unfold namesNoRow
  rcases bad with ⟨other, length⟩ | ⟨rfl, short | ⟨n, ninth, length⟩⟩ | ⟨rfl, kind, rfl, unknown⟩
  · simp [paramsFit, other, length]
  · simp [paramsFit, Nat.not_le.mpr short]
  · have given : params.getD 9 0#8 = n := by simp [List.getD, ninth]
    simp only [paramsFit, if_true, given, Bool.or_eq_true, Bool.not_eq_true', Bool.and_eq_false_iff]
    exact .inl (.inr (by simpa using length))
  · simp [restartKindUnknown, unknown]

/-! ### READ STATION (R161) -/

/-- R158: a request carried out now: its owner has done what it does, and its reply is offered. -/
theorem carryOut_offers (encodes : encodeRequest i = some r) (carries : s.carries r = true) (addressed : r.src.broadcast = false)
    (o : State → Answer) : carryOut i o s = (o s).state.placeReply r ((o s).state.replyTo r (o s).outcome (o s).state.records.notices (o s).fields) := by
  have kept : discarded r = false := by simp [discarded, addressed]
  rw [← buildReply_eq]
  simp [carryOut, encodes, carries, kept]

theorem placeReply_full {f : TrunkFrame} (addressed : r.src.broadcast = false) (full : 8 ≤ s.trunk.aOut.frames.length) :
    s.placeReply r f = s.setMgmt { s.mgmt with engine := .replyWait r f } := by
  have none : s.trunk.aOut.hasRoom = false := decide_eq_false (Nat.not_lt.mpr full)
  simp [State.placeReply, addressed, none]

theorem readStation_of_bad (bad : 1 < clear.toNat) : readStation clear s = refuse .badValue s := if_pos bad

theorem clear_cases (clear : Byte) : clear = 0#8 ∨ clear = 1#8 ∨ 1 < clear.toNat := by bv_omega

/-- R161: what the station has done when its reply is offered, and the reply. -/
theorem readStation_offers {src : Source} (encodes : encodeRequest (.readStation src clear) = some r) (carries : s.carries r = true)
    (addressed : r.src.broadcast = false) : ∃ u, exec (.readStation src clear) s = .next (u.placeReply r
      (if 1 < clear.toNat then s.replyTo r .badValue s.records.notices [] else s.replyTo r .done s.records.notices s.stationFields)) ∧
    u = s.setTrunk u.trunk ∧ (clear = 0#8 → u.trunk = s.trunk.clearCounts) ∧ (clear ≠ 0#8 → u.trunk = s.trunk) := by
  have offers : exec (.readStation src clear) s = .next ((readStation clear s).state.placeReply r _) :=
    congrArg Host.Outcome.next (carryOut_offers encodes carries addressed (readStation clear))
  rcases clear_cases clear with rfl | rfl | bad
  · exact ⟨s.setTrunk s.trunk.clearCounts, offers, rfl, fun _ => rfl, fun no => absurd rfl no⟩
  · exact ⟨s, offers, rfl, fun no => absurd no (by decide), fun _ => rfl⟩
  · rw [readStation_of_bad bad] at offers
    rw [if_pos bad]
    exact ⟨s, offers, rfl, fun zero => absurd bad (by rw [zero]; decide), fun _ => rfl⟩

/-- Settles O48. -/
theorem repliesAndStation : Obligations.RepliesAndStation := by
  refine ⟨fun s running => ⟨fun empty => ?_, fun empty => ?_, fun f rest head => ?_, fun f rest head => ?_⟩,
    fun s r reply running held => ⟨fun full => ?_, fun room => ?_⟩, fun s none => ?_, fun s src clear r encodes carries addressed => ?_,
    fun s src code params r ready bad => ?_⟩
  · refine exec_of_idle (f := fun s => s.setTrunk { s.trunk with aOut := s.trunk.aOut.sentHead }) rfl running ?_
    rw [sentHead_of_empty empty]
    rfl
  · refine exec_of_idle (f := fun s => s.setTrunk { s.trunk with bOut := s.trunk.bOut.sentHead }) rfl running ?_
    rw [sentHead_of_empty empty]
    rfl
  · refine ⟨_, exec_of_event (f := fun s => s.setTrunk { s.trunk with aOut := s.trunk.aOut.sentHead }) rfl running, ?_,
      changesOnly_setTrunk _ (by simp) changesOnly_refl⟩
    rw [← sentHead_of head]
    rfl
  · refine ⟨_, exec_of_event (f := fun s => s.setTrunk { s.trunk with bOut := s.trunk.bOut.sentHead }) rfl running, ?_,
      changesOnly_setTrunk _ (by simp) changesOnly_refl⟩
    rw [← sentHead_of head]
    rfl
  · exact exec_of_idle rfl running (placeHeld_of_full held full)
  · refine ⟨_, (exec_of_event rfl running).trans (congrArg _ (placeHeld_of_room held room)), rfl, rfl, ?_⟩
    exact engineDone_frame (by simp) (changesOnly_setTrunk _ (by simp) changesOnly_refl)
  · refine congrArg Host.Outcome.next ?_
    rw [placeHeld_of_none none, ite_self]
  · intro counts fields reply
    obtain ⟨u, offers, left, cleared, kept⟩ := readStation_offers (s := s) encodes carries addressed
    have frame : s.changesOnly u [.trunk] := by
      rw [left]
      exact changesOnly_setTrunk _ (by simp) changesOnly_refl
    have mgmt : u.mgmt = s.mgmt := frame.2.2 .mgmt (by decide)
    have frames : u.trunk.aOut.frames = s.trunk.aOut.frames := by
      by_cases zero : clear = 0#8
      · rw [cleared zero]
        rfl
      · rw [kept zero]
    have trunk : ∀ f, (u.placeReply r f).trunk = if s.trunk.aOut.frames.length < 8 then
        { u.trunk with aOut := { u.trunk.aOut with frames := s.trunk.aOut.frames ++ [f] } } else u.trunk := fun f => by
      split
      next room => rw [placeReply_room addressed (frames ▸ room), frames]; rfl
      next full => rw [placeReply_full addressed (by rw [frames]; omega)]; rfl
    have engine : ∀ f, (u.placeReply r f).mgmt = if s.trunk.aOut.frames.length < 8 then
        ({ s.mgmt with engine := .idle } : Management).takeNext else { s.mgmt with engine := .replyWait r f } := fun f => by
      rw [← mgmt]
      split
      next room => rw [placeReply_room addressed (frames ▸ room)]; rfl
      next full => rw [placeReply_full addressed (by rw [frames]; omega)]; rfl
    have still : ∀ f, u.changesOnly (u.placeReply r f) [.trunk, .mgmt] := fun f => placeReply_frame (by simp) (by simp) _ _ changesOnly_refl
    have notices : ∀ f, (u.placeReply r f).records = s.records := fun f => ((still f).2.2 .records (by decide)).trans (frame.2.2 .records (by decide))
    refine ⟨_, offers, changesOnly_trans (changesOnly_mono frame (by simp)) (still _), fun zero => ?_,
      fun room => ⟨fun bad => ⟨⟨?_, ?_⟩, changesOnly_trans (changesOnly_mono frame (by simp)) (still _)⟩, fun one => ⟨?_, ?_⟩, fun zero => ⟨?_, ?_⟩⟩,
      fun full => ⟨fun no => ?_, fun zero => ?_, ?_⟩⟩
    · rw [trunk]
      split <;> rw [cleared zero] <;> exact ⟨rfl, rfl, rfl, rfl, rfl⟩
    · have no : clear ≠ 0#8 := fun zero => absurd bad (by rw [zero]; decide)
      rw [trunk, if_pos room, kept no, if_pos bad, if_neg (by simp [addressed]), notices]
    · rw [engine, if_pos room]
    · have no : clear ≠ 0#8 := by rw [one]; decide
      rw [trunk, if_pos room, kept no, if_neg (by rw [one]; decide), if_neg (by simp [addressed]), notices]
      rfl
    · rw [engine, if_pos room]
    · rw [trunk, if_pos room, cleared zero, if_neg (by rw [zero]; decide)]
      rfl
    · rw [engine, if_pos room]
    · rw [trunk, if_neg (by omega), kept no]
    · rw [trunk, if_neg (by omega), cleared zero]
      rfl
    · rw [engine, if_neg (by omega)]
      rfl
  · exact ⟨_, congrArg Host.Outcome.next (if_pos (namesNoRow_of bad)), carryOut_refuse ready _ _ rfl⟩

end Sys2Proof.Machine
end

section
/-! PROOFS. Cycles that correct an error (O16). -/

namespace Sys2Proof.Machine

variable {pl : Plan} {pre post ps : List Phase} {c x : Phase} {a e p y : Nat} {d : Direction}

/-! ### Phases that give time up in turn (R54) -/

theorem takeFrom_append (a : Nat) (ps qs : List Phase) :
    takeFrom a (ps ++ qs) = takeFrom a ps ++ takeFrom (a - (ps.map Phase.margin).sum) qs := by
  induction ps generalizing a with
  | nil => simp [takeFrom]
  | cons p ps ih =>
    have rest : a - min p.margin a - (ps.map Phase.margin).sum = a - (p.margin + (ps.map Phase.margin).sum) := by omega
    simp [takeFrom, ih, rest]

theorem takeFrom_length (a : Nat) (ps : List Phase) : (takeFrom a ps).length = ps.length := by
  induction ps generalizing a with
  | nil => rfl
  | cons p ps ih => simp [takeFrom, ih]

theorem Phase.margin_le (x : Phase) : x.margin ≤ x.split := Nat.sub_le ..

/-- R54: what is given up is the amount, or all that the phases hold above their minimums. -/
theorem takeFrom_sum (a : Nat) (ps : List Phase) :
    (takeFrom a ps).sum + min a (ps.map Phase.margin).sum = (ps.map Phase.split).sum := by
  induction ps generalizing a with
  | nil => simp [takeFrom]
  | cons p ps ih =>
    have rest := ih (a - min p.margin a)
    have low := p.margin_le
    simp only [takeFrom, List.sum_cons, List.map_cons]
    omega

/-- R54: no phase falls below its minimum. -/
theorem takeFrom_minimum (a : Nat) {ps : List Phase} (fit : ∀ x ∈ ps, x.minimum ≤ x.split) :
    List.Forall₂ (fun (x : Phase) (y : Nat) => x.minimum ≤ y) ps (takeFrom a ps) := by
  induction ps generalizing a with
  | nil => exact .nil
  | cons p ps ih =>
    have own := fit p (by simp)
    refine .cons ?_ (ih _ fun x hx => fit x (by simp [hx]))
    unfold Phase.margin
    omega

/-- R54: each phase gives as much as it can of what is still unmet. -/
theorem takeFrom_gives (ps : List Phase) : ∀ (a j : Nat), j < ps.length → (takeFrom a ps).getD j 0 ≤ (ps.map Phase.split).getD j 0 ∧
    (ps.map Phase.split).getD j 0 - (takeFrom a ps).getD j 0 =
      min ((ps.map Phase.split).getD j 0 - (ps.map Phase.minimum).getD j 0)
        (a - ((List.range j).map fun i => (ps.map Phase.split).getD i 0 - (takeFrom a ps).getD i 0).sum) := by
  induction ps with
  | nil => exact fun a j hj => nomatch hj
  | cons p ps ih =>
    intro a j hj
    have own : p.split - (p.split - min p.margin a) = min (p.split - p.minimum) a := by
      have low := p.margin_le
      unfold Phase.margin at low ⊢
      omega
    cases j with
    | zero => simpa [takeFrom] using own
    | succ j =>
      obtain ⟨below, gives⟩ := ih (a - min p.margin a) j (by simpa using hj)
      simp only [takeFrom, List.map_cons, List.getD_cons_succ, List.range_succ_eq_map, List.getD_cons_zero, List.map_map,
        List.sum_cons, Function.comp_def, Nat.sub_sub] at below gives ⊢
      rw [own]
      exact ⟨below, gives⟩

/-! ### The plan cut at its coordinated phase -/

/-- The phases before the coordinated one, it, and the phases after it. -/
structure Plan.CutAt (pl : Plan) (pre : List Phase) (c : Phase) (post : List Phase) : Prop where
  phases : pl.phases = pre ++ c :: post
  coord : pl.coord = pre.length + 1

theorem Plan.exists_cutAt (low : 1 ≤ pl.coord) (high : pl.coord ≤ pl.phases.length) : ∃ pre c post, pl.CutAt pre c post := by
  refine ⟨pl.phases.take (pl.coord - 1), pl.phases[pl.coord - 1], pl.phases.drop pl.coord, ?_, ?_⟩
  · have rest := List.drop_eq_getElem_cons (l := pl.phases) (i := pl.coord - 1) (by omega)
    rw [Nat.sub_add_cancel low] at rest
    rw [← rest, List.take_append_drop]
  · rw [List.length_take]
    omega

theorem Plan.CutAt.others (cut : pl.CutAt pre c post) : pl.others = post ++ pre := by
  simp [Plan.others, cut.phases, cut.coord, List.drop_append]

/-- R54: the splits of a shortening cycle. -/
theorem Plan.CutAt.shortened (cut : pl.CutAt pre c post) (a : Nat) :
    shortenedSplits pl a = takeFrom (a - (post.map Phase.margin).sum) pre ++ c.split :: takeFrom a post := by
  have after : pl.phases.length - pl.coord = (takeFrom a post).length := by
    rw [takeFrom_length, cut.phases, cut.coord, List.length_append, List.length_cons]
    omega
  unfold shortenedSplits
  rw [after]
  simp [cut.others, takeFrom_append, Plan.splits, cut.phases, cut.coord]

/-- R53: the splits of a lengthening cycle. -/
theorem Plan.CutAt.lengthened (cut : pl.CutAt pre c post) (a : Nat) :
    lengthenedSplits pl a = pre.map Phase.split ++ (c.split + a) :: post.map Phase.split := by
  unfold lengthenedSplits Plan.splits
  rw [cut.phases, cut.coord, List.modify_eq_take_cons_drop (by simp)]
  simp [List.drop_append]

/-! ### What makes a cycle sound -/

/-- Splits that hold every phase's minimum, and the coordinated phase's own split. -/
structure SoundSplits (pre : List Phase) (c : Phase) (post : List Phase) (splits : List Nat) : Prop where
  cut : ∃ before own after, splits = before ++ own :: after ∧ c.split ≤ own ∧
    List.Forall₂ (fun (x : Phase) (y : Nat) => x.minimum ≤ y) pre before ∧
    List.Forall₂ (fun (x : Phase) (y : Nat) => x.minimum ≤ y) post after

theorem forall₂_getElem? {R : Phase → Nat → Prop} {ys : List Nat} (h : List.Forall₂ R ps ys) {j : Nat} (hx : ps[j]? = some x)
    (hy : ys[j]? = some y) : R x y := by
  induction h generalizing j with
  | nil => simp at hx
  | cons own rest ih =>
    cases j with
    | zero =>
      simp only [List.getElem?_cons_zero, Option.some.injEq] at hx hy
      exact hx ▸ hy ▸ own
    | succ j => exact ih (by simpa using hx) (by simpa using hy)

theorem SoundSplits.length {splits : List Nat} (h : SoundSplits pre c post splits) : splits.length = (pre ++ c :: post).length := by
  obtain ⟨before, own, after, rfl, -, hpre, hpost⟩ := h.cut
  simp [hpre.length_eq, hpost.length_eq]

/-- R59: no split falls below its phase's minimum, and the coordinated phase loses nothing. -/
theorem SoundSplits.keeps {splits : List Nat} (h : SoundSplits pre c post splits) (own : c.minimum ≤ c.split) {j : Nat}
    (hx : (pre ++ c :: post)[j]? = some x) (hy : splits[j]? = some y) : x.minimum ≤ y ∧ (j = pre.length → x.split ≤ y) := by
  obtain ⟨before, given, after, rfl, kept, hpre, hpost⟩ := h.cut
  have whole : List.Forall₂ (fun (x : Phase) (y : Nat) => x.minimum ≤ y) (pre ++ c :: post) (before ++ given :: after) :=
    List.rel_append hpre (.cons (own.trans kept) hpost)
  refine ⟨forall₂_getElem? whole hx hy, fun place => ?_⟩
  subst place
  rw [List.getElem?_append_right (Nat.le_refl _), Nat.sub_self] at hx
  rw [hpre.length_eq, List.getElem?_append_right (Nat.le_refl _), Nat.sub_self] at hy
  simp only [List.getElem?_cons_zero, Option.some.injEq] at hx hy
  exact hx ▸ hy ▸ kept

section
variable (fit : ∀ x ∈ pre ++ c :: post, x.minimum ≤ x.split)
include fit

theorem soundSplits_shortened (cut : pl.CutAt pre c post) (a : Nat) : SoundSplits pre c post (shortenedSplits pl a) :=
  ⟨_, _, _, cut.shortened a, Nat.le_refl _, takeFrom_minimum _ fun x hx => fit x (by simp [hx]),
    takeFrom_minimum _ fun x hx => fit x (by simp [hx])⟩

theorem soundSplits_lengthened (cut : pl.CutAt pre c post) (a : Nat) : SoundSplits pre c post (lengthenedSplits pl a) := by
  refine ⟨_, _, _, cut.lengthened a, Nat.le_add_right .., ?_, ?_⟩ <;> rw [List.forall₂_map_right_iff, List.forall₂_same] <;>
    exact fun x hx => fit x (by simp [hx])

end

theorem Plan.CutAt.avail (cut : pl.CutAt pre c post) : pl.avail = (post.map Phase.margin).sum + (pre.map Phase.margin).sum := by
  rw [Plan.avail, cut.others, List.map_append, List.sum_append]

theorem Plan.CutAt.splits_sum (cut : pl.CutAt pre c post) :
    pl.splits.sum = (pre.map Phase.split).sum + c.split + (post.map Phase.split).sum := by
  rw [Plan.splits, cut.phases, List.map_append, List.sum_append, List.map_cons, List.sum_cons]
  omega

theorem Plan.CutAt.shortened_sum (cut : pl.CutAt pre c post) (fits : a ≤ pl.avail) : (shortenedSplits pl a).sum + a = pl.splits.sum := by
  have after := takeFrom_sum a post
  have before := takeFrom_sum (a - (post.map Phase.margin).sum) pre
  rw [cut.avail] at fits
  rw [cut.shortened, cut.splits_sum, List.sum_append, List.sum_cons]
  omega

theorem Plan.CutAt.lengthened_sum (cut : pl.CutAt pre c post) (a : Nat) : (lengthenedSplits pl a).sum = pl.splits.sum + a := by
  rw [cut.lengthened, cut.splits_sum, List.sum_append, List.sum_cons]
  omega

/-- R54: from the coordinated phase on, wrapping at the list's end, the phases give time up in turn. -/
theorem Plan.CutAt.shortened_rotated (cut : pl.CutAt pre c post) (a : Nat) :
    (shortenedSplits pl a).rotate pre.length = c.split :: takeFrom a pl.others := by
  rw [cut.shortened, cut.others, takeFrom_append]
  conv => lhs; rw [← takeFrom_length (a - (post.map Phase.margin).sum) pre]
  rw [List.rotate_append_length_eq]
  rfl

theorem getD_rotate {l : List Nat} {m k n : Nat} (length : l.length = n) (inside : k < n) : l.getD ((m + k) % n) 0 = (l.rotate m).getD k 0 := by
  subst length
  simp only [List.getD, List.getElem?_rotate inside, Nat.add_comm]

/-! ### The correcting cycle by its direction (R49) -/

/-- R49: a cycle that shortens by `a`. -/
theorem correctedRun_of_shorter (shorter : cycleAmount pl e d = (true, a)) : correctedRun pl p e d = ⟨p, pl.cycle - a, shortenedSplits pl a⟩ := by
  simp [correctedRun, shorter]

theorem correctedRun_of_longer (longer : cycleAmount pl e d = (false, a)) : correctedRun pl p e d = ⟨p, pl.cycle + a, lengthenedSplits pl a⟩ := by
  simp [correctedRun, longer]

/-- R49's table: what a cycle corrects. -/
theorem cycleAmount_cases (pl : Plan) (e : Nat) (d : Direction) :
    (cycleAmount pl e d = (true, min e pl.usable) ∧ d = .shorten) ∨ (cycleAmount pl e d = (true, e) ∧ d = .immediate ∧ e ≤ pl.avail) ∨
    (cycleAmount pl e d = (false, min (pl.cycle - e) pl.longLimit) ∧ d = .lengthen) ∨
    (cycleAmount pl e d = (false, pl.cycle - e) ∧ d = .immediate ∧ pl.avail < e) := by
  cases d with
  | shorten => exact .inl ⟨rfl, rfl⟩
  | lengthen => exact .inr (.inr (.inl ⟨rfl, rfl⟩))
  | immediate =>
    by_cases within : e ≤ pl.avail
    · exact .inr (.inl ⟨if_pos within, rfl, within⟩)
    · exact .inr (.inr (.inr ⟨if_neg within, rfl, Nat.not_le.mp within⟩))

/-- R54: what each phase gives in a shortening cycle, in turn from the coordinated one. -/
theorem Plan.CutAt.gives (cut : pl.CutAt pre c post) (fit : ∀ x ∈ pre ++ c :: post, x.minimum ≤ x.split) (a : Nat) {n m b : Nat}
    (length : pl.phases.length = n) (start : m = pre.length) (amount : a = b) :
    let place := fun k => (m + k) % n
    let split := fun k => (pl.phases.map Phase.split).getD (place k) 0
    let gives := fun k => split k - (shortenedSplits pl a).getD (place k) 0
    ∀ k, k < n → (shortenedSplits pl a).getD (place k) 0 ≤ split k ∧
      gives k = if k = 0 then 0 else
        min (split k - (pl.phases.map Phase.minimum).getD (place k) 0) (b - ((List.range k).map gives).sum) := by
  subst start amount
  intro place split gives k inside
  have rotated : ∀ f : Phase → Nat, (pl.phases.map f).rotate pre.length = f c :: pl.others.map f := fun f => by
    rw [cut.others, cut.phases, List.map_append, List.map_cons, ← List.length_map (f := f) (as := pre), List.rotate_append_length_eq]
    simp
  have splitsAt : ∀ k, k < n → split k = (c.split :: pl.others.map Phase.split).getD k 0 := fun k inside => by
    rw [← rotated, ← getD_rotate (by rw [List.length_map, length]) inside]
  have minimumAt : (pl.phases.map Phase.minimum).getD (place k) 0 = (c.minimum :: pl.others.map Phase.minimum).getD k 0 := by
    rw [← rotated, ← getD_rotate (by rw [List.length_map, length]) inside]
  have count : (shortenedSplits pl a).length = n := by
    rw [(soundSplits_shortened fit cut a).length, ← cut.phases, length]
  have givenAt : ∀ k, k < n → (shortenedSplits pl a).getD (place k) 0 = (c.split :: takeFrom a pl.others).getD k 0 := fun k inside => by
    rw [← cut.shortened_rotated, ← getD_rotate count inside]
  have turns : (List.range k).map gives = (List.range k).map fun i =>
      (c.split :: pl.others.map Phase.split).getD i 0 - (c.split :: takeFrom a pl.others).getD i 0 :=
    List.map_congr_left fun i hi => by
      have before : i < n := (List.mem_range.mp hi).trans inside
      simp only [gives, splitsAt i before, givenAt i before]
  rw [turns]
  simp only [gives, splitsAt k inside, givenAt k inside, minimumAt]
  cases k with
  | zero => simp
  | succ k =>
    have within : k < pl.others.length := by
      rw [cut.others, List.length_append]
      rw [← length, cut.phases, List.length_append, List.length_cons] at inside
      omega
    obtain ⟨below, gives⟩ := takeFrom_gives pl.others a k within
    simp only [List.getD_cons_succ, List.range_succ_eq_map, List.map_cons, List.getD_cons_zero, List.map_map, List.sum_cons,
      Function.comp_def, Nat.sub_self, Nat.zero_add, Nat.succ_ne_zero, if_false] at below gives ⊢
    exact ⟨below, gives⟩

theorem phaseOf_split (x : PhaseEntry) : (phaseOf x).split = x.split.toNat := rfl

/-- Settles O16, by R49's table: the splits of a shortening and of a lengthening cycle, with the plan cut at its coordinated phase. -/
theorem correctedCyclesAreSound : Obligations.CorrectedCyclesAreSound := by
  intro cycle offset shortPct longPct coord phases p e d legal sums low high pl
  obtain ⟨-, -, -, -, -, entries, -, first, last⟩ := legal
  have length : pl.phases.length = phases.length := List.length_map ..
  have total : pl.splits.sum = pl.cycle := by
    unfold splitsSum at sums
    simpa [Plan.splits, pl, planGiven, Function.comp_def, phaseOf_split] using sums
  obtain ⟨pre, c, post, cut⟩ := pl.exists_cutAt first (by rw [length]; exact last)
  have fit : ∀ x ∈ pre ++ c :: post, x.minimum ≤ x.split := by
    rw [← cut.phases]
    intro x hx
    obtain ⟨y, hy, rfl⟩ := List.mem_map.mp hx
    exact (entries y hy).2.2.2
  have place : coord.toNat = pre.length + 1 := cut.coord
  have cyc : pl.cycle = cycle.toNat := rfl
  have availLe : pl.avail ≤ pl.cycle := by
    have whole := cut.shortened_sum (Nat.le_refl _)
    omega
  have usableLe : pl.usable ≤ pl.avail := Nat.min_le_right ..
  have keeps : ∀ splits, SoundSplits pre c post splits → ∀ (j : Nat) (x : Phase) (y : Nat), pl.phases[j]? = some x → splits[j]? = some y →
      x.minimum ≤ y ∧ (j + 1 = coord.toNat → x.split ≤ y) := fun splits sound j x y hx hy => by
    obtain ⟨least, kept⟩ := sound.keeps (fit c (by simp)) (cut.phases ▸ hx) hy
    exact ⟨least, fun at' => kept (by omega)⟩
  have counts : ∀ splits, SoundSplits pre c post splits → splits.length = phases.length := fun splits sound => by
    rw [sound.length, ← cut.phases, length]
  intro run
  rcases cycleAmount_cases pl e d with ⟨amount, rfl⟩ | ⟨amount, rfl, within⟩ | ⟨amount, rfl⟩ | ⟨amount, rfl, beyond⟩
  · have fits : min e pl.usable ≤ pl.avail := by omega
    have sum := cut.shortened_sum fits
    have sound := soundSplits_shortened fit cut (min e pl.usable)
    have hrun : run = ⟨p, pl.cycle - min e pl.usable, shortenedSplits pl (min e pl.usable)⟩ := correctedRun_of_shorter amount
    clear_value run
    subst hrun
    exact ⟨counts _ sound, by simp only; omega, rfl, by simp only; omega, by simp only; omega, keeps _ sound, fun _ => rfl, fun no => (nomatch no),
      fun no => (nomatch no), fun no => (nomatch no), fun _ => cut.gives fit _ length (by omega) (by simp only; omega)⟩
  · have sum := cut.shortened_sum within
    have sound := soundSplits_shortened fit cut e
    have hrun : run = ⟨p, pl.cycle - e, shortenedSplits pl e⟩ := correctedRun_of_shorter amount
    clear_value run
    subst hrun
    exact ⟨counts _ sound, by simp only; omega, rfl, by simp only; omega, by simp only; omega, keeps _ sound, fun no => (nomatch no),
      fun no => (nomatch no), fun _ _ => rfl, fun _ beyond => absurd within (Nat.not_le.mpr beyond),
      fun _ => cut.gives fit _ length (by omega) (by simp only; omega)⟩
  · have sum := cut.lengthened_sum (min (pl.cycle - e) pl.longLimit)
    have sound := soundSplits_lengthened fit cut (min (pl.cycle - e) pl.longLimit)
    have hrun : run = ⟨p, _, _⟩ := correctedRun_of_longer amount
    clear_value run
    subst hrun
    exact ⟨counts _ sound, by simp only; omega, rfl, by simp only; omega, by simp only; omega, keeps _ sound, fun no => (nomatch no),
      fun _ => rfl, fun no => (nomatch no), fun no => (nomatch no), fun no => no.elim (fun h => nomatch h) fun h => nomatch h.1⟩
  · have sum := cut.lengthened_sum (pl.cycle - e)
    have sound := soundSplits_lengthened fit cut (pl.cycle - e)
    have hrun : run = ⟨p, _, _⟩ := correctedRun_of_longer amount
    clear_value run
    subst hrun
    exact ⟨counts _ sound, by simp only; omega, rfl, by simp only; omega, by simp only; omega, keeps _ sound, fun no => (nomatch no),
      fun no => (nomatch no), fun _ within => absurd within (Nat.not_le.mpr beyond), fun _ _ => by simp only; omega,
      fun no => no.elim (fun h => nomatch h) fun h => absurd h.2 (Nat.not_le.mpr beyond)⟩

end Sys2Proof.Machine
end

section
/-! PROOFS. Reads of clean locations, and READ PLAN (O20). -/

namespace Sys2Proof.Machine

variable {s t u : State} {st : PlanStore} {l : Location} {i : Fin 64} {r : Request} {slot plan part : Byte} {marks : List Byte}

/-! ### A read of one location (R74) -/

theorem Location.readData_of_clean (clean : l.clean) : l.readData = l.data := by
  rw [Location.readData_eq, Location.data]
  exact List.map_congr_left fun w hw => CodeWord.readData_of_clean (clean w hw)

theorem Location.fixed_of_clean (clean : l.clean) : l.fixed = 0 := by
  rw [Location.fixed_eq, List.countP_eq_zero]
  exact fun w hw => by simp [CodeWord.isCorrected_of_clean (clean w hw)]

theorem Location.sound_of_clean (clean : l.clean) : l.sound := fun w hw => by simp [clean w hw]

/-- R74: a clean location is left as it is. -/
theorem PlanStore.read_clean (wf : st.wf = true) (mem : l ∈ st.held) (low : st.corrected ≤ 65535) (clean : l.clean) :
    st.read l = ⟨st, some l.data, 0⟩ := by
  have none : ¬(l.words.any fun w => w.finding == .uncorrectable) = true := by
    rw [unsound_iff]
    exact fun ⟨w, hw, bad⟩ => Location.sound_of_clean clean w hw bad
  have words : (l.words.mapIdx fun k w => if w.isCorrected then st.cellsOf l.num k (.fresh w.readData) else w) = l.words := by
    refine List.ext_getElem (by simp) fun n _ inside => ?_
    simp [CodeWord.isCorrected_of_clean (clean _ (List.getElem_mem inside))]
  have count : min 65535 (st.corrected + 0) = st.corrected := Nat.min_eq_right low
  rw [PlanStore.read, if_neg none, words, ← Location.fixed_eq, ← Location.readData_eq, Location.fixed_of_clean clean,
    Location.readData_of_clean clean]
  have put : st.put { l with words := l.words } = st := PlanStore.put_self wf mem
  dsimp only
  rw [put]
  exact congrArg (fun n => (⟨{ st with corrected := n }, some l.data, 0⟩ : StoreRead)) count

/-- R74: a read that marks nothing changes the store alone. -/
theorem readLocation_of_image {image : List Half} (read : (s.store.read l).image = some image) :
    s.readLocation l = (s.setStore (s.store.read l).store, some image) := by
  simp [State.readLocation, read]

theorem readLocation_of_none (read : (s.store.read l).image = none) :
    s.readLocation l = ((s.setStore (s.store.read l).store).raise .planFault, none) := by
  simp [State.readLocation, read]

/-! ### READ PLAN (R72, R73) -/

theorem readHeld_faulted (marked : l.faulted = true) : readHeld l s = withSummary s .faulted (num2 l.num) := if_pos marked

theorem readHeld_image {image : List Half} (normal : l.faulted = false) (read : (s.store.read l).image = some image) :
    readHeld l s = withSummary (s.setStore (s.store.read l).store) .done ((imagePlan image).fields ++ num2 l.num ++ s.readPins l ++
      flag1 (s.store.shadowOf l.slot l.plan).isSome) := by
  unfold readHeld
  rw [if_neg (by simp [normal]), readLocation_of_image read]

theorem readHeld_none (normal : l.faulted = false) (read : (s.store.read l).image = none) :
    readHeld l s = withSummary ((s.setStore (s.store.read l).store).raise .planFault) .faulted (num2 l.num) := by
  unfold readHeld
  rw [if_neg (by simp [normal]), readLocation_of_none read]

/-- R63, R72 to R74: what a READ PLAN of an occupied location answers and leaves, as the summary of the obligation says. -/
def State.readsBack (s t : State) (r : Request) (l : Location) (marks : List Byte) : Prop :=
  (l.faulted = true → s.answered t r .faulted (num2 l.num ++ s.store.summary) ∧ s.changesOnly t [.trunk, .mgmt]) ∧
  (l.faulted = false → l.clean → s.changesOnly t [.trunk, .mgmt] ∧
    s.answered t r .done ((imagePlan l.data).fields ++ num2 l.num ++ marks ++ s.store.summary)) ∧
  (l.faulted = false → l.sound → s.store.stuck = [] →
    t.store.corrected = min 65535 (s.store.corrected + l.fixed) ∧
    s.store.becomes { t.store with corrected := s.store.corrected } l.rewritten [l.num] ∧
    s.answered t r .done ((imagePlan l.readData).fields ++ num2 l.num ++ marks ++ t.store.summary) ∧
    s.changesOnly t [.store, .trunk, .mgmt]) ∧
  (l.faulted = false → (∃ w ∈ l.words, w.finding = .uncorrectable) →
    s.store.becomes t.store { l with faulted := true } [l.num] ∧ s.notified t .planFault ∧
    s.answered t r .faulted (num2 l.num ++ t.store.summary) ∧ s.changesOnly t [.store, .records, .trunk, .mgmt])

theorem readsBack_of {c : Instr} {o : State → Answer} (ready : s.readyFor c r) (reads : o s = readHeld l s) (mem : l ∈ s.store.held)
    (wf : s.store.wf = true) (low : s.store.corrected ≤ 65535) (shown : s.readPins l ++ flag1 (s.store.shadowOf l.slot l.plan).isSome = marks) :
    s.readsBack (carryOut c o s) r l marks := by
  refine ⟨fun marked => ?_, fun normal clean => ?_, fun normal sound unstuck => ?_, fun normal bad => ?_⟩
  · exact answered_of_read ready (reads.trans (readHeld_faulted marked))
  · have read := PlanStore.read_clean wf mem low clean
    have held := reads.trans (readHeld_image normal (congrArg StoreRead.image read))
    rw [read] at held
    obtain ⟨answered, left⟩ := answered_of_read (fields := _) ready held
    refine ⟨left, ?_⟩
    rw [← shown, ← List.append_assoc]
    exact answered
  · have read := PlanStore.read_sound sound unstuck
    have held := reads.trans (readHeld_image normal (congrArg StoreRead.image read))
    rw [read] at held
    obtain ⟨store, answered, frame⟩ := stored_of ready held
    rw [store]
    refine ⟨rfl, ?_, ?_, frame⟩
    · exact PlanStore.becomes_put wf l.rewritten
    · rw [← shown, ← List.append_assoc]
      exact answered
  · have read := PlanStore.read_unsound (st := s.store) bad
    have held := reads.trans (readHeld_none normal (congrArg StoreRead.image read))
    rw [read] at held
    obtain ⟨answered, left, frame⟩ := answered_of (bs := [.store, .records]) ready held
      (changesOnly_raise _ (by simp) (changesOnly_setStore _ (by simp) changesOnly_refl)) (by simp) (by simp)
    have store : (carryOut c o s).store = s.store.put { l with faulted := true } := left.2.2 .store (by decide)
    refine ⟨?_, ?_, ?_, changesOnly_mono frame (by simp)⟩
    · rw [store]
      exact PlanStore.becomes_put wf { l with faulted := true }
    · have records := left.2.2 .records (by decide)
      exact notified_raise (t := s.setStore _) (RecordUnit.grows_refl _) .planFault (by rw [records]; exact RecordUnit.grows_refl _)
    · rw [store]
      exact answered

theorem readPlan_bad (bad : 63 < slot.toNat ∨ 250 < plan.toNat ∨ 1 < part.toNat) : readPlan slot plan part s = withSummary s .badValue [] := by
  unfold readPlan
  split
  next i o hi ho =>
    refine if_neg fun high => ?_
    rw [index?_iff] at hi
    rcases bad with far | far | far
    · omega
    · omega
    · rw [partOfCode_none far] at ho
      exact nomatch ho
  · rfl

theorem readPlan_checked {o : Occupancy} (hi : slot.toNat = i.val) (high : plan.toNat ≤ 250) (ho : partOfCode part = some o) :
    readPlan slot plan part s = readChecked i plan.toNat o s := by
  simp only [readPlan, index?_val hi, ho]
  exact if_pos high

theorem readChecked_absent {n : Nat} {o : Occupancy} (low : 1 ≤ n) (none : s.store.partOf i n o = none) :
    readChecked i n o s = withSummary s .noSuch [] := by
  simp only [readChecked, none, if_neg (Nat.ne_of_gt low)]

theorem readChecked_held {n : Nat} {o : Occupancy} (low : 1 ≤ n) (held : s.store.partOf i n o = some l) : readChecked i n o s = readHeld l s := by
  simp only [readChecked, held, if_neg (Nat.ne_of_gt low)]

theorem recordCounts_eq (st : PlanStore) (i : Fin 64) : st.recordCounts i =
    num1 (st.held.countP fun l => l.occupancy == .record && l.slot == i) ++
      num1 (st.held.countP fun l => l.occupancy == .record && l.slot == i && l.link.isSome) := by
  simp only [PlanStore.recordCounts, ← List.countP_eq_length_filter, List.countP_filter]
  congr 3
  funext l
  exact Bool.and_comm ..

/-- R63: the pin reasons of a record, and whether it has a shadow. -/
theorem readPins_record {n : Nat} (held : s.store.recordOf i n = some l) : s.readPins l ++ flag1 (s.store.shadowOf l.slot l.plan).isSome =
    num1 (bitsNum [(s.slot i).current == n, (s.slot i).target == n, l.link.isSome]) ++ num1 (s.store.shadowOf i n).isSome.toNat := by
  obtain ⟨-, record, rfl, rfl⟩ := PlanStore.recordOf_some held
  unfold State.readPins
  rw [record]
  rfl

/-- R63: a shadow has no pin reasons. -/
theorem readPins_shadow {n : Nat} (wf : s.store.wf = true) (keyed : s.store.keyed) (held : s.store.shadowOf i n = some l) :
    s.readPins l ++ flag1 (s.store.shadowOf l.slot l.plan).isSome = [0#8, 1#8] := by
  obtain ⟨mem, shadow, rec, found, link⟩ := PlanStore.shadowOf_some held
  obtain ⟨recMem, record, slot, plan⟩ := PlanStore.recordOf_some found
  obtain ⟨a, ha, -, num, key⟩ := keyed.2.2 rec recMem record l.num link
  obtain rfl := PlanStore.eq_of_num wf ha mem num
  have whole : s.store.shadowOf a.slot a.plan = some a := by rw [← key.1, ← key.2, slot, plan, held]
  unfold State.readPins
  rw [shadow, whole]
  rfl

/-- Settles O20. -/
theorem readPlanReads : Obligations.ReadPlanReads := by
  intro s src slot plan part r ready wf low
  refine ⟨_, exec_of_owner rfl s, fun bad => ?_, fun i hi => ?_⟩
  · have e := readPlan_bad (s := s) bad
    exact answered_of_read ready e
  · intro absent reads
    refine ⟨fun zero known => ?_, fun record first last => ⟨fun none => ?_, fun l held => ?_⟩, fun shadow first last => ⟨fun none => ?_, fun keyed l held => ?_⟩⟩
    · obtain ⟨o, ho⟩ : ∃ o, partOfCode part = some o := by
        obtain rfl | rfl : part = 0#8 ∨ part = 1#8 := by bv_omega
        · exact ⟨.record, rfl⟩
        · exact ⟨.shadow, rfl⟩
      have e : readPlan slot plan part s = ⟨s, .done, s.store.summary ++ s.store.recordCounts i⟩ := by
        rw [readPlan_checked hi (by rw [zero]; decide) ho]
        exact if_pos (by rw [zero]; rfl)
      obtain ⟨answered, left⟩ := answered_of_read ready e
      refine ⟨left, ?_⟩
      rw [recordCounts_eq, ← List.append_assoc] at answered
      exact answered
    · exact answered_of_read ready ((readPlan_checked hi last (by rw [record]; rfl)).trans (readChecked_absent (o := .record) first none))
    · exact readsBack_of ready ((readPlan_checked hi last (by rw [record]; rfl)).trans (readChecked_held (o := .record) first held))
        (PlanStore.recordOf_some held).1 wf low (readPins_record held)
    · exact answered_of_read ready ((readPlan_checked hi last (by rw [shadow]; rfl)).trans (readChecked_absent (o := .shadow) first none))
    · exact readsBack_of ready ((readPlan_checked hi last (by rw [shadow]; rfl)).trans (readChecked_held (o := .shadow) first held))
        (PlanStore.shadowOf_some held).1 wf low (readPins_shadow wf keyed held)

end Sys2Proof.Machine
end

section
/-! PROOFS. CHECKSUM PLANS (O23). -/

namespace Sys2Proof.Machine

variable {s t u : State} {st : PlanStore} {l m : Location} {ms : List Location} {r : Request} {first k sum : Nat} {f g : Location → Nat} {c : Checksum}

/-! ### Sums over a range of locations (R176) -/

/-- The location is among the `k` from `first` on. -/
def inRange (first k : Nat) (l : Location) : Bool := decide (first ≤ l.num) && decide (l.num < first + k)

/-- A sum over the occupied locations of a range. -/
def tally (st : PlanStore) (first k : Nat) (f : Location → Nat) : Nat := ((st.held.filter (inRange first k)).map f).sum

theorem inRange_succ (other : l.num ≠ first + k) : inRange first (k + 1) l = inRange first k l := by
  unfold inRange
  congr 1
  exact decide_eq_decide.mpr (by omega)

theorem inRange_last (here : l.num = first + k) : inRange first (k + 1) l = true ∧ inRange first k l = false := by
  unfold inRange
  simp only [here, Bool.and_eq_true, decide_eq_true_eq, Bool.and_eq_false_iff, decide_eq_false_iff_not]
  omega

theorem tally_zero (st : PlanStore) (first : Nat) (f : Location → Nat) : tally st first 0 f = 0 := by
  have none : st.held.filter (inRange first 0) = [] := List.filter_eq_nil_iff.mpr fun l _ => by
    simp only [inRange, Bool.and_eq_true, decide_eq_true_eq]
    omega
  rw [tally, none]
  rfl

theorem sum_filter_succ (ordered : ms.Pairwise fun a b => a.num < b.num) : ((ms.filter (inRange first (k + 1))).map f).sum =
    ((ms.filter (inRange first k)).map f).sum + (ms.find? fun l => l.num == first + k).elim 0 f := by
  induction ms with
  | nil => rfl
  | cons x ms ih =>
    obtain ⟨above, ordered⟩ := List.pairwise_cons.mp ordered
    by_cases here : x.num = first + k
    · have rest : ms.filter (inRange first (k + 1)) = ms.filter (inRange first k) :=
        List.filter_congr fun y hy => inRange_succ (by have := above y hy; omega)
      obtain ⟨yes, no⟩ := inRange_last here
      have found : (x.num == first + k) = true := by simpa using here
      simp only [List.filter_cons, yes, no, List.find?_cons, found, rest, if_true, List.map_cons, List.sum_cons, Option.elim]
      simp only [Bool.false_eq_true, if_false]
      omega
    · have away : (x.num == first + k) = false := by simpa using here
      simp only [List.filter_cons, inRange_succ here, List.find?_cons, away]
      split
      · simp only [List.map_cons, List.sum_cons, ih ordered, Nat.add_assoc]
      · exact ih ordered

/-- R176: one location more. -/
theorem tally_succ (wf : st.wf = true) (first k : Nat) (f : Location → Nat) :
    tally st first (k + 1) f = tally st first k f + (st.at? (first + k)).elim 0 f := sum_filter_succ (PlanStore.wf_iff.mp wf).1

/-- A sum over chosen elements is a sum of their shares. -/
theorem sum_filter_map {α : Type} (p : α → Bool) (f : α → Nat) (xs : List α) :
    ((xs.filter p).map f).sum = (xs.map fun x => if p x then f x else 0).sum := by
  induction xs with
  | nil => rfl
  | cons x xs ih =>
    cases chosen : p x <;> simp [chosen, ih]

theorem length_filter_sum {α : Type} (p : α → Bool) (xs : List α) : (xs.filter p).length = (xs.map fun x => if p x then 1 else 0).sum := by
  rw [← sum_filter_map, List.map_const', List.sum_replicate, smul_eq_mul, Nat.mul_one]

/-! ### What a checksum finds at a location -/

/-- R74: no word of the location is beyond repair. -/
def Location.repairable (l : Location) : Bool := l.words.all fun w => w.finding != .uncorrectable

/-- R176: the location is read and summed; read and found beyond repair. -/
def Location.good (l : Location) : Bool := !l.faulted && l.repairable

def Location.spoilt (l : Location) : Bool := !l.faulted && !l.repairable

/-- R74, R176: a location after the locations of a range have been read, without stuck cells. -/
def afterRead (first k : Nat) (l : Location) : Location :=
  if l.faulted = true ∨ inRange first k l = false then l else if l.repairable = true then l.rewritten else { l with faulted := true }

theorem repairable_iff : l.repairable = true ↔ l.sound := by
  simp [Location.repairable, Location.sound]

theorem not_repairable_iff : l.repairable = false ↔ ∃ w ∈ l.words, w.finding = .uncorrectable := by
  simp [Location.repairable]

theorem afterRead_num (first k : Nat) (l : Location) : (afterRead first k l).num = l.num := by
  unfold afterRead
  split
  · rfl
  · split <;> rfl

theorem afterRead_succ (still : l.num ≠ first + k ∨ l.faulted = true) : afterRead first (k + 1) l = afterRead first k l := by
  unfold afterRead
  by_cases marked : l.faulted = true
  · simp [marked]
  · rw [inRange_succ (still.resolve_right marked)]

/-- A location placed over one of its number. -/
theorem insertLocation_map {l' : Location} {h : Location → Location} (ordered : ms.Pairwise fun a b => a.num < b.num) (mem : l ∈ ms)
    (num : l'.num = l.num) (same : ∀ m, (h m).num = m.num) :
    insertLocation l' (ms.map h) = ms.map fun m => if m.num = l.num then l' else h m := by
  induction ms with
  | nil => exact nomatch mem
  | cons x ms ih =>
    obtain ⟨above, ordered⟩ := List.pairwise_cons.mp ordered
    rw [List.map_cons, insertLocation, same, num]
    rcases List.mem_cons.mp mem with rfl | mem
    · rw [if_neg (Nat.lt_irrefl _), if_pos rfl, List.map_cons, if_pos rfl]
      exact congrArg _ (List.map_congr_left fun y hy => (if_neg (Nat.ne_of_gt (above y hy))).symm)
    · have before := above l mem
      rw [if_neg (by omega), if_neg (by omega), List.map_cons, if_neg (by omega), ih ordered mem]

theorem mem_read (wf : st.wf = true) (other : m.num ≠ l.num) : m ∈ (st.read l).store.held ↔ m ∈ st.held := by
  unfold PlanStore.read
  split <;> exact (PlanStore.mem_put wf).trans ⟨fun h => h.elim (fun same => absurd (by rw [same]) other) And.right, fun h => .inr ⟨other, h⟩⟩

/-! ### The locations taken so far (R176, R177) -/

/-- What a checksum has, of what it found in `s`, when it has taken `k` locations from `first` on. -/
structure Summed (s : State) (first sum k : Nat) (c : Checksum) : Prop where
  wf : c.state.store.wf = true
  ahead : ∀ l : Location, first + k ≤ l.num → (l ∈ c.state.store.held ↔ l ∈ s.store.held)
  sum : c.sum = (sum + tally s.store first k fun l => if l.good then imageSum l.readData else 0) % 65536
  read : c.read = tally s.store first k fun l => if !l.faulted then 1 else 0
  faulted : c.faulted = tally s.store first k fun l => if l.good then 0 else 1
  fixed : c.fixed = tally s.store first k fun l => if l.good then l.fixed else 0
  store : s.store.stuck = [] → c.state.store = { s.store with
    held := s.store.held.map (afterRead first k), corrected := min 65535 (s.store.corrected + c.fixed) }
  told : 0 < (tally s.store first k fun l => if l.spoilt then 1 else 0) → s.notified c.state .planFault
  quiet : (tally s.store first k fun l => if l.spoilt then 1 else 0) = 0 → c.state.records = s.records
  clean : (∀ l ∈ s.store.held, inRange first k l = true → l.faulted = false → l.clean) → c.state = s
  grown : s.records.grows c.state.records
  only : s.onlyNotices c.state
  frame : s.changesOnly c.state [.store, .records]

theorem summed_start (wf : s.store.wf = true) (low : s.store.corrected ≤ 65535) (small : sum < 65536) (first : Nat) :
    Summed s first sum 0 ⟨s, sum, 0, 0, 0⟩ where
  wf := wf
  ahead _ _ := Iff.rfl
  sum := by rw [tally_zero, Nat.add_zero, Nat.mod_eq_of_lt small]
  read := (tally_zero ..).symm
  faulted := (tally_zero ..).symm
  fixed := (tally_zero ..).symm
  store _ := by
    have still : s.store.held.map (afterRead first 0) = s.store.held := by
      refine (List.map_congr_left fun l _ => if_pos (.inr ?_)).trans (List.map_id _)
      simp only [inRange, Bool.and_eq_false_iff, decide_eq_false_iff_not]
      omega
    rw [still, Nat.add_zero, Nat.min_eq_right low]
  told some := absurd some (by rw [tally_zero]; decide)
  quiet _ := rfl
  clean _ := rfl
  grown := RecordUnit.grows_refl _
  only := onlyNotices_refl s
  frame := changesOnly_refl

/-- The location that comes next is as it was at the start. -/
theorem Summed.at?_eq (h : Summed s first sum k c) (wf : s.store.wf = true) : c.state.store.at? (first + k) = s.store.at? (first + k) := by
  refine Option.ext fun l => ?_
  rw [PlanStore.at?_iff h.wf, PlanStore.at?_iff wf]
  exact ⟨fun ⟨mem, num⟩ => ⟨(h.ahead l (Nat.le_of_eq num.symm)).mp mem, num⟩, fun ⟨mem, num⟩ => ⟨(h.ahead l (Nat.le_of_eq num.symm)).mpr mem, num⟩⟩

/-- R176: a free number. -/
theorem Summed.free (h : Summed s first sum k c) (wf : s.store.wf = true) (free : s.store.at? (first + k) = none) : Summed s first sum (k + 1) c := by
  have same : ∀ f, tally s.store first (k + 1) f = tally s.store first k f := fun f => by rw [tally_succ wf, free]; rfl
  have away := PlanStore.at?_none.mp free
  exact
    { h with
      ahead := fun l above => h.ahead l (by omega)
      sum := by rw [same]; exact h.sum
      read := by rw [same]; exact h.read
      faulted := by rw [same]; exact h.faulted
      fixed := by rw [same]; exact h.fixed
      store := fun unstuck => by
        rw [h.store unstuck, List.map_congr_left fun l hl => afterRead_succ (first := first) (k := k) (.inl (away l hl))]
      told := fun some => h.told (same _ ▸ some)
      quiet := fun none => h.quiet (same _ ▸ none)
      clean := fun all => h.clean fun l hl inside => all l hl (by rw [inRange_succ (away l hl)]; exact inside) }

/-- R176: a location marked FAULTED is counted and left. -/
theorem Summed.marked (h : Summed s first sum k c) (wf : s.store.wf = true) (found : s.store.at? (first + k) = some l) (marked : l.faulted = true) :
    Summed s first sum (k + 1) { c with faulted := c.faulted + 1 } := by
  obtain ⟨mem, num⟩ := PlanStore.at?_some found
  have more : ∀ f, tally s.store first (k + 1) f = tally s.store first k f + f l := fun f => by rw [tally_succ wf, found]; rfl
  have bad : l.good = false := by simp [Location.good, marked]
  have unspoilt : l.spoilt = false := by simp [Location.spoilt, marked]
  exact
    { h with
      ahead := fun m above => h.ahead m (by omega)
      sum := by rw [more, bad]; exact h.sum
      read := by rw [more, marked]; exact h.read
      faulted := by rw [more, bad]; exact congrArg (· + 1) h.faulted
      fixed := by rw [more, bad]; exact h.fixed
      store := fun unstuck => by
        rw [h.store unstuck, List.map_congr_left fun m hm => afterRead_succ (first := first) (k := k) ?_]
        by_cases here : m.num = first + k
        · obtain rfl := PlanStore.eq_of_num wf hm mem (here.trans num.symm)
          exact .inr marked
        · exact .inl here
      told := fun some => h.told (by rw [more, unspoilt] at some; exact some)
      quiet := fun none => h.quiet (by rw [more, unspoilt] at none; exact none)
      clean := fun all => h.clean fun m hm inside normal => by
        by_cases here : m.num = first + k
        · rw [(inRange_last here).2] at inside
          exact nomatch inside
        · exact all m hm (by rw [inRange_succ here]; exact inside) normal }

theorem PlanStore.read_gives (sound : l.sound) (st : PlanStore) : (st.read l).image = some l.readData ∧ (st.read l).fixed = l.fixed := by
  have none : ¬(l.words.any fun w => w.finding == .uncorrectable) = true := by
    rw [unsound_iff]
    exact fun ⟨w, hw, bad⟩ => sound w hw bad
  rw [PlanStore.read, if_neg none]
  exact ⟨congrArg some (Location.readData_eq l).symm, (Location.fixed_eq l).symm⟩

/-- The locations after one more has been read. -/
theorem afterRead_placed {l' : Location} (wf : st.wf = true) (mem : l ∈ st.held) (num : l.num = first + k) (same : l'.num = l.num)
    (read : afterRead first (k + 1) l = l') : insertLocation l' (st.held.map (afterRead first k)) = st.held.map (afterRead first (k + 1)) := by
  rw [insertLocation_map (PlanStore.wf_iff.mp wf).1 mem same fun m => afterRead_num ..]
  refine List.map_congr_left fun m hm => ?_
  split
  next here => rw [PlanStore.eq_of_num wf hm mem here, read]
  next away => exact (afterRead_succ (.inl fun here => away (here.trans num.symm))).symm

/-- The locations read so far were clean too. -/
theorem Summed.clean_before (h : Summed s first sum k c)
    (all : ∀ m ∈ s.store.held, inRange first (k + 1) m = true → m.faulted = false → m.clean) : c.state = s :=
  h.clean fun m hm inside normal => by
    by_cases here : m.num = first + k
    · rw [(inRange_last here).2] at inside
      exact nomatch inside
    · exact all m hm (by rw [inRange_succ here]; exact inside) normal

/-- A read of the next location leaves those behind it. -/
theorem Summed.ahead_read (h : Summed s first sum k c) (num : l.num = first + k) {m : Location} (above : first + (k + 1) ≤ m.num) :
    m ∈ (c.state.store.read l).store.held ↔ m ∈ s.store.held :=
  (mem_read h.wf (by omega)).trans (h.ahead m (by omega))

section
variable (h : Summed s first sum k c) (wf : s.store.wf = true) (found : s.store.at? (first + k) = some l) (normal : l.faulted = false)
include h wf found normal

/-- R74, R176: a location that reads well is summed as corrected, and written back. -/
theorem Summed.good (low : s.store.corrected ≤ 65535) (sound : l.sound) : Summed s first sum (k + 1)
    { c with
      state := c.state.setStore (c.state.store.read l).store
      sum := (c.sum + imageSum l.readData) % 65536
      read := c.read + 1
      fixed := c.fixed + l.fixed } := by
  obtain ⟨mem, num⟩ := PlanStore.at?_some found
  have more : ∀ f, tally s.store first (k + 1) f = tally s.store first k f + f l := fun f => by rw [tally_succ wf, found]; rfl
  have here := (h.ahead l (Nat.le_of_eq num.symm)).mpr mem
  have repairable := repairable_iff.mpr sound
  have good : l.good = true := by simp [Location.good, normal, repairable]
  have unspoilt : l.spoilt = false := by simp [Location.spoilt, repairable]
  exact
    { wf := PlanStore.read_wf h.wf here
      ahead := fun m above => h.ahead_read num above
      sum := by
        rw [more, good, h.sum]
        simp only [if_true]
        omega
      read := by rw [more, normal]; exact congrArg (· + 1) h.read
      faulted := by rw [more, good]; exact h.faulted
      fixed := by rw [more, good]; exact congrArg (· + l.fixed) h.fixed
      store := fun unstuck => by
        have before := h.store unstuck
        have read := PlanStore.read_sound (st := c.state.store) sound (by rw [before]; exact unstuck)
        have placed := afterRead_placed (l' := l.rewritten) wf mem num rfl (by
          rw [afterRead, if_neg (by simp [normal, (inRange_last num).1]), if_pos repairable])
        rw [State.setStore_store, read, before, PlanStore.put, placed]
        refine congrArg (fun n => ({ s.store with held := _, corrected := n } : PlanStore)) ?_
        show min 65535 (min 65535 (s.store.corrected + c.fixed) + l.fixed) = min 65535 (s.store.corrected + (c.fixed + l.fixed))
        omega
      told := fun some => h.told (by rw [more, unspoilt] at some; exact some)
      quiet := fun none => h.quiet (by rw [more, unspoilt] at none; exact none)
      clean := fun all => by
        rw [h.clean_before all, PlanStore.read_clean wf mem low (all l mem (inRange_last num).1 normal)]
        rfl
      grown := h.grown
      only := h.only
      frame := changesOnly_setStore _ (by simp) h.frame }

/-- R74, R176: a location beyond repair is counted as read and as FAULTED, and is marked, with PLAN_FAULT. -/
theorem Summed.spoilt (bad : ∃ w ∈ l.words, w.finding = .uncorrectable) : Summed s first sum (k + 1)
    { c with
      state := (c.state.setStore (c.state.store.read l).store).raise .planFault
      read := c.read + 1
      faulted := c.faulted + 1 } := by
  obtain ⟨mem, num⟩ := PlanStore.at?_some found
  have more : ∀ f, tally s.store first (k + 1) f = tally s.store first k f + f l := fun f => by rw [tally_succ wf, found]; rfl
  have here := (h.ahead l (Nat.le_of_eq num.symm)).mpr mem
  have repairable := not_repairable_iff.mpr bad
  have good : l.good = false := by simp [Location.good, repairable]
  have spoilt : l.spoilt = true := by simp [Location.spoilt, normal, repairable]
  exact
    { wf := PlanStore.read_wf h.wf here
      ahead := fun m above => h.ahead_read num above
      sum := by rw [more, good]; exact h.sum
      read := by rw [more, normal]; exact congrArg (· + 1) h.read
      faulted := by rw [more, good]; exact congrArg (· + 1) h.faulted
      fixed := by rw [more, good]; exact h.fixed
      store := fun unstuck => by
        have before := h.store unstuck
        have placed := afterRead_placed (l' := { l with faulted := true }) wf mem num rfl (by
          rw [afterRead, if_neg (by simp [normal, (inRange_last num).1]), if_neg (by simp [repairable])])
        show (c.state.store.read l).store = _
        rw [PlanStore.read_unsound bad, before, PlanStore.put, placed]
      told := fun _ => notified_raise (t := c.state.setStore _) h.grown .planFault (RecordUnit.grows_refl _)
      quiet := fun none => by
        rw [more, spoilt] at none
        exact absurd none (Nat.succ_ne_zero _)
      clean := fun all => by
        obtain ⟨w, hw, beyond⟩ := bad
        exact absurd beyond (by rw [all l mem (inRange_last num).1 normal w hw]; decide)
      grown := RecordUnit.grows_trans h.grown (RecordUnit.grows_raise _ _)
      only := onlyNotices_raise (t := c.state.setStore _) .planFault h.only
      frame := changesOnly_raise _ (by simp) (changesOnly_setStore _ (by simp) h.frame) }

end

/-- R176, R177: one location taken. -/
theorem Summed.step (h : Summed s first sum k c) (wf : s.store.wf = true) (low : s.store.corrected ≤ 65535) :
    Summed s first sum (k + 1) (c.step (first + k)) := by
  unfold Checksum.step
  rw [h.at?_eq wf]
  cases found : s.store.at? (first + k) with
  | none => exact h.free wf found
  | some l =>
    dsimp only
    split
    next marked => exact h.marked wf found marked
    next unmarked =>
      have normal : l.faulted = false := by simpa using unmarked
      cases repairable : l.repairable with
      | true =>
        have sound := repairable_iff.mp repairable
        obtain ⟨image, fixed⟩ := PlanStore.read_gives sound c.state.store
        rw [readLocation_of_image image, fixed]
        exact h.good wf found normal low sound
      | false =>
        have bad := not_repairable_iff.mp repairable
        rw [readLocation_of_none (congrArg StoreRead.image (PlanStore.read_unsound bad))]
        exact h.spoilt wf found normal bad

theorem summed_range (wf : s.store.wf = true) (low : s.store.corrected ≤ 65535) (small : sum < 65536) (first k : Nat) :
    Summed s first sum k (((List.range k).map (first + ·)).foldl Checksum.step ⟨s, sum, 0, 0, 0⟩) := by
  induction k with
  | zero => exact summed_start wf low small first
  | succ k ih =>
    rw [List.range_succ, List.map_append, List.foldl_append]
    exact ih.step wf low

/-! ### CHECKSUM PLANS (R176) -/

/-- The locations of a range that are read, and those that are summed. -/
def readsOf (st : PlanStore) (first k : Nat) : List Location := (st.held.filter (inRange first k)).filter fun l => !l.faulted

def goodsOf (st : PlanStore) (first k : Nat) : List Location := (readsOf st first k).filter Location.repairable

theorem length_filter_compl {α : Type} (p : α → Bool) (xs : List α) : (xs.map fun x => if p x then 0 else 1).sum + (xs.filter p).length = xs.length := by
  induction xs with
  | nil => rfl
  | cons x xs ih =>
    cases chosen : p x <;> simp [chosen] <;> omega

theorem goodsOf_eq (st : PlanStore) (first k : Nat) : goodsOf st first k = (st.held.filter (inRange first k)).filter Location.good := by
  rw [goodsOf, readsOf, List.filter_filter]
  exact List.filter_congr fun l _ => Bool.and_comm ..

theorem tally_good (st : PlanStore) (first k : Nat) (f : Location → Nat) :
    (tally st first k fun l => if l.good then f l else 0) = ((goodsOf st first k).map f).sum := by
  rw [goodsOf_eq, sum_filter_map]
  rfl

theorem tally_read (st : PlanStore) (first k : Nat) : (tally st first k fun l => if !l.faulted then 1 else 0) = (readsOf st first k).length := by
  rw [readsOf, length_filter_sum]
  rfl

theorem tally_faulted (st : PlanStore) (first k : Nat) :
    (tally st first k fun l => if l.good then 0 else 1) = (st.held.filter (inRange first k)).length - (goodsOf st first k).length := by
  have whole := length_filter_compl Location.good (st.held.filter (inRange first k))
  rw [goodsOf_eq, tally]
  omega

theorem tally_spoilt (st : PlanStore) (first k : Nat) :
    (tally st first k fun l => if l.spoilt then 1 else 0) + (goodsOf st first k).length = (readsOf st first k).length := by
  have whole := length_filter_compl Location.repairable (readsOf st first k)
  rw [readsOf, sum_filter_map] at whole
  have same : ∀ l : Location, (if l.spoilt then 1 else 0) = if !l.faulted then (if l.repairable then 0 else 1) else 0 := fun l => by
    unfold Location.spoilt
    cases l.faulted <;> cases l.repairable <;> rfl
  simp only [tally, same]
  exact whole

theorem checksumPlans_of_bad {last : Nat} (bad : 1023 < first ∨ 1023 < last ∨ last < first) : checksumPlans first last sum s = refuse .badValue s := by
  have out : Config.locations ≤ first ∨ Config.locations ≤ last ∨ last < first := bad
  exact if_pos out

/-- R176: whether the range is through. -/
theorem checksumPlans_of {last : Nat} (order : first ≤ last) (high : last ≤ 1023) (c : Checksum) (hc : checksumRun first last sum s = c) :
    checksumPlans first last sum s = ⟨c.state, if last < first + 64 then .done else .partly, num2 c.sum ++
      ((if last < first + 64 then [] else num2 (first + 64)) ++ (num1 (min 64 (last + 1 - first)) ++ num1 c.read ++ num1 c.faulted ++ num2 c.fixed))⟩ := by
  have inside : ¬(Config.locations ≤ first ∨ Config.locations ≤ last ∨ last < first) := by
    simp only [Config.locations]
    omega
  unfold checksumPlans checksumTaken
  rw [if_neg inside, hc]
  dsimp only
  by_cases near : last < first + 64
  · rw [if_pos (by omega), if_pos near, if_pos near]
    rfl
  · rw [if_neg (by omega), if_neg near, if_neg near, List.append_assoc]

/-- Settles O23. -/
theorem checksumSums : Obligations.ChecksumSums := by
  intro s src first last sum r ready wf low
  refine ⟨_, exec_of_owner rfl s, fun bad => carryOut_refuse ready _ _ (checksumPlans_of_bad bad), fun order high => ?_⟩
  intro taken inRange' repairable read good total counts after
  have summed := summed_range wf low sum.isLt first.toNat taken
  generalize hc : ((List.range taken).map (first.toNat + ·)).foldl Checksum.step ⟨s, sum.toNat, 0, 0, 0⟩ = c at summed
  have e := checksumPlans_of (s := s) order high c hc
  obtain ⟨answered, left, frame⟩ := answered_of (bs := [.store, .records]) ready e summed.frame (by simp) (by simp)
  have records : (carryOut (.checksumPlans src first last sum) (checksumPlans first.toNat last.toNat sum.toNat) s).records = c.state.records :=
    left.2.2 .records (by decide)
  have store : (carryOut (.checksumPlans src first last sum) (checksumPlans first.toNat last.toNat sum.toNat) s).store = c.state.store :=
    left.2.2 .store (by decide)
  have spoilt : (tally s.store first.toNat taken fun l => if l.spoilt then 1 else 0) + good.length = read.length := tally_spoilt ..
  have fixed : c.fixed = (good.map Location.fixed).sum := summed.fixed.trans (tally_good ..)
  have sums : c.sum = (sum.toNat + (good.map fun l => (l.readData.map BitVec.toNat).sum).sum) % 65536 := summed.sum.trans (by rw [tally_good]; rfl)
  have listed : num1 (min 64 (last.toNat + 1 - first.toNat)) ++ num1 c.read ++ num1 c.faulted ++ num2 c.fixed = counts := by
    rw [summed.read, summed.faulted, fixed, tally_read, tally_faulted]
    rfl
  rw [listed, sums] at answered
  refine ⟨fun unstuck => ?_, fun fewer => ?_, fun all => ?_, fun clean => ?_, ?_, changesOnly_mono frame (by simp), fun near => ?_, fun far => ?_⟩
  · rw [store, summed.store unstuck, fixed]
    rfl
  · have told := summed.told (by omega)
    unfold State.notified at told ⊢
    rwa [records]
  · exact records.trans (summed.quiet (by omega))
  · have still : c.state = s := summed.clean fun l hl inside normal =>
      clean l (List.mem_filter.mpr ⟨List.mem_filter.mpr ⟨hl, inside⟩, by simp [normal]⟩)
    rw [← still]
    exact still ▸ left
  · exact onlyNotices_trans summed.only (onlyNotices_of_records records)
  · rw [if_pos near, if_pos near] at answered
    exact answered
  · rw [if_neg (by omega), if_neg (by omega)] at answered
    rw [List.append_assoc]
    exact answered

end Sys2Proof.Machine
end

section
/-! PROOFS. TEST LOCATION (O24). -/

namespace Sys2Proof.Machine

variable {s : State} {st : PlanStore} {l : Location} {r : Request} {num word bit k pattern : Nat} {level : Bool} {w : CodeWord}

/-! ### Stuck cells (log entry 8) -/

/-- A cell of a word. -/
def CodeWord.cell (w : CodeWord) (bit : Nat) : Bool := if bit < 16 then w.data.getLsbD bit else w.check.getLsbD (bit - 16)

theorem bit_forced {n : Nat} (x : BitVec n) (b : Nat) (level : Bool) (low : b < n) :
    (if level then x ||| (1#n <<< b) else x &&& ~~~(1#n <<< b)) = if x.getLsbD b = level then x else x ^^^ (1#n <<< b) := by
  have single : ∀ i, (1#n <<< b).getLsbD i = decide (i = b) := fun i => by
    by_cases same : i = b
    · simp [same, low]
    · simp only [BitVec.getLsbD_shiftLeft, same, decide_false]
      by_cases below : i < b
      · simp [below]
      · have : i - b ≠ 0 := by omega
        simp [BitVec.getLsbD_one, this]
  generalize 1#n <<< b = y at single
  refine BitVec.eq_of_getLsbD_eq fun i hi => ?_
  by_cases same : i = b
  · subst same
    cases level <;> cases held : x.getLsbD i <;> simp [single, held, hi, -BitVec.getLsbD_eq_getElem]
  · cases level <;> cases held : x.getLsbD b <;> simp [single, same, hi, -BitVec.getLsbD_eq_getElem]

/-- A cell held at a level: the word as it is, or the cell inverted. -/
theorem withBit_eq (w : CodeWord) (low : bit < 22) (level : Bool) : w.withBit bit level = if w.cell bit = level then w else w.flipCell bit := by
  unfold CodeWord.withBit CodeWord.cell CodeWord.flipCell
  split
  next data =>
    rw [bit_forced w.data bit level data]
    split <;> rfl
  next check =>
    rw [bit_forced w.check (bit - 16) level (by omega)]
    split <;> rfl

theorem flipCell_ne (w : CodeWord) (low : bit < 22) : w.flipCell bit ≠ w := by
  have moved : ∀ {n : Nat} (x : BitVec n) (b : Nat), b < n → x ^^^ (1#n <<< b) ≠ x := fun x b low same => by
    have bits := congrArg (fun y => y.getLsbD b) same
    simp [low] at bits
  intro same
  unfold CodeWord.flipCell at same
  split at same
  next data => exact moved w.data bit data (congrArg CodeWord.data same)
  next check => exact moved w.check (bit - 16) (by omega) (congrArg CodeWord.check same)

theorem cellsOf_free (away : ∀ b ∈ st.stuck, ¬(b.num = num ∧ b.word = k)) (w : CodeWord) : st.cellsOf num k w = w := by
  unfold PlanStore.cellsOf
  exact List.foldlRecOn (motive := fun v => v = w) st.stuck _ rfl fun v hv b hb => by rw [if_neg (away b hb), hv]

theorem cellsOf_single (stuck : st.stuck = [⟨num, word, bit, level⟩]) (w : CodeWord) : st.cellsOf num word w = w.withBit bit level := by
  simp [PlanStore.cellsOf, stuck]

/-! ### The test (R179) -/

theorem testWord_passes (away : ∀ b ∈ st.stuck, ¬(b.num = num ∧ b.word = k)) (pattern : Nat) : st.testWord num pattern k = none := by
  unfold PlanStore.testWord
  exact if_pos (cellsOf_free away _)

theorem findSome?_range_of_only {α : Type} {f : Nat → Option α} {n : Nat} (inside : word < n) (others : ∀ k, k ≠ word → f k = none) :
    (List.range n).findSome? f = f word := by
  induction n with
  | zero => exact absurd inside (Nat.not_lt_zero _)
  | succ n ih =>
    rw [List.range_succ, List.findSome?_append, List.findSome?_cons, List.findSome?_nil]
    by_cases last : word = n
    · subst last
      rw [List.findSome?_eq_none_iff.mpr fun k hk => others k (Nat.ne_of_lt (List.mem_range.mp hk))]
      cases f word <;> rfl
    · rw [ih (by omega), others n (Ne.symm last)]
      cases f word <;> rfl

/-- R179: where one word alone can fail, the first pattern that it does not pass. -/
theorem firstFailure_of_word (inside : word < 32) (others : ∀ b ∈ st.stuck, b.num = num → b.word = word) :
    st.firstFailure num = (st.testWord num 1 word).or ((st.testWord num 2 word).or (st.testWord num 3 word)) := by
  have each : ∀ pattern, (List.range Config.imageWords).findSome? (fun k => st.testWord num pattern k) = st.testWord num pattern word :=
    fun pattern => findSome?_range_of_only inside fun k other =>
      testWord_passes (fun b hb both => other (both.2.symm.trans (others b hb both.1))) pattern
  unfold PlanStore.firstFailure
  simp only [List.findSome?_cons, List.findSome?_nil, each]
  cases st.testWord num 1 word <;> cases st.testWord num 2 word <;> cases st.testWord num 3 word <;> rfl

theorem firstFailure_free (away : ∀ b ∈ st.stuck, b.num ≠ num) : st.firstFailure num = none := by
  refine List.findSome?_eq_none_iff.mpr fun pattern _ => List.findSome?_eq_none_iff.mpr fun k _ => ?_
  exact testWord_passes (fun b hb both => away b hb both.1) pattern

theorem patternWord_fresh (num pattern word : Nat) : ∃ d, patternWord num pattern word = CodeWord.fresh d := ⟨_, rfl⟩

/-- R179: an inverted data bit is found by DATA, and an inverted check bit by CHECK. -/
theorem classify_flipCell (d : Half) (low : bit < 22) : classify ((CodeWord.fresh d).flipCell bit) = if bit < 16 then .data else .check := by
  have found := finding_flipCell d low
  generalize (CodeWord.fresh d).flipCell bit = w at found
  unfold classify
  by_cases data : bit < 16
  · rw [decide_eq_false (by omega)] at found
    rw [found, if_pos data]
  · rw [decide_eq_true (by omega)] at found
    rw [found, if_neg data]

theorem classify_flipCells (d : Half) {bit' : Nat} (low : bit < 22) (low' : bit' < 22) (ne : bit ≠ bit') :
    classify (((CodeWord.fresh d).flipCell bit).flipCell bit') = .detect := by
  have found := finding_flipCells d low low' ne
  generalize ((CodeWord.fresh d).flipCell bit).flipCell bit' = w at found
  unfold classify
  rw [found]

/-- R179: the data bits and the check bits in which an inverted cell shows. -/
theorem flipCell_differs (w : CodeWord) (bit : Nat) : w.data ^^^ (w.flipCell bit).data = (if bit < 16 then 1#16 <<< bit else 0#16) ∧
    w.check ^^^ (w.flipCell bit).check = (if bit < 16 then 0#6 else 1#6 <<< (bit - 16)) := by
  unfold CodeWord.flipCell
  split
  next data => simp
  next check => simp

/-- R179: the test of a word with one stuck cell. -/
theorem testWord_single (stuck : st.stuck = [⟨num, word, bit, level⟩]) (low : bit < 22) (pattern : Nat) : st.testWord num pattern word =
    if (patternWord num pattern word).cell bit = level then none
    else some ⟨pattern, word, if bit < 16 then .data else .check, if bit < 16 then 1#16 <<< bit else 0#16,
      if bit < 16 then 0#6 else 1#6 <<< (bit - 16)⟩ := by
  obtain ⟨d, fresh⟩ := patternWord_fresh num pattern word
  unfold PlanStore.testWord
  dsimp only
  rw [fresh, cellsOf_single stuck, withBit_eq _ low]
  by_cases matched : (CodeWord.fresh d).cell bit = level
  · simp only [if_pos matched, if_true]
  · obtain ⟨data, check⟩ := flipCell_differs (CodeWord.fresh d) bit
    simp only [if_neg matched, if_neg (flipCell_ne (CodeWord.fresh d) low), classify_flipCell d low, data, check]

/-- The data bits of the first two patterns. -/
theorem pattern_data_cells : ∀ bit, bit < 16 → (0x5555#16).getLsbD bit = decide (bit % 2 = 0) ∧ (0xAAAA#16).getLsbD bit = decide (bit % 2 = 1) := by
  decide

theorem cell_data (d : Half) (data : bit < 16) : (CodeWord.fresh d).cell bit = d.getLsbD bit := if_pos data

theorem cell_check (d : Half) (bit : Nat) : (CodeWord.fresh d).cell (bit + 16) = (checkBits d).getLsbD bit := by
  rw [CodeWord.cell, if_neg (by omega), Nat.add_sub_cancel]
  rfl

/-- R179: one stuck data bit is found by DATA, at the first pattern that it does not match. -/
theorem firstFailure_data (stuck : st.stuck = [⟨num, word, bit, level⟩]) (inside : word < 32) (data : bit < 16) :
    st.firstFailure num = some ⟨if level = decide (bit % 2 = 0) then 2 else 1, word, .data, 1#16 <<< bit, 0#6⟩ := by
  obtain ⟨first, second⟩ := pattern_data_cells bit data
  rw [firstFailure_of_word inside (by simp [stuck]), testWord_single stuck (by omega), testWord_single stuck (by omega)]
  have one : (patternWord num 1 word).cell bit = decide (bit % 2 = 0) := (cell_data _ data).trans first
  have two : (patternWord num 2 word).cell bit = decide (bit % 2 = 1) := (cell_data _ data).trans second
  simp only [one, two, data, if_true]
  by_cases matched : level = decide (bit % 2 = 0)
  · have not : ¬decide (bit % 2 = 1) = level := by
      rw [matched, decide_eq_decide]
      omega
    rw [if_pos matched.symm, if_neg not, if_pos matched]
    rfl
  · rw [if_neg (Ne.symm matched), if_neg matched]
    rfl

/-- R179: one stuck check bit is found by CHECK, at the first pattern that it does not match. -/
theorem firstFailure_check (stuck : st.stuck = [⟨num, word, bit + 16, level⟩]) (inside : word < 32) (low : bit < 6) :
    st.firstFailure num =
      if (checkBits 0x5555#16).getLsbD bit = level then
        if (checkBits 0xAAAA#16).getLsbD bit = level then
          if (checkBits (BitVec.ofNat 16 (num * 32 + word))).getLsbD bit = level then none
          else some ⟨3, word, .check, 0#16, 1#6 <<< bit⟩
        else some ⟨2, word, .check, 0#16, 1#6 <<< bit⟩
      else some ⟨1, word, .check, 0#16, 1#6 <<< bit⟩ := by
  rw [firstFailure_of_word inside (by simp [stuck]), testWord_single stuck (by omega), testWord_single stuck (by omega),
    testWord_single stuck (by omega)]
  have one : (patternWord num 1 word).cell (bit + 16) = (checkBits 0x5555#16).getLsbD bit := cell_check _ bit
  have two : (patternWord num 2 word).cell (bit + 16) = (checkBits 0xAAAA#16).getLsbD bit := cell_check _ bit
  have three : (patternWord num 3 word).cell (bit + 16) = (checkBits (BitVec.ofNat 16 (num * 32 + word))).getLsbD bit := cell_check _ bit
  have high : ¬bit + 16 < 16 := by omega
  simp only [one, two, three, high, if_false, Nat.add_sub_cancel]
  split
  · split
    · split <;> rfl
    · rfl
  · rfl

/-- R179: two stuck data bits of a word, both against the first pattern, are found by DETECT. -/
theorem firstFailure_detect {bit' : Nat} (stuck : st.stuck = [⟨num, word, bit, decide (bit % 2 = 1)⟩, ⟨num, word, bit', decide (bit' % 2 = 1)⟩])
    (inside : word < 32) (low : bit < 16) (low' : bit' < 16) (ne : bit ≠ bit') :
    st.firstFailure num = some ⟨1, word, .detect, (1#16 <<< bit) ^^^ (1#16 <<< bit'), 0#6⟩ := by
  have against : ∀ b, b < 16 → (CodeWord.fresh 0x5555#16).cell b ≠ decide (b % 2 = 1) := fun b data => by
    rw [cell_data _ data, (pattern_data_cells b data).1, ne_eq, decide_eq_decide]
    omega
  have still : ((CodeWord.fresh 0x5555#16).flipCell bit).cell bit' = (CodeWord.fresh 0x5555#16).cell bit' := by
    have apart : (1#16 <<< bit).getLsbD bit' = false := by
      by_cases below : bit' < bit
      · simp [below]
      · have : bit' - bit ≠ 0 := by omega
        simp [BitVec.getLsbD_one, this, -BitVec.getLsbD_eq_getElem]
    rw [CodeWord.cell, CodeWord.cell, if_pos low', if_pos low', CodeWord.flipCell, if_pos low, BitVec.getLsbD_xor, apart, Bool.xor_false]
  have held : st.cellsOf num word (.fresh 0x5555#16) = ((CodeWord.fresh 0x5555#16).flipCell bit).flipCell bit' := by
    simp only [PlanStore.cellsOf, stuck, List.foldl_cons, List.foldl_nil, and_self, if_true]
    rw [withBit_eq (CodeWord.fresh 0x5555#16) (bit := bit) (by omega), if_neg (against bit low),
      withBit_eq _ (by omega), if_neg (by rw [still]; exact against bit' low')]
  have first : st.testWord num 1 word = some ⟨1, word, .detect, (1#16 <<< bit) ^^^ (1#16 <<< bit'), 0#6⟩ := by
    have moved : ((CodeWord.fresh 0x5555#16).flipCell bit).flipCell bit' ≠ CodeWord.fresh 0x5555#16 := fun same => by
      have clean := fresh_finding 0x5555#16
      rw [← same, finding_flipCells _ (by omega) (by omega) ne] at clean
      exact nomatch clean
    have base : patternWord num 1 word = .fresh 0x5555#16 := rfl
    unfold PlanStore.testWord
    dsimp only
    rw [base, held, if_neg moved, classify_flipCells _ (by omega) (by omega) ne]
    simp [CodeWord.flipCell, low, low', ← BitVec.xor_assoc]
  rw [firstFailure_of_word inside (by simp [stuck]), first]
  rfl

/-! ### TEST LOCATION -/

theorem runTest_free_passes (free : s.store.at? num = none) (passes : s.store.firstFailure num = none) :
    runTest num s = ⟨s, .done, num2 num ++ [0#8, 0#8]⟩ := by
  unfold runTest
  rw [free, passes]
  rfl

theorem runTest_free_fails {f : TestFailure} (free : s.store.at? num = none) (fails : s.store.firstFailure num = some f) :
    runTest num s = ⟨s.setLogOut (some (f.logOut num s.time.stamp)), .done, num2 num ++ [0#8, 1#8] ++ num2 num ++ num1 (testErrorCode f.error) ++
      num1 f.pattern ++ num1 f.word ++ halfBytes f.dataDiff ++ num1 f.checkDiff.toNat ++ num2 s.time.day ++ num4 s.time.nt⟩ := by
  unfold runTest
  rw [free, fails]
  simp [LogOut.fields, TestFailure.logOut, Stamp.fields, TimeBase.stamp, occupancyCode, num1]

/-- R179: the words of a location without a stuck cell are written back as they were. -/
theorem restore_eq (wf : st.wf = true) (mem : l ∈ st.held) (away : ∀ b ∈ st.stuck, b.num ≠ l.num) : st.restore l = st := by
  have words : st.writeWords l.num l.words = l.words := by
    unfold PlanStore.writeWords
    refine List.ext_getElem (by simp) fun n _ _ => ?_
    rw [List.getElem_mapIdx]
    exact cellsOf_free (fun b hb both => away b hb both.1) _
  unfold PlanStore.restore
  rw [words]
  exact PlanStore.put_self wf mem

theorem runTest_record_passes (wf : s.store.wf = true) (mem : l ∈ s.store.held) (num' : l.num = num) (record : l.occupancy = .record)
    (away : ∀ b ∈ s.store.stuck, b.num ≠ num) : runTest num s = ⟨s, .done, num2 num ++ [1#8, 0#8]⟩ := by
  have found := (PlanStore.at?_iff wf).mpr ⟨mem, num'⟩
  subst num'
  unfold runTest
  rw [found, firstFailure_free away]
  simp only [restore_eq wf mem away, occupancyCode, record]
  rfl

theorem testInUse_of (inUse : l.occupancy = .shadow ∨ (s.slot l.slot).current = l.plan ∨ (s.slot l.slot).target = l.plan ∨ l.link ≠ none) :
    s.testInUse l = true := by
  unfold State.testInUse
  split
  next => rfl
  next record => exact State.pinned_iff.mpr (inUse.resolve_left (by simp [record]))

theorem testLocation_held (low : num ≤ 1023) (found : s.store.at? num = some l) :
    testLocation num s = if s.testInUse l then refuse .inUse s else runTest num s := by
  have inside : ¬Config.locations ≤ num := by
    simp only [Config.locations]
    omega
  unfold testLocation
  rw [if_neg inside, found]

theorem testLocation_free (low : num ≤ 1023) (free : s.store.at? num = none) : testLocation num s = runTest num s := by
  have inside : ¬Config.locations ≤ num := by
    simp only [Config.locations]
    omega
  unfold testLocation
  rw [if_neg inside, free]

/-- A test of a free location that fails: the log-out record is written, and returned. -/
theorem testFails {location : Half} {src : Source} {f : TestFailure} (ready : s.readyFor (.testLocation src location) r) (low : location.toNat ≤ 1023)
    (free : s.store.at? location.toNat = none) (fails : s.store.firstFailure location.toNat = some f) :
    let t := carryOut (.testLocation src location) (testLocation location.toNat) s
    t.logOut = some ⟨location.toNat, f.error, f.pattern, f.word, f.dataDiff, f.checkDiff, ⟨s.time.day, s.time.nt⟩⟩ ∧
    s.answered t r .done (num2 location.toNat ++ [0#8, 1#8] ++ num2 location.toNat ++ num1 (testErrorCode f.error) ++ num1 f.pattern ++
      num1 f.word ++ halfBytes f.dataDiff ++ num1 f.checkDiff.toNat ++ num2 s.time.day ++ num4 s.time.nt) ∧
    s.changesOnly t [.logOut, .trunk, .mgmt] := by
  have e := (testLocation_free (s := s) low free).trans (runTest_free_fails free fails)
  obtain ⟨answered, left, frame⟩ := answered_of (bs := [.logOut]) ready e (changesOnly_setLogOut _ (by simp) changesOnly_refl) (by simp) (by simp)
  exact ⟨left.2.2 .logOut (by decide), answered, changesOnly_mono frame (by simp)⟩

/-- A test of a free location that passes. -/
theorem testPasses {location : Half} {src : Source} (ready : s.readyFor (.testLocation src location) r) (low : location.toNat ≤ 1023)
    (free : s.store.at? location.toNat = none) (passes : s.store.firstFailure location.toNat = none) :
    let t := carryOut (.testLocation src location) (testLocation location.toNat) s
    s.answered t r .done (num2 location.toNat ++ [0#8, 0#8]) ∧ s.changesOnly t [.trunk, .mgmt] :=
  answered_of_read ready ((testLocation_free (s := s) low free).trans (runTest_free_passes free passes))

/-- Settles O24. -/
theorem testLocationTests : Obligations.TestLocationTests := by
  intro s src location r ready wf
  refine ⟨_, exec_of_owner rfl s, fun high => ?_, fun l mem num inUse => ?_, fun l mem num record current target link away => ?_, fun low unheld => ?_⟩
  · exact carryOut_refuse ready _ _ (if_pos high)
  · have bound := ((PlanStore.wf_iff.mp wf).2 l mem).1
    exact carryOut_refuse ready _ _ ((testLocation_held (by omega) ((PlanStore.at?_iff wf).mpr ⟨mem, num⟩)).trans (if_pos (testInUse_of inUse)))
  · have bound := ((PlanStore.wf_iff.mp wf).2 l mem).1
    have loose : s.testInUse l = false := by
      have unpinned : ¬s.pinned l = true := fun pinned => (State.pinned_iff.mp pinned).elim current fun h => h.elim target fun h => h link
      unfold State.testInUse
      rw [record]
      simpa using unpinned
    exact answered_of_read ready ((testLocation_held (by omega) ((PlanStore.at?_iff wf).mpr ⟨mem, num⟩)).trans
      ((if_neg (by simp [loose])).trans (runTest_record_passes wf mem num record away)))
  · intro passes fails
    have free := PlanStore.at?_none.mpr unheld
    refine ⟨fun away => testPasses ready low free (firstFailure_free away), fun word bit level inside data stuck => ?_,
      fun word bit level inside check stuck => ?_, fun word bit bit' inside data data' ne stuck => ?_⟩
    · exact testFails ready low free (firstFailure_data stuck inside data)
    · have failure := firstFailure_check stuck inside check
      intro matched
      refine ⟨fun one => ?_, fun one two => ?_, fun one two => ⟨fun three => ?_, fun three => ?_⟩⟩
      · rw [if_neg one] at failure
        exact testFails ready low free failure
      · rw [if_pos one, if_neg two] at failure
        exact testFails ready low free failure
      · rw [if_pos one, if_pos two, if_neg three] at failure
        exact testFails ready low free failure
      · rw [if_pos one, if_pos two, if_pos three] at failure
        exact testPasses ready low free failure
    · exact testFails ready low free (firstFailure_detect stuck inside data data' ne)

end Sys2Proof.Machine
end

section
/-! PROOFS. Requests and their parameters (O53). -/

namespace Sys2Proof.Machine

variable {src : Source} {code : Byte} {params : List Byte} {pins : PinSample}

/-! ### Fields of the parameters (R184) -/

/-- Eight bytes spell the set whose bytes they are. -/
theorem beSet_bytes (x : SlotSet) : beSet (x.extractLsb' 56 8) (x.extractLsb' 48 8) (x.extractLsb' 40 8) (x.extractLsb' 32 8)
    (x.extractLsb' 24 8) (x.extractLsb' 16 8) (x.extractLsb' 8 8) (x.extractLsb' 0 8) = x := by
  refine BitVec.eq_of_getLsbD_eq fun i hi => ?_
  simp only [beSet, BitVec.getLsbD_append, BitVec.getLsbD_extractLsb']
  split_ifs
  all_goals
    rw [decide_eq_true (by omega), Bool.true_and]
    congr 1
    omega

theorem phaseEntries_decode (phases : List PhaseEntry) : decodePhases (phaseBytes phases) = phases := by
  induction phases with
  | nil => rfl
  | cons x phases ih =>
    show ⟨x.id, beHalf (hiByte x.split) (loByte x.split), beHalf (hiByte x.minimum) (loByte x.minimum)⟩ :: decodePhases (phaseBytes phases) = _
    rw [beHalf_halfBytes, beHalf_halfBytes, ih]

/-! ### Requests of bad form -/

theorem ite_eq_of {α : Type} {p : Prop} [Decidable p] {x y z : α} (yes : p → x = z) (no : y = z) : (if p then x else y) = z := by
  split
  next h => exact yes h
  next => exact no

/-- R160, R162: a request whose form is bad is no other row's. Every row but LOAD PLAN's and RESTART's has one length. -/
theorem decodeRequest_bad (bad : namesNoRow code params = true) : decodeRequest pins ⟨src, code, params⟩ = .unknownRequestCode src code params := by
  unfold decodeRequest
  dsimp only
  repeat
    refine ite_eq_of (fun row => ?_) ?_
    · subst row
      split
      · simp [namesNoRow, paramsFit, paramLength, restartKindUnknown] at bad
      · rfl
  refine ite_eq_of (fun row => ?_) (ite_eq_of (fun row => ?_) rfl)
  · subst row
    split
    next a b c d e f g h i n phases =>
      refine if_neg fun length => ?_
      simp [namesNoRow, paramsFit, restartKindUnknown, length] at bad
      omega
    next => rfl
  · subst row
    split
    next kind =>
      have unknown : 1 < kind.toNat := by simpa [namesNoRow, paramsFit, paramLength, restartKindUnknown] using bad
      rw [if_neg (by rintro rfl; exact absurd unknown (by decide)), if_neg (by rintro rfl; exact absurd unknown (by decide))]
    next => rfl

/-! ### LOAD PLAN -/

theorem decodeRequest_loadPlan {slot plan shortPct longPct coord : Byte} {cycle offset : Half} {phases : List PhaseEntry}
    (room : phasesRoom phases = true) : decodeRequest pins ⟨src, 0x20#8, [slot, plan] ++ halfBytes cycle ++ halfBytes offset ++
      [shortPct, longPct, coord, BitVec.ofNat 8 phases.length] ++ phaseBytes phases⟩ =
        .loadPlan src slot plan cycle offset shortPct longPct coord phases ∧
    paramsFit 0x20#8 ([slot, plan] ++ halfBytes cycle ++ halfBytes offset ++ [shortPct, longPct, coord, BitVec.ofNat 8 phases.length] ++
      phaseBytes phases) = true := by
  have few : 10 + 5 * phases.length + 3 ≤ 240 := of_decide_eq_true room
  have count : (BitVec.ofNat 8 phases.length).toNat = phases.length := by
    rw [BitVec.toNat_ofNat, Nat.mod_eq_of_lt (by omega)]
  have length : (phaseBytes phases).length = 5 * (BitVec.ofNat 8 phases.length).toNat := by rw [Laws.Carried.phaseBytes_length, count]
  constructor
  · have row : decodeRequest pins ⟨src, 0x20#8, [slot, plan] ++ halfBytes cycle ++ halfBytes offset ++
        [shortPct, longPct, coord, BitVec.ofNat 8 phases.length] ++ phaseBytes phases⟩ =
      if (phaseBytes phases).length = 5 * (BitVec.ofNat 8 phases.length).toNat then
        .loadPlan src slot plan (beHalf (hiByte cycle) (loByte cycle)) (beHalf (hiByte offset) (loByte offset)) shortPct longPct coord
          (decodePhases (phaseBytes phases))
      else .unknownRequestCode src 0x20#8 _ := rfl
    rw [row, if_pos length, beHalf_halfBytes, beHalf_halfBytes, phaseEntries_decode]
  · simp only [paramsFit, halfBytes, if_true, Bool.and_eq_true, beq_iff_eq]
    simp [length]
    omega

/-- Settles O53, row by row of Table 12-5. -/
theorem requestsRoundTrip : Obligations.RequestsRoundTrip := by
  intro pins i r fits encodes sampled
  cases i with
  | readTime src => cases encodes; exact ⟨rfl, fun _ => rfl⟩
  | unknownRequestCode src code params =>
    cases encodes
    exact ⟨decodeRequest_bad (Bool.and_eq_true_iff.mp fits).2, fun other => absurd rfl (other src code params)⟩
  | loadPlan src slot plan cycle offset shortPct longPct coord phases =>
    cases encodes
    obtain ⟨decodes, form⟩ := decodeRequest_loadPlan (pins := pins) fits
    exact ⟨decodes, fun _ => form⟩
  | restartWarm src q => cases encodes; exact ⟨congrArg (Instr.restartWarm src) (sampled src q rfl).symm, fun _ => rfl⟩
  | restartCold src => cases encodes; exact ⟨rfl, fun _ => rfl⟩
  | setDay src day => cases encodes; exact ⟨congrArg (fun day => Instr.setDay src day) (beHalf_halfBytes day), fun _ => rfl⟩
  | defineSlot src slot intersection port drop group divider mode => cases encodes; exact ⟨congrArg (fun intersection => Instr.defineSlot src slot intersection port drop group divider mode) (beHalf_halfBytes intersection), fun _ => rfl⟩
  | releaseSlot src slot => cases encodes; exact ⟨rfl, fun _ => rfl⟩
  | readSlot src slot => cases encodes; exact ⟨rfl, fun _ => rfl⟩
  | dropPlan src slot plan part => cases encodes; exact ⟨rfl, fun _ => rfl⟩
  | readPlan src slot plan part => cases encodes; exact ⟨rfl, fun _ => rfl⟩
  | setGroup src group defaultPlan policy mode tol limit => cases encodes; exact ⟨rfl, fun _ => rfl⟩
  | readGroup src group cursor => cases encodes; exact ⟨rfl, fun _ => rfl⟩
  | setCalendar src day action dayType => cases encodes; exact ⟨congrArg (fun day => Instr.setCalendar src day action dayType) (beHalf_halfBytes day), fun _ => rfl⟩
  | addBase src group mask start plan mode => cases encodes; exact ⟨congrArg (fun start => Instr.addBase src group mask start plan mode) (beHalf_halfBytes start), fun _ => rfl⟩
  | addEvent src group startDay startMinute endDay endMinute plan priority mode =>
    cases encodes
    refine ⟨?_, fun _ => rfl⟩
    show Instr.addEvent src group (beHalf (hiByte startDay) (loByte startDay)) (beHalf (hiByte startMinute) (loByte startMinute)) (beHalf (hiByte endDay) (loByte endDay)) (beHalf (hiByte endMinute) (loByte endMinute)) plan priority mode = _
    rw [beHalf_halfBytes, beHalf_halfBytes, beHalf_halfBytes, beHalf_halfBytes]
  | cutEntry src kind id => cases encodes; exact ⟨congrArg (fun id => Instr.cutEntry src kind id) (beHalf_halfBytes id), fun _ => rfl⟩
  | readTimetable src collection cursor => cases encodes; exact ⟨congrArg (fun cursor => Instr.readTimetable src collection cursor) (beHalf_halfBytes cursor), fun _ => rfl⟩
  | setCue src cue group plan duration priority => cases encodes; exact ⟨congrArg (fun duration => Instr.setCue src cue group plan duration priority) (beHalf_halfBytes duration), fun _ => rfl⟩
  | cutCue src cue group => cases encodes; exact ⟨rfl, fun _ => rfl⟩
  | directPlan src group plan duration => cases encodes; exact ⟨congrArg (fun duration => Instr.directPlan src group plan duration) (beHalf_halfBytes duration), fun _ => rfl⟩
  | endDirect src group => cases encodes; exact ⟨rfl, fun _ => rfl⟩
  | setPort src port window clear => cases encodes; exact ⟨congrArg (fun window => Instr.setPort src port window clear) (beHalf_halfBytes window), fun _ => rfl⟩
  | readPort src port => cases encodes; exact ⟨rfl, fun _ => rfl⟩
  | setHoldMap src line map => cases encodes; exact ⟨congrArg (fun map => Instr.setHoldMap src line map) (beSet_bytes map), fun _ => rfl⟩
  | clearOverride src slot => cases encodes; exact ⟨rfl, fun _ => rfl⟩
  | readStation src clear => cases encodes; exact ⟨rfl, fun _ => rfl⟩
  | setRecording src filter reload choice => cases encodes; exact ⟨congrArg (fun filter => Instr.setRecording src filter reload choice) (beSet_bytes filter), fun _ => rfl⟩
  | readRecords src maximum => cases encodes; exact ⟨rfl, fun _ => rfl⟩
  | readNotices src => cases encodes; exact ⟨rfl, fun _ => rfl⟩
  | setNoticeMask src mask => cases encodes; exact ⟨congrArg (fun mask => Instr.setNoticeMask src mask) (beHalf_halfBytes mask), fun _ => rfl⟩
  | checksumPlans src first last sum =>
    cases encodes
    refine ⟨?_, fun _ => rfl⟩
    show Instr.checksumPlans src (beHalf (hiByte first) (loByte first)) (beHalf (hiByte last) (loByte last)) (beHalf (hiByte sum) (loByte sum)) = _
    rw [beHalf_halfBytes, beHalf_halfBytes, beHalf_halfBytes]
  | testLocation src location => cases encodes; exact ⟨congrArg (fun location => Instr.testLocation src location) (beHalf_halfBytes location), fun _ => rfl⟩
  | forceCheck src location word bit1 bit2 => cases encodes; exact ⟨congrArg (fun location => Instr.forceCheck src location word bit1 bit2) (beHalf_halfBytes location), fun _ => rfl⟩
  | scrubControl src state => cases encodes; exact ⟨rfl, fun _ => rfl⟩
  | readLogout src => cases encodes; exact ⟨rfl, fun _ => rfl⟩
  | _ => exact nomatch encodes

end Sys2Proof.Machine
end

section
/-! PROOFS. READ GROUP and READ TIMETABLE (O28). -/

namespace Sys2Proof.Machine

variable {s : State} {r : Request} {g : Fin 16} {group cursor : Byte}

/-! ### Pages of a list -/

section
variable {α : Type} {found : List α} {n : Nat}

/-- A list that a page holds whole. -/
theorem page_whole (short : found.length ≤ n) : found.drop n = [] ∧ found.take n = found :=
  ⟨List.drop_eq_nil_of_le short, List.take_of_length_le short⟩

/-- A list that goes on behind its first page, and the last element of that page. -/
theorem page_full (long : n + 1 < found.length) :
    (∃ y ys, found.drop (n + 1) = y :: ys) ∧ (found.take (n + 1)).getLast? = some (found[n]'(by omega)) ∧ (found.take (n + 1)).length = n + 1 := by
  refine ⟨⟨_, _, List.drop_eq_getElem_cons long⟩, ?_, ?_⟩
  · rw [List.getLast?_eq_getElem?, List.length_take, Nat.min_eq_left (by omega), Nat.add_sub_cancel, List.getElem?_take_of_lt (by omega),
      List.getElem?_eq_getElem]
  · rw [List.length_take, Nat.min_eq_left (by omega)]

end

/-! ### READ GROUP (R93) -/

/-- R82's table. -/
theorem settles_eq (x : Group) (m : Member) : x.settles m = (x.target == 0 || (m.state == .coordinated && m.current == x.target) ||
    ((m.state == .overridden || m.state == .lost) && x.policy == .leave)) := by
  unfold Group.settles
  cases m.state <;> cases x.target == 0 <;> cases x.policy == .leave <;> simp

theorem readGroup_whole (hg : group.toNat = g.val) (low : cursor.toNat ≤ 63) (short : (s.membersFrom g cursor.toNat).length ≤ 32) :
    readGroup group cursor s = ⟨s, .done, s.groupFields g ++ num1 (s.membersFrom g cursor.toNat).length ++
      ((s.membersFrom g cursor.toNat).map (s.memberFields g)).flatten⟩ := by
  obtain ⟨none, all⟩ := page_whole short
  unfold readGroup
  rw [index?_val hg]
  dsimp only
  rw [if_neg (by omega), none, all]

theorem readGroup_page (hg : group.toNat = g.val) (low : cursor.toNat ≤ 63) (long : 32 < (s.membersFrom g cursor.toNat).length) :
    readGroup group cursor s = ⟨s, .partly, s.groupFields g ++ num1 32 ++ (((s.membersFrom g cursor.toNat).take 32).map (s.memberFields g)).flatten ++
      num1 (((s.membersFrom g cursor.toNat)[31]'(by omega)).val + 1)⟩ := by
  obtain ⟨⟨y, ys, more⟩, last, length⟩ := page_full (n := 31) long
  unfold readGroup
  rw [index?_val hg]
  dsimp only
  rw [if_neg (by omega), more, last, length]

theorem readGroup_bad (bad : 15 < group.toNat ∨ 63 < cursor.toNat) : readGroup group cursor s = refuse .badValue s := by
  unfold readGroup
  split
  · rfl
  next g hg =>
    rw [index?_iff] at hg
    exact if_pos (by omega)

/-- A member's fields, with R82's table written out. -/
theorem memberFields_eq (i : Fin 64) {m : Member} (held : s.member i = some m) : s.memberFields g i = num1 i.val ++
    num1 (slotStateCode m.state) ++ num1 m.current ++ num1 ((s.group g).settles m).toNat := by
  simp [State.memberFields, held, flag1]

/-! ### READ TIMETABLE (R114) -/

/-- An item as its key and its bytes. -/
def TableItem.pair (x : TableItem) : Nat × List Byte := (x.key, x.fields)

/-- The items of a list at or above a cursor, as keys and bytes. -/
def itemsFrom (list : List TableItem) (cursor : Nat) : List (Nat × List Byte) :=
  (list.map TableItem.pair).filter fun x => decide (cursor ≤ x.1)

variable {list : List TableItem} {cursor' : Nat}

theorem itemsFrom_eq : itemsFrom list cursor' = (list.filter fun x => decide (cursor' ≤ x.key)).map TableItem.pair := by
  rw [itemsFrom, List.filter_map]
  rfl

theorem readItems_whole (short : (itemsFrom list cursor').length ≤ 8) : readItems list cursor' s =
    ⟨s, .done, num1 (itemsFrom list cursor').length ++ ((itemsFrom list cursor').map Prod.snd).flatten ++ s.tableCounts⟩ := by
  rw [itemsFrom_eq] at short ⊢
  rw [List.length_map] at short ⊢
  obtain ⟨none, all⟩ := page_whole short
  unfold readItems
  dsimp only
  rw [none, all, List.map_map]
  rfl

theorem readItems_page (long : 8 < (itemsFrom list cursor').length) : readItems list cursor' s =
    ⟨s, .partly, num1 8 ++ (((itemsFrom list cursor').take 8).map Prod.snd).flatten ++
      num2 (((itemsFrom list cursor')[7]'(by omega)).1 + 1) ++ s.tableCounts⟩ := by
  simp only [itemsFrom_eq] at long ⊢
  rw [List.length_map] at long
  obtain ⟨⟨y, ys, more⟩, last, length⟩ := page_full (n := 7) long
  unfold readItems
  dsimp only
  rw [more, last, length, ← List.map_take, List.map_map, List.getElem_map]
  rfl

/-- The day type of a day (R96). -/
theorem dayType_eq (tables : Timetable) (day : Nat) :
    tables.dayType day = ((tables.calendar.find? fun e => e.day == day).map CalendarEntry.dayType).getD (day % 7) := by
  unfold Timetable.dayType
  cases tables.calendar.find? fun e => e.day == day <;> rfl

theorem tableCounts_eq : s.tableCounts = num1 s.tables.calendar.length ++ num2 s.tables.base.length ++ num1 s.tables.events.length ++
    num1 s.tables.cues.length ++ (if s.time.disc = .unset then [0#8, 0#8, 0#8, 0#8, 0#8, 0#8, 0#8] else
      [1#8] ++ num1 (s.tables.dayType s.time.day) ++ [1#8] ++ num1 (s.tables.dayType (yesterday s.time.day)) ++
        [1#8] ++ num2 s.time.minute) := by
  unfold State.tableCounts
  by_cases unset : s.time.disc = .unset
  · simp [unset, TimeBase.isSet, optField]
  · simp [unset, TimeBase.isSet, optField]

/-- What a READ TIMETABLE of a collection answers. -/
theorem reads_collection {src : Source} {collection : Byte} {key : Half} {range : Nat × Nat} {items : List (Nat × List Byte)} {outside : Prop}
    (ready : s.readyFor (.readTimetable src collection key) r) (held : s.tables.collection collection = some (range, list))
    (same : items = list.map TableItem.pair) (bounds : outside ↔ ¬(range.1 ≤ key.toNat ∧ key.toNat ≤ range.2)) :
    let t := carryOut (.readTimetable src collection key) (readTimetable collection key) s
    let found := items.filter fun x => decide (key.toNat ≤ x.1)
    (outside → s.answered t r .badValue s.tableCounts) ∧
    (¬outside → found.length ≤ 8 → s.answered t r .done (num1 found.length ++ (found.map Prod.snd).flatten ++ s.tableCounts)) ∧
    (¬outside → ∀ h : 8 < found.length, s.answered t r .partly (num1 8 ++ ((found.take 8).map Prod.snd).flatten ++
      num2 ((found[7]'(by omega)).1 + 1) ++ s.tableCounts)) := by
  subst same
  have inside : ¬outside → readTimetable collection key s = readItems list key.toNat s := fun within => by
    unfold readTimetable
    rw [held]
    exact if_pos (not_not.mp (mt bounds.mpr within))
  refine ⟨fun out => (answered_of_read ready ?_).1, fun within short => (answered_of_read ready ?_).1,
    fun within long => (answered_of_read ready ?_).1⟩
  · unfold readTimetable
    rw [held]
    exact if_neg (bounds.mp out)
  · exact (inside within).trans (readItems_whole short)
  · exact (inside within).trans (readItems_page long)

/-- Settles O28: the group record with its members, and the collections of the timetable, a page at a time. -/
theorem groupsAndTimetablesAreRead : Obligations.GroupsAndTimetablesAreRead := by
  unfold Obligations.GroupsAndTimetablesAreRead
  intro modeByte
  have modes : modeByte = optMode1 := by funext m; cases m <;> rfl
  refine ⟨fun s src group cursor r ready => ?_, fun s src collection cursor r ready => ?_⟩
  · refine ⟨_, exec_of_owner rfl s, changesOnly_mono (carryOut_frame (bs := []) _ (readGroup_frame _ _)) (by simp),
      fun bad => carryOut_refuse ready _ _ (readGroup_bad bad), fun g hg low => ?_⟩
    intro x settled members record found item
    have settles : settled = x.settles := funext fun m => (settles_eq x m).symm
    clear_value settled
    subst settles
    have recorded : record = s.groupFields g := by
      simp only [record, modes, State.groupFields, Group.settingFields, flag1]
      cases layer : x.layer <;> simp [x, optField] <;> rfl
    have listed : item = s.memberFields g := by
      funext i
      cases held : s.member i with
      | none => simp [item, held, State.memberFields]
      | some m => simp [item, held, memberFields_eq i held, x]
    rw [recorded, listed]
    exact ⟨fun short => (answered_of_read ready (readGroup_whole hg low short)).1,
      fun long => (answered_of_read ready (readGroup_page hg low long)).1⟩
  · refine ⟨_, exec_of_owner rfl s, changesOnly_mono (carryOut_frame (bs := []) _ (readTimetable_frame _ _)) (by simp), ?_⟩
    intro tables dayType counts items outside found
    have counted : counts = s.tableCounts := by
      rw [tableCounts_eq, dayType_eq, dayType_eq]
      rfl
    clear_value counts
    subst counted
    have code : collection = 0#8 ∨ collection = 1#8 ∨ collection = 2#8 ∨ collection = 3#8 ∨ collection = 4#8 ∨ 4 < collection.toNat := by
      bv_omega
    have half := cursor.isLt
    rcases code with rfl | rfl | rfl | rfl | rfl | large
    · exact reads_collection ready rfl (by simp only [items, modes, List.map_map]; rfl) (by simp [outside]; omega)
    · exact reads_collection ready rfl (by simp only [items, modes, List.map_map]; rfl) (by simp [outside])
    · exact reads_collection ready rfl (by simp only [items, modes, List.map_map]; rfl) (by simp [outside])
    · refine reads_collection ready rfl ?_ (by simp [outside]; omega)
      simp only [items, modes, List.map_map]
      exact List.map_congr_left fun e _ => by simp [TableItem.pair, cueItem, CueEntry.key, Nat.mul_comm]
    · refine reads_collection ready rfl ?_ (by simp [outside])
      simp only [items, modes, List.map_map]
      refine List.map_congr_left fun g _ => ?_
      refine Prod.ext rfl (congrArg₂ (· ++ ·) ?_ ?_ :
        _ = optField 8 ActiveCue.fields (tables.active.get g) ++ optField 6 DirectSelection.fields (tables.direct.get g))
      · cases tables.active.get g <;> rfl
      · cases tables.direct.get g with
        | none => rfl
        | some d => cases ends : d.endR <;> simp [ends, optField, DirectSelection.fields, endFields]
    · have none : tables.collection collection = none := by
        unfold Timetable.collection
        split
        iterate 5 · omega
        · rfl
      refine ⟨fun _ => ?_, fun inside => absurd (.inl large) inside, fun inside => absurd (.inl large) inside⟩
      refine (answered_of_read ready (?_ : _ = refuseRead s)).1
      unfold readTimetable
      rw [none]

end Sys2Proof.Machine
end

section
/-! PROOFS. The line bytes of trunk frames, and frames that are acted on nowhere (O47). -/

namespace Sys2Proof.Machine

variable {s t u : State} {p : TrunkPort} {f : TrunkFrame} {own kind station hops : Byte} {body : List Byte} {crc : Half}

/-! ### Delimiter and escaping (R185) -/

/-- No escaped byte is a delimiter. -/
theorem escape_free (bs : List Byte) : ∀ b ∈ escape bs, b ≠ delimiter := by
  induction bs with
  | nil => exact fun b mem => nomatch mem
  | cons x xs ih =>
    unfold escape
    split
    next special =>
      have safe : x ^^^ 0x20#8 ≠ delimiter := by rcases special with rfl | rfl <;> decide
      exact List.forall_mem_cons.mpr ⟨by decide, List.forall_mem_cons.mpr ⟨safe, ih⟩⟩
    next plain => exact List.forall_mem_cons.mpr ⟨fun same => plain (.inl same), ih⟩

theorem unescape_plain {b : Byte} (bs : List Byte) (plain : b ≠ escapeByte) : unescape (b :: bs) = b :: unescape bs := by
  cases bs with
  | nil => simp [unescape, plain]
  | cons c cs => simp [unescape, plain]

/-- R185: the receiver reverses the sender's escaping. -/
theorem unescape_escape (bs : List Byte) : unescape (escape bs) = bs := by
  induction bs with
  | nil => rfl
  | cons x xs ih =>
    unfold escape
    split
    · rw [unescape, if_pos rfl, ih, BitVec.xor_assoc, BitVec.xor_self, BitVec.xor_zero]
    next plain => rw [unescape_plain _ fun same => plain (.inr same), ih]

theorem receptions_free {bs : List Byte} (free : ∀ b ∈ bs, b ≠ delimiter) : receptions bs = [] := by
  induction bs with
  | nil => rfl
  | cons x xs ih => rw [receptions, if_neg (free x (by simp)), ih fun b mem => free b (by simp [mem])]

/-- The line bytes of a frame are one reception. -/
theorem receptions_lineBytes (f : TrunkFrame) :
    receptions f.lineBytes = [escape (frameBytes f.kind f.station f.hops f.body ++ halfBytes f.crc)] := by
  have free := escape_free (frameBytes f.kind f.station f.hops f.body ++ halfBytes f.crc)
  rw [TrunkFrame.lineBytes, receptions, if_pos rfl, receptions_free free,
    List.takeWhile_eq_self_iff.mpr fun b mem => decide_eq_true (free b mem)]

/-- R150: the line bytes of a frame are accepted as that frame where its CRC agrees. -/
theorem acceptFrame_lineBytes (fits : body.length ≤ 240) : acceptFrame (escape (frameBytes kind station hops body ++ halfBytes crc)) =
    if crc = crc16 (frameBytes kind station hops body) then some ⟨kind, station, hops, body, crc⟩ else none := by
  have length : (BitVec.ofNat 8 body.length).toNat = body.length := by rw [BitVec.toNat_ofNat]; omega
  have fits' : body.length ≤ Config.bodyCap := fits
  have bytes : frameBytes kind station hops body ++ halfBytes crc =
      kind :: station :: hops :: BitVec.ofNat 8 body.length :: (body ++ [hiByte crc, loByte crc]) := rfl
  have head : (body ++ [hiByte crc, loByte crc]).take body.length = body := by simp
  have first : (body ++ [hiByte crc, loByte crc]).getD body.length 0#8 = hiByte crc := by simp [List.getD]
  have second : (body ++ [hiByte crc, loByte crc]).getD (body.length + 1) 0#8 = loByte crc := by simp [List.getD]
  have room : body.length + 2 ≤ (body ++ [hiByte crc, loByte crc]).length := by simp
  unfold acceptFrame
  rw [unescape_escape, bytes]
  dsimp only
  rw [length, head, first, second, beHalf_halfBytes]
  by_cases agrees : crc = crc16 (frameBytes kind station hops body)
  · rw [if_pos ⟨fits', room, agrees⟩, if_pos agrees]
  · rw [if_neg fun all => agrees all.2.2, if_neg agrees]

/-! ### Receptions (R150) -/

/-- The line bytes of a frame of good CRC, on either port. -/
theorem trunkFrame_accepted (running : s.resetAsserted = false) (fits : body.length ≤ 240) :
    exec (.trunkFrame p (TrunkFrame.make kind station hops body).lineBytes) s = .next (s.acceptedFrame p (.make kind station hops body)) := by
  refine (exec_of_event (f := fun s => (receptions _).foldl (State.reception p) s) rfl running).trans (congrArg Host.Outcome.next ?_)
  rw [receptions_lineBytes, List.foldl_cons, List.foldl_nil, State.reception]
  unfold TrunkFrame.make
  rw [acceptFrame_lineBytes fits, if_pos rfl]

/-- The line bytes of a frame of bad CRC. -/
theorem trunkFrame_dropped (running : s.resetAsserted = false) (fits : body.length ≤ 240)
    (bad : crc ≠ crc16 (frameBytes kind station hops body)) :
    exec (.trunkFrame p (TrunkFrame.lineBytes ⟨kind, station, hops, body, crc⟩)) s =
      .next (s.count p fun c => { c with crcDrops := satAdd c.crcDrops 1 }) := by
  refine (exec_of_event (f := fun s => (receptions _).foldl (State.reception p) s) rfl running).trans (congrArg Host.Outcome.next ?_)
  rw [receptions_lineBytes, List.foldl_cons, List.foldl_nil, State.reception, acceptFrame_lineBytes fits, if_neg bad]

/-- On port A the line bytes of a frame are the row of its kind. -/
theorem trunkFrame_frameFromA (fits : body.length ≤ 240) : exec (.trunkFrame .a (TrunkFrame.make kind station hops body).lineBytes) s =
    .next (s.frameFromA kind station hops body) := by
  cases running : s.resetAsserted with
  | false => rw [trunkFrame_accepted running fits, frameFromA_taken running fits]
  | true =>
    have taken : s.frameFromA kind station hops body = s := if_pos running
    rw [taken]
    exact congrArg Host.Outcome.next (if_pos running)

theorem foreignKind_iff {kind : Byte} : foreignKind kind = true ↔ kind ∉ [0x01#8, 0x02#8, 0x03#8, 0x10#8, 0x11#8] := by
  simp [foreignKind, and_assoc]

/-- R150: the count of foreign frames. -/
theorem foreign_counted {n : Nat} : (if foreignKind kind = true then min 65535 (n + 1) else n) =
    if kind ∈ [0x01#8, 0x02#8, 0x03#8, 0x10#8, 0x11#8] then n else min 65535 (n + 1) := by
  by_cases mem : kind ∈ [0x01#8, 0x02#8, 0x03#8, 0x10#8, 0x11#8]
  · rw [if_neg fun no => foreignKind_iff.mp no mem, if_pos mem]
  · rw [if_pos (foreignKind_iff.mpr mem), if_neg mem]

/-- R155: a frame from port B passed on toward port A. -/
theorem passOn_b_leaves (u : State) (f : TrunkFrame) :
    (hopCount f.hops = 0 → u.passOn .b f = u.count .b fun c => { c with hopExpiries := satAdd c.hopExpiries 1 }) ∧
    (0 < hopCount f.hops → u.passOn .b f = u.offerA (.make f.kind f.station (BitVec.ofNat 8 (hopCount f.hops - 1)) f.body)) :=
  ⟨fun zero => if_pos zero, fun some => if_neg (Nat.ne_of_gt some)⟩

theorem offerA_of_room {f : TrunkFrame} (room : s.trunk.aOut.frames.length < 8) :
    s.offerA f = s.setTrunk { s.trunk with aOut := s.trunk.aOut.place f } := if_pos (decide_eq_true room)

theorem offerA_of_full {f : TrunkFrame} (full : 8 ≤ s.trunk.aOut.frames.length) :
    s.offerA f = (s.setTrunk { s.trunk with aOut := s.trunk.aOut.drop }).raise .trunkDrop :=
  if_neg fun room => Nat.not_lt.mpr full (of_decide_eq_true room)

/-! ### Frames that are acted on nowhere (R155, R156) -/

/-- A frame whose body does not fit its kind. -/
def TrunkFrame.unfit (f : TrunkFrame) (own : Byte) : Prop :=
  (f.kind = 0x01#8 ∧ f.body.length ≠ 4 ∧ f.body.length ≠ 6) ∨ ((f.kind = 0x02#8 ∨ f.kind = 0x03#8) ∧ f.body.length ≠ 1) ∨
    ((f.kind = 0x10#8 ∧ (f.station = own ∨ f.station = 0#8)) ∧ f.body.length < 3)

/-- A frame that is another station's, a REPLY, or foreign. -/
def TrunkFrame.unread (f : TrunkFrame) (own : Byte) : Prop :=
  f.kind = 0x11#8 ∨ f.kind ∉ [0x01#8, 0x02#8, 0x03#8, 0x10#8, 0x11#8] ∨
    (f.kind = 0x10#8 ∧ ¬(f.kind = 0x10#8 ∧ (f.station = own ∨ f.station = 0#8)))

theorem markOfBody_of_length (no4 : body.length ≠ 4) (no6 : body.length ≠ 6) : markOfBody body = none := by
  unfold markOfBody
  split
  · exact absurd rfl no4
  · exact absurd rfl no6
  · rfl

theorem requestOfBody_of_length {broadcast : Bool} (short : body.length < 3) : requestOfBody broadcast body = none := by
  unfold requestOfBody
  split
  · exact absurd short (by simp)
  · rfl

/-- R156: a malformed body is counted, and that is all. -/
theorem actOn_unfit (bad : f.unfit own) : s.actOn own f = s.countMalformed := by
  unfold State.actOn
  rcases bad with ⟨mark, no4, no6⟩ | ⟨cue | cancel, length⟩ | ⟨mine, short⟩
  · rw [if_pos mark, markOfBody_of_length no4 no6]
  · rw [if_neg (by rw [cue]; decide), if_pos cue]
    split
    next whole => exact absurd (by rw [whole]; rfl) length
    · rfl
  · rw [if_neg (by rw [cancel]; decide), if_neg (by rw [cancel]; decide), if_pos cancel]
    split
    next whole => exact absurd (by rw [whole]; rfl) length
    · rfl
  · rw [if_neg (by rw [mine.1]; decide), if_neg (by rw [mine.1]; decide), if_neg (by rw [mine.1]; decide), if_pos mine,
      requestOfBody_of_length short]

/-- R155: a frame that the part does not read. -/
theorem actOn_unread (other : f.unread own) : s.actOn own f = s := by
  have kinds : f.kind ≠ 0x01#8 ∧ f.kind ≠ 0x02#8 ∧ f.kind ≠ 0x03#8 ∧ ¬(f.kind = 0x10#8 ∧ (f.station = own ∨ f.station = 0#8)) := by
    rcases other with reply | foreign | ⟨request, theirs⟩
    · simp [reply]
    · simp only [List.mem_cons, List.not_mem_nil, or_false, not_or] at foreign
      exact ⟨foreign.1, foreign.2.1, foreign.2.2.1, fun mine => foreign.2.2.2.1 mine.1⟩
    · exact ⟨by rw [request]; decide, by rw [request]; decide, by rw [request]; decide, theirs⟩
  obtain ⟨no1, no2, no3, theirs⟩ := kinds
  unfold State.actOn
  rw [if_neg no1, if_neg no2, if_neg no3, if_neg theirs]

/-- What acting on such a frame leaves. -/
theorem actOn_nowhere (nowhere : f.unfit own ∨ f.unread own) : ∃ n, s.actOn own f = s.setTrunk { s.trunk with malformed := n } ∧
    (f.unfit own → n = min 65535 (s.trunk.malformed + 1)) ∧ (¬f.unfit own → n = s.trunk.malformed) := by
  by_cases bad : f.unfit own
  · exact ⟨_, actOn_unfit bad, fun _ => rfl, fun good => absurd bad good⟩
  · exact ⟨_, actOn_unread (nowhere.resolve_left bad), fun worse => absurd worse bad, fun _ => rfl⟩

/-- Settles O47. -/
theorem trunkFramesAreReceived : Obligations.TrunkFramesAreReceived := by
  unfold Obligations.TrunkFramesAreReceived
  intro known
  refine ⟨fun s station hops body fits => ⟨trunkFrame_frameFromA fits, trunkFrame_frameFromA fits, trunkFrame_frameFromA fits,
    trunkFrame_frameFromA fits, fun running kind crc => ⟨fun bad port => ?_, ?_⟩⟩,
    fun s own kind station hops body fits running named => ?_⟩
  · exact ⟨_, trunkFrame_dropped running fits bad, by cases port <;> rfl, by cases port <;> rfl, by cases port <;> rfl,
      changesOnly_count (by simp) _ _ changesOnly_refl⟩
  · refine ⟨_, trunkFrame_accepted running fits, ?_⟩
    obtain ⟨first, trunk⟩ := countAccepted_leaves s .b (.make kind station hops body)
    have passed : s.acceptedFrame .b (.make kind station hops body) =
        (s.countAccepted .b (.make kind station hops body)).passOn .b (.make kind station hops body) := rfl
    rw [passed]
    generalize s.countAccepted .b (.make kind station hops body) = u at first trunk
    have records : u.records = s.records := first.2.2 .records (by decide)
    have foreign : u.trunk.countsB.foreign = if kind ∈ known then s.trunk.countsB.foreign else min 65535 (s.trunk.countsB.foreign + 1) := by
      rw [trunk]
      exact foreign_counted
    have counted : s.onlyNotices u := onlyNotices_of_records records
    have lowered : hopCount (TrunkFrame.make kind station hops body).hops = hops.toNat % 64 := rfl
    obtain ⟨expired, offered⟩ := passOn_b_leaves u (.make kind station hops body)
    obtain ⟨received, dropped, expiries, countsA, unfit, aOut, bOut⟩ : u.trunk.countsB.received = min 65535 (s.trunk.countsB.received + 1) ∧
        u.trunk.countsB.crcDrops = s.trunk.countsB.crcDrops ∧ u.trunk.countsB.hopExpiries = s.trunk.countsB.hopExpiries ∧
        u.trunk.countsA = s.trunk.countsA ∧ u.trunk.malformed = s.trunk.malformed ∧ u.trunk.aOut = s.trunk.aOut ∧ u.trunk.bOut = s.trunk.bOut := by
      rw [trunk]
      exact ⟨rfl, rfl, rfl, rfl, rfl, rfl, rfl⟩
    have wide : s.changesOnly u [.trunk, .records] := changesOnly_mono first (by simp)
    rcases Nat.eq_zero_or_pos (hops.toNat % 64) with zero | some
    · rw [expired zero]
      refine ⟨received, dropped, foreign, countsA, unfit, counted, fun some => absurd some (by omega), fun some => absurd some (by omega),
        fun some => absurd some (by omega), fun _ => ⟨?_, aOut⟩, bOut, changesOnly_count (by simp) _ _ wide⟩
      rw [← expiries]
      rfl
    · rw [offered some]
      by_cases room : s.trunk.aOut.frames.length < 8
      · rw [offerA_of_room (aOut ▸ room)]
        refine ⟨received, dropped, foreign, countsA, unfit, counted, fun _ => expiries, fun _ full => absurd room (Nat.not_lt.mpr full),
          fun _ _ => ?_, fun zero => absurd some (by omega), bOut, changesOnly_setTrunk _ (by simp) wide⟩
        rw [← aOut]
        rfl
      · rw [offerA_of_full (by rw [aOut]; omega)]
        refine ⟨received, dropped, foreign, countsA, unfit, onlyNotices_raise (t := u.setTrunk _) _ counted, fun _ => expiries, fun _ _ => ⟨?_, ?_⟩,
          fun _ no => absurd no room, fun zero => absurd some (by omega), bOut, changesOnly_raise _ (by simp) (changesOnly_setTrunk _ (by simp) wide)⟩
        · exact notified_raise (t := u.setTrunk _) (records ▸ RecordUnit.grows_refl _) .trunkDrop (RecordUnit.grows_refl _)
        · rw [← aOut]
          rfl
  · intro mine malformed unread nowhere
    have consumes : consumed own (.make kind station hops body) = true ↔ kind = 0x10#8 ∧ station = own := by
      simp [consumed, TrunkFrame.make]
    obtain ⟨first, trunk⟩ := countAccepted_leaves s .a (.make kind station hops body)
    obtain ⟨n, acted, worse, good⟩ := actOn_nowhere (s := s.countAccepted .a (.make kind station hops body))
      (own := own) (f := .make kind station hops body) nowhere
    have accepted : s.acceptedFrame .a (.make kind station hops body) = if consumed own (.make kind station hops body) then
        (s.countAccepted .a (.make kind station hops body)).actOn own (.make kind station hops body)
      else ((s.countAccepted .a (.make kind station hops body)).actOn own (.make kind station hops body)).passOn .a (.make kind station hops body) := by
      split
      next mine => exact acceptedFrame_consumed named mine
      next shared => exact acceptedFrame_shared named (by simpa using shared)
    rw [acted] at accepted
    refine ⟨_, trunkFrame_accepted running fits, ?_⟩
    rw [accepted]
    generalize s.countAccepted .a (.make kind station hops body) = u at first trunk acted worse good
    have foreign : u.trunk.countsA.foreign = if kind ∈ known then s.trunk.countsA.foreign else min 65535 (s.trunk.countsA.foreign + 1) := by
      rw [trunk]
      exact foreign_counted
    obtain ⟨received, dropped, expiries, countsB, unfit, aOut, bOut⟩ : u.trunk.countsA.received = min 65535 (s.trunk.countsA.received + 1) ∧
        u.trunk.countsA.crcDrops = s.trunk.countsA.crcDrops ∧ u.trunk.countsA.hopExpiries = s.trunk.countsA.hopExpiries ∧
        u.trunk.countsB = s.trunk.countsB ∧ u.trunk.malformed = s.trunk.malformed ∧ u.trunk.aOut = s.trunk.aOut ∧ u.trunk.bOut = s.trunk.bOut := by
      rw [trunk]
      exact ⟨rfl, rfl, rfl, rfl, rfl, rfl, rfl⟩
    have wide : s.changesOnly (u.setTrunk { u.trunk with malformed := n }) [.trunk, .records] :=
      changesOnly_setTrunk _ (by simp) (changesOnly_mono first (by simp))
    have records : u.records = s.records := first.2.2 .records (by decide)
    rw [unfit] at worse good
    split
    next here =>
      refine ⟨received, dropped, foreign, worse, good, fun no => absurd (consumes.mp here) no, fun _ => ⟨bOut, expiries, records⟩, countsB,
        aOut, onlyNotices_of_records records, wide⟩
    next away =>
      obtain ⟨passed, left, only, -, frame⟩ := passOn_leaves (u.setTrunk { u.trunk with malformed := n }) (.make kind station hops body)
      rw [left]
      refine ⟨received, dropped, foreign, worse, good, fun _ => ?_, fun no => absurd (consumes.mpr no) away, countsB, aOut, ?_, ?_⟩
      · exact passedOn_of bOut expiries (records ▸ RecordUnit.grows_refl _) passed
      · exact onlyNotices_trans (onlyNotices_of_records records) only
      · exact changesOnly_trans wide frame

end Sys2Proof.Machine
end

section
/-! PROOFS. Restarts (O49). -/

namespace Sys2Proof.Machine

variable {s t u : State} {i : Fin 64} {l : Fin 4} {c : OverrideCause} {pins : PinSample} {st : PlanStore} {m : Location} {r : Request}

/-! ### Hold lines sampled while no slot has a position (R149) -/

/-- R39: every slot is UNUSED, or waits in JOINING without a position. -/
def State.waiting (s : State) : Prop := ∀ i, (s.slot i).state = .unused ∨ ((s.slot i).state = .joining ∧ (s.slot i).run = none)

theorem joinCause_waiting (waiting : s.waiting) (i : Fin 64) (c : OverrideCause) :
    ∃ causes, s.joinCause i c = (s.setSlot i { s.slot i with causes := causes }, []) := by
  rcases joinCause_cases s i c with ⟨-, e⟩ | ⟨defined, -, -, e⟩ | ⟨defined, -, -, runs, -⟩
  · exact ⟨(s.slot i).causes, by rw [e, setSlot_self]⟩
  · obtain ⟨joining, -⟩ := (waiting i).resolve_left defined
    have latch : ((s.slot i).latch || ((s.slot i).state == .overridden && (s.slot i).mode == .latched)) = (s.slot i).latch := by simp [joining]
    rw [latch] at e
    exact ⟨_, e⟩
  · obtain ⟨joining, none⟩ := (waiting i).resolve_left defined
    exact absurd (runs joining) (by simp [Slot.running, none])

theorem setSlot_waiting (waiting : s.waiting) (i : Fin 64) (causes : BitVec 5) : (s.setSlot i { s.slot i with causes := causes }).waiting := by
  intro j
  by_cases same : i = j
  · subst same
    rw [State.setSlot_slot_same]
    exact waiting i
  · rw [State.setSlot_slot_ne s i j _ same]
    exact waiting j

/-- R138: where no slot has a position an activation edge only adds to cause sets. -/
theorem activationEdge_waiting (waiting : s.waiting) (l : Fin 4) : s.changesOnly (s.activationEdge l).deliver [.slots, .holds] := by
  have along : (s.activationEdge l).2 = [] ∧ (s.activationEdge l).1.waiting ∧ s.changesOnly (s.activationEdge l).1 [.slots, .holds] := by
    unfold State.activationEdge overSlots
    refine List.foldlRecOn (motive := fun a : Sent => a.2 = [] ∧ a.1.waiting ∧ s.changesOnly a.1 [.slots, .holds]) _ _
      ⟨rfl, waiting, changesOnly_setHold _ _ (by simp) changesOnly_refl⟩ ?_
    rintro ⟨t, es⟩ ⟨rfl, waits, frame⟩ i -
    obtain ⟨causes, e⟩ := joinCause_waiting waits i (.hold l)
    simp only [Sent.andThen, e]
    exact ⟨rfl, setSlot_waiting waits i causes, changesOnly_setSlot _ _ (by simp) frame⟩
  obtain ⟨none, -, frame⟩ := along
  rw [Sent.deliver, none]
  exact frame

theorem withCause_waiting {x : Slot} (waits : x.state = .unused ∨ (x.state = .joining ∧ x.run = none)) :
    x.withCause c = if x.joins c then { x with causes := causeJoin x.causes c } else x := by
  have outside : x.enters c = false := by
    unfold Slot.enters Slot.joins
    rcases waits with unused | ⟨joining, none⟩
    · simp [unused]
    · simp [joining, none]
  have below : (x.state == .overridden) = false := by rcases waits with unused | ⟨joining, -⟩ <;> simp [*]
  unfold Slot.withCause
  simp [outside, below]

/-- What sampling the lines of `done` has left where no slot has a position. -/
structure Sampled (s : State) (pins : PinSample) (done : List (Fin 4)) (t : State) : Prop where
  hold : ∀ l, t.hold l = if l ∈ done then ⟨pins.holds.get l, (s.hold l).map⟩ else s.hold l
  unused : ∀ i, (s.slot i).state = .unused → t.slot i = s.slot i
  slot : ∀ i, t.slot i = { s.slot i with causes := (t.slot i).causes }
  field : ∀ i, causeIn (t.slot i).causes .field = causeIn (s.slot i).causes .field
  lines : ∀ i, (s.slot i).state ≠ .unused → ∀ l, causeIn (t.slot i).causes (.hold l) =
    (causeIn (s.slot i).causes (.hold l) || (decide (l ∈ done) && decide (pins.holds.get l = .active) && slotIn (s.hold l).map i))
  frame : s.changesOnly t [.slots, .holds]

theorem Sampled.waiting {done : List (Fin 4)} (h : Sampled s pins done t) (waiting : s.waiting) : t.waiting := fun i => by
  rw [h.slot i]
  exact waiting i

theorem Sampled.snoc {done : List (Fin 4)} (h : Sampled s pins done t) (waiting : s.waiting) (fresh : l ∉ done) :
    Sampled s pins (done ++ [l]) (t.sampleHold pins l).deliver := by
  have map : (t.hold l).map = (s.hold l).map := by rw [h.hold, if_neg fresh]
  unfold State.sampleHold
  split
  next level =>
    obtain ⟨own, others, slots, -, -⟩ := activationEdge_leaves t l
    rw [map] at slots
    have waits := h.waiting waiting
    have slot : ∀ i, (t.activationEdge l).deliver.slot i =
        if slotIn (s.hold l).map i && (t.slot i).joins (.hold l) then { t.slot i with causes := causeJoin (t.slot i).causes (.hold l) } else t.slot i := fun i => by
      rw [slots, Slot.shifted]
      cases slotIn (s.hold l).map i
      · rfl
      · simp [withCause_waiting (waits i)]
    refine ⟨fun k => ?_, fun i unused => ?_, fun i => ?_, fun i => ?_, fun i defined k => ?_, ?_⟩
    · by_cases same : k = l
      · subst same
        rw [own, if_pos (by simp), ← level, ← map]
      · rw [others k same, h.hold]
        simp [same]
    · have same := h.unused i unused
      rw [slot, same, if_neg (by simp [Slot.joins, unused])]
    · rw [slot]
      split
      · conv_lhs => rw [h.slot i]
      · exact h.slot i
    · rw [slot, ← h.field]
      split
      · simp [causeIn_join]
      · rfl
    · have state : (t.slot i).state ≠ .unused := by rw [h.slot i]; exact defined
      have before := h.lines i defined
      rw [slot]
      by_cases same : k = l
      · subst same
        have prior : causeIn (t.slot i).causes (.hold k) = causeIn (s.slot i).causes (.hold k) := by rw [before]; simp [fresh]
        cases mapped : slotIn (s.hold k).map i <;> cases held : causeIn (t.slot i).causes (.hold k) <;>
          simp [held, Slot.joins, state, causeIn_join, ← prior, level]
      · split
        · rw [causeIn_join, before]
          simp [same]
        · rw [before]
          simp [same]
    · exact changesOnly_trans h.frame (activationEdge_waiting waits l)
  next level =>
    refine ⟨fun k => ?_, fun i unused => h.unused i unused, h.slot, h.field, fun i defined k => ?_, changesOnly_setHold _ _ (by simp) h.frame⟩
    · by_cases same : k = l
      · subst same
        simp [Sent.deliver, State.takeMembers, map, level]
      · simp [Sent.deliver, State.takeMembers, State.setHold_hold_ne, Ne.symm same, h.hold, same]
    · refine (h.lines i defined k).trans ?_
      by_cases same : k = l
      · subst same
        simp [level]
      · simp [same]

theorem sampled_foldl (waiting : s.waiting) : ∀ (ls done : List (Fin 4)) (t : State), (done ++ ls).Nodup → Sampled s pins done t →
    Sampled s pins (done ++ ls) (ls.foldl (fun s l => (s.sampleHold pins l).deliver) t)
  | [], done, t, _, h => by simpa using h
  | l :: ls, done, t, distinct, h => by
    have fresh : l ∉ done := fun mem => (List.nodup_append.mp distinct).2.2 l mem l (by simp) rfl
    have rest := sampled_foldl waiting ls (done ++ [l]) _ (by simpa using distinct) (h.snoc waiting fresh)
    simpa using rest

/-- R149: the lines sampled where no slot has a position. -/
theorem sampleHolds_waiting (waiting : s.waiting) (pins : PinSample) : Sampled s pins (List.finRange 4) (s.sampleHolds pins) :=
  sampled_foldl waiting (List.finRange 4) [] s (List.nodup_finRange 4)
    ⟨fun _ => by simp, fun _ _ => rfl, fun _ => rfl, fun _ => rfl, fun _ _ _ => by simp, changesOnly_refl⟩

/-! ### Every shadow promoted (R80) -/

/-- What a promotion without adoption makes of a store: its records without a shadow, and its shadows as records. -/
def PlanStore.settled (st : PlanStore) (m : Location) : Prop :=
  (m ∈ st.held ∧ m.occupancy = .record ∧ m.link = none) ∨
    ∃ sh ∈ st.held, sh.occupancy = .shadow ∧ m = { sh with occupancy := .record, link := none }

/-- A promotion leaves what the whole will come to. -/
theorem PlanStore.lawful.promote_settled (h : st.lawful) (i : Fin 64) (plan : Nat) : (st.promote i plan).settled m ↔ st.settled m := by
  rcases h.promote_cases i plan with ⟨-, e⟩ | ⟨r, sh, ⟨hr, record, -, -⟩, ⟨hs, shadow, -, -⟩, link, e⟩ <;> rw [e]
  have mem : ∀ m, m ∈ ((st.free r.num).put { sh with occupancy := .record, link := none }).held ↔
      m = { sh with occupancy := .record, link := none } ∨ (m.num ≠ sh.num ∧ m ∈ st.held ∧ m.num ≠ r.num) := fun m => by
    rw [PlanStore.mem_put (PlanStore.free_wf h.1 _), PlanStore.mem_free]
  have own : ∀ m ∈ st.held, m.num = r.num → m = r := fun m hm e => PlanStore.eq_of_num h.1 hm hr e
  have own' : ∀ m ∈ st.held, m.num = sh.num → m = sh := fun m hm e => PlanStore.eq_of_num h.1 hm hs e
  simp only [PlanStore.settled, mem]
  constructor
  · rintro (⟨rfl | ⟨-, held, -⟩, plain⟩ | ⟨a, rfl | ⟨-, held, -⟩, shade, rfl⟩)
    · exact .inr ⟨sh, hs, shadow, rfl⟩
    · exact .inl ⟨held, plain⟩
    · exact nomatch shade
    · exact .inr ⟨a, held, shade, rfl⟩
  · rintro (⟨held, plain, unlinked⟩ | ⟨a, held, shade, rfl⟩)
    · refine .inl ⟨.inr ⟨fun e => ?_, held, fun e => ?_⟩, plain, unlinked⟩
      · rw [own' m held e, shadow] at plain
        exact nomatch plain
      · rw [own m held e, link] at unlinked
        exact nomatch unlinked
    · by_cases same : a.num = sh.num
      · rw [own' a held same]
        exact .inl ⟨.inl rfl, rfl, rfl⟩
      · refine .inr ⟨a, .inr ⟨same, held, fun e => ?_⟩, shade, rfl⟩
        rw [own a held e, record] at shade
        exact nomatch shade

/-- R80: what RESTART WARM makes of the store. -/
theorem PlanStore.lawful.mem_promoteAll (h : st.lawful) : m ∈ st.promoteAll.held ↔ st.settled m := by
  obtain ⟨law, -, records⟩ := h.promoteAll
  have along : ∀ (ls : List Location) (u : PlanStore), u.lawful →
      ((ls.foldl (fun st l => if l.occupancy == .record then st.promote l.slot l.plan else st) u).settled m ↔ u.settled m) := by
    intro ls
    induction ls with
    | nil => exact fun u _ => Iff.rfl
    | cons l ls ih =>
      intro u hu
      rw [List.foldl_cons]
      split
      · exact (ih _ (hu.promote l.slot l.plan)).trans (hu.promote_settled l.slot l.plan)
      · exact ih u hu
  have whole : st.promoteAll.settled m ↔ st.settled m := along st.held st h
  rw [← whole]
  refine ⟨fun held => .inl ⟨held, records m held, ?_⟩, ?_⟩
  · cases link : m.link with
    | none => rfl
    | some n =>
      obtain ⟨a, ha, shadow, -⟩ := law.2.2.2 m held (records m held) n link
      exact absurd ((records a ha).symm.trans shadow) (by decide)
  · rintro (⟨held, -⟩ | ⟨a, ha, shadow, -⟩)
    · exact held
    · exact absurd ((records a ha).symm.trans shadow) (by decide)

theorem promoteAll_counts (st : PlanStore) : st.promoteAll.corrected = st.corrected ∧ st.promoteAll.stuck = st.stuck := by
  refine List.foldlRecOn (motive := fun u : PlanStore => u.corrected = st.corrected ∧ u.stuck = st.stuck) st.held _ ⟨rfl, rfl⟩ fun u h l _ => ?_
  split
  · unfold PlanStore.promote
    split
    · exact h
    · exact h
  · exact h

/-! ### What stays in A-out (R162) -/

theorem keptFrames_cons {reply f : TrunkFrame} {rest : List TrunkFrame} :
    (reply ∈ rest → keptFrames (some reply) (f :: rest) = [f, reply]) ∧ (reply ∉ rest → keptFrames (some reply) (f :: rest) = [f]) := by
  have shape : keptFrames (some reply) (f :: rest) = f :: (List.replicate (rest.count reply) reply).take 1 := by
    rw [← List.filter_beq]
    rfl
  rw [shape]
  refine ⟨fun mem => ?_, fun absent => ?_⟩
  · obtain ⟨n, count⟩ := Nat.exists_eq_succ_of_ne_zero (Nat.ne_of_gt (List.count_pos_iff.mpr mem))
    rw [count]
    rfl
  · rw [List.count_eq_zero.mpr absent]
    rfl

theorem keptFrames_of_absent {reply : TrunkFrame} {frames : List TrunkFrame} (absent : reply ∉ frames) :
    keptFrames (some reply) frames = keptFrames none frames := by
  cases frames with
  | nil => rfl
  | cons f rest => exact keptFrames_cons.2 fun mem => absent (List.mem_cons_of_mem _ mem)

/-! ### The rows (R162) -/

theorem carries_running (h : s.carries r = true) : s.resetAsserted = false := by
  cases running : s.resetAsserted with
  | false => rfl
  | true => rw [carries_reset running] at h; exact nomatch h

theorem exec_restartWarm_addressed {src : Source} (encodes : encodeRequest (.restartWarm src pins) = some r) (carries : s.carries r = true)
    (addressed : r.src.broadcast = false) : exec (.restartWarm src pins) s = .next (s.acceptRestart .warm r) := by
  refine congrArg Host.Outcome.next ?_
  rw [encodes]
  simp [carries, addressed]

theorem exec_restartWarm_broadcast {src : Source} (encodes : encodeRequest (.restartWarm src pins) = some r) (carries : s.carries r = true)
    (broadcast : r.src.broadcast = true) : exec (.restartWarm src pins) s = .next (s.restartNow .warm none pins) := by
  refine congrArg Host.Outcome.next ?_
  rw [encodes]
  simp [carries, broadcast]

theorem exec_restartCold_addressed {src : Source} (encodes : encodeRequest (.restartCold src) = some r) (carries : s.carries r = true)
    (addressed : r.src.broadcast = false) : exec (.restartCold src) s = .next (s.acceptRestart .cold r) := by
  refine congrArg Host.Outcome.next ?_
  rw [encodes]
  simp [carries, addressed, discarded]

/-- R162: an addressed RESTART is answered first. -/
theorem acceptRestart_of_room (k : RestartKind) (addressed : r.src.broadcast = false) (room : s.trunk.aOut.frames.length < 8) :
    (s.acceptRestart k r).trunk.aOut.frames = s.trunk.aOut.frames ++ [s.replyTo r .done s.records.notices []] ∧
    (s.acceptRestart k r).mgmt = ⟨s.mgmt.queue, .idle, some (k, s.replyTo r .done s.records.notices [])⟩ := by
  unfold State.acceptRestart
  dsimp only
  rw [placeReply_room addressed (by exact room), buildReply_eq]
  exact ⟨rfl, rfl⟩

theorem acceptRestart_of_full (k : RestartKind) (addressed : r.src.broadcast = false) (full : 8 ≤ s.trunk.aOut.frames.length) :
    s.acceptRestart k r = s.setMgmt { s.mgmt with
      engine := .replyWait r (s.replyTo r .done s.records.notices []), restart := some (k, s.replyTo r .done s.records.notices []) } := by
  unfold State.acceptRestart
  dsimp only
  rw [placeReply_full addressed (by exact full), buildReply_eq]
  rfl

theorem exec_restartEffect {k : RestartKind} {reply : TrunkFrame} (running : s.resetAsserted = false) (idle : s.mgmt.engine = .idle)
    (waits : s.mgmt.restart = some (k, reply)) : exec (.restartEffect pins) s = .next (s.restartNow k (some reply) pins) := by
  refine (exec_of_event (f := fun s => s.restartEffect pins) rfl running).trans (congrArg Host.Outcome.next ?_)
  unfold State.restartEffect
  rw [waits, idle]

theorem restartEffect_of_none (none : s.mgmt.restart = none) : s.restartEffect pins = s := by
  unfold State.restartEffect
  rw [none]

theorem restartEffect_of_busy (busy : s.mgmt.engine ≠ .idle) : s.restartEffect pins = s := by
  unfold State.restartEffect
  split
  next idle => exact absurd idle busy
  next => rfl

/-- What the blocks are at a RESTART WARM, before the hold lines are sampled. -/
def State.warmed (s : State) (reply : Option TrunkFrame) (pins : PinSample) : State :=
  { s.warmBlocks with trunk := s.trunk.restart .warm reply, ports := Vector.ofFn fun p => (s.port p).warm (pins.lines.get p) }

theorem restartNow_warm (reply : Option TrunkFrame) : s.restartNow .warm reply pins = (s.warmed reply pins).sampleHolds pins := rfl

/-- What the blocks are at a RESTART COLD, before the hold lines are sampled. -/
def State.chilled (s : State) (reply : Option TrunkFrame) (pins : PinSample) : State :=
  { s.coldBlocks with trunk := s.trunk.restart .cold reply, ports := Vector.ofFn fun p => .coldAt (pins.lines.get p) }

theorem restartNow_cold (reply : Option TrunkFrame) : s.restartNow .cold reply pins = (s.chilled reply pins).sampleHolds pins := rfl

theorem warmed_slot {reply : Option TrunkFrame} (i : Fin 64) : (s.warmed reply pins).slot i = (s.slot i).warm := by
  simp [State.warmed, State.warmBlocks, State.slot]

theorem warm_of_unused {x : Slot} (unused : x.state = .unused) : x.warm = x := if_pos unused

theorem warm_of_defined {x : Slot} (defined : x.state ≠ .unused) : x.warm = { Slot.unused with
    intersection := x.intersection, port := x.port, drop := x.drop, group := x.group, divider := x.divider
    mode := x.mode, recording := x.recording, state := .joining } := if_neg defined

theorem warmed_waiting {reply : Option TrunkFrame} : (s.warmed reply pins).waiting := fun i => by
  rw [warmed_slot]
  by_cases unused : (s.slot i).state = .unused
  · exact .inl (by rw [warm_of_unused unused, unused])
  · exact .inr (by rw [warm_of_defined unused]; exact ⟨rfl, rfl⟩)

theorem warmed_of_absent {reply : TrunkFrame} {x : Management} (absent : reply ∉ s.trunk.aOut.frames) :
    (s.setMgmt x).warmed (some reply) pins = s.warmed none pins := by
  unfold State.warmed Trunk.restart
  simp only [State.setMgmt_trunk, keptFrames_of_absent absent]
  rfl

/-- Settles O49. -/
theorem restartsTakeEffect : Obligations.RestartsTakeEffect := by
  refine ⟨fun s src pins r ⟨encodes, carries, addressed, room⟩ => ?_, fun s src r ⟨encodes, carries, addressed, room⟩ => ?_,
    fun s c k src pins r which encodes carries addressed full => ⟨?_, fun sample => ?_⟩, fun s pins running none => ?_,
    fun s src pins r reply ⟨encodes, carries, _⟩ broadcast absent => ?_, fun s pins reply running idle waits => ?_,
    fun s pins reply running idle waits => ?_⟩
  · obtain ⟨frames, mgmt⟩ := acceptRestart_of_room .warm addressed room
    exact ⟨_, exec_restartWarm_addressed encodes carries addressed, frames, mgmt, acceptRestart_frame _ _⟩
  · obtain ⟨frames, mgmt⟩ := acceptRestart_of_room .cold addressed room
    exact ⟨_, exec_restartCold_addressed encodes carries addressed, frames, mgmt, acceptRestart_frame _ _⟩
  · rcases which with ⟨rfl, rfl⟩ | ⟨rfl, rfl⟩
    · rw [exec_restartWarm_addressed encodes carries addressed, acceptRestart_of_full .warm addressed full]
    · rw [exec_restartCold_addressed encodes carries addressed, acceptRestart_of_full .cold addressed full]
  · have running := carries_running carries
    exact exec_of_idle (f := fun s => s.restartEffect sample) rfl (by exact running) (restartEffect_of_busy (by simp))
  · exact exec_of_idle (f := fun s => s.restartEffect pins) rfl running (restartEffect_of_none none)
  · have running := carries_running carries
    rw [exec_restartWarm_broadcast encodes carries broadcast,
      exec_restartEffect (s := s.setMgmt ⟨[], .idle, some (.warm, reply)⟩) (by exact running) rfl rfl,
      restartNow_warm, restartNow_warm, warmed_of_absent absent]
  · refine ⟨_, exec_restartEffect running idle waits, ?_⟩
    have sampled := sampleHolds_waiting (warmed_waiting (s := s) (pins := pins) (reply := some reply)) pins
    have frame := sampled.frame
    rw [← restartNow_warm] at sampled frame
    generalize s.restartNow .warm (some reply) pins = t at sampled frame
    have time : t.time = s.time.warm := frame.2.2 .time (by decide)
    have groups : ∀ g, t.group g = (s.group g).warm := fun g =>
      (group_congr (frame.2.2 .groups (by decide)) g).trans (by simp [State.warmed, State.warmBlocks, State.group])
    have members : ∀ i, t.member i = (s.member i).map Member.warm := fun i =>
      (member_congr (frame.2.2 .members (by decide)) i).trans (by simp [State.warmed, State.warmBlocks, State.member])
    have ports : ∀ p, t.port p = (s.port p).warm (pins.lines.get p) := fun p =>
      (port_congr (frame.2.2 .ports (by decide)) p).trans (by simp [State.warmed, State.port])
    have tables : t.tables = s.tables.warm := frame.2.2 .tables (by decide)
    have trunk : t.trunk = s.trunk.restart .warm (some reply) := frame.2.2 .trunk (by decide)
    have mgmt : t.mgmt = .cold := frame.2.2 .mgmt (by decide)
    have records : t.records = s.records.warm := frame.2.2 .records (by decide)
    have store : t.store = s.store.warm := frame.2.2 .store (by decide)
    have logOut : t.logOut = none := frame.2.2 .logOut (by decide)
    have free : t.freeReads = s.freeReads := frame.2.2 .freeReads (by decide)
    have shape : ∀ i, (s.slot i).state ≠ .unused → ((s.slot i).warm).state ≠ .unused ∧ ((s.slot i).warm).causes = 0#5 := fun i defined => by
      rw [warm_of_defined defined]
      exact ⟨by simp, rfl⟩
    have none : ∀ c, causeIn 0#5 c = false := fun c => by simp [causeIn]
    have maps : ∀ l, (s.warmed (some reply) pins).hold l = s.hold l := fun l => rfl
    refine ⟨by rw [time]; rfl, by rw [time]; rfl, by rw [time]; rfl, by rw [time]; rfl, by rw [time]; rfl, by rw [time]; rfl, by rw [time]; rfl,
      by rw [time]; rfl, by rw [time]; rfl, fun i unused => ?_, fun i defined => ⟨?_, ?_, fun l => ?_⟩, fun l => ?_, groups, members,
      by rw [tables]; rfl, by rw [tables]; rfl, by rw [tables]; rfl, by rw [tables]; rfl, fun g => ?_, ports, by rw [trunk]; rfl, fun empty => ?_,
      fun f rest head => ?_, mgmt, by rw [records]; rfl, by rw [records]; rfl, by rw [records]; rfl, by rw [records]; rfl, by rw [records]; rfl,
      by rw [records]; rfl, by rw [records]; rfl, logOut, by rw [store]; rfl, by rw [store]; rfl, by rw [store]; rfl, ?_, ?_,
      frame.2.1.trans running, free, frame.1, fun wf keyed m => ?_⟩
    · have same := sampled.unused i (by rw [warmed_slot, warm_of_unused unused, unused])
      rw [same, warmed_slot, warm_of_unused unused]
    · have slot := sampled.slot i
      rw [warmed_slot, warm_of_defined defined] at slot
      exact slot
    · rw [sampled.field, warmed_slot, (shape i defined).2, none]
    · rw [sampled.lines i (by rw [warmed_slot]; exact (shape i defined).1), warmed_slot, (shape i defined).2, none, maps]
      simp
    · rw [sampled.hold, if_pos (List.mem_finRange l), maps]
    · rw [tables]
      simp [Timetable.warm]
    · rw [trunk, Trunk.restart, empty]
      rfl
    · rw [trunk, Trunk.restart, head]
      exact keptFrames_cons
    · rw [store]
      exact (promoteAll_counts s.store).1
    · rw [store]
      exact (promoteAll_counts s.store).2
    · rw [store]
      exact PlanStore.lawful.mem_promoteAll ⟨wf, keyed⟩
  · refine ⟨_, exec_restartEffect running idle waits, ?_⟩
    obtain ⟨levels, frame⟩ := sampleHolds_of_empty (s := s.chilled (some reply) pins) pins fun l => by simp [State.chilled, State.coldBlocks, State.hold]
    rw [← restartNow_cold] at levels frame
    generalize s.restartNow .cold (some reply) pins = t at levels frame
    have slots : ∀ i, t.slot i = .unused := fun i =>
      (slot_congr (frame.2.2 .slots (by decide)) i).trans (by simp [State.chilled, State.coldBlocks, State.slot])
    have groups : ∀ g, t.group g = .cold := fun g =>
      (group_congr (frame.2.2 .groups (by decide)) g).trans (by simp [State.chilled, State.coldBlocks, State.group])
    have members : ∀ i, t.member i = none := fun i =>
      (member_congr (frame.2.2 .members (by decide)) i).trans (by simp [State.chilled, State.coldBlocks, State.member])
    have ports : ∀ p, t.port p = .coldAt (pins.lines.get p) := fun p =>
      (port_congr (frame.2.2 .ports (by decide)) p).trans (by simp [State.chilled, State.port])
    have tables : t.tables = .cold := frame.2.2 .tables (by decide)
    have trunk : t.trunk = s.trunk.restart .cold (some reply) := frame.2.2 .trunk (by decide)
    have store : t.store = .cold s.store.stuck := frame.2.2 .store (by decide)
    refine ⟨⟨frame.2.2 .time (by decide), fun i => ?_, store, by rw [store]; rfl, by rw [store]; rfl, groups, members, by rw [tables]; rfl,
      by rw [tables]; rfl, by rw [tables]; rfl, by rw [tables]; rfl, fun g => ?_, fun p => ?_, by rw [trunk]; rfl,
      frame.2.2 .mgmt (by decide), frame.2.2 .records (by decide), frame.2.2 .logOut (by decide), fun l => by rw [levels],
      frame.2.2 .freeReads (by decide), frame.1⟩, fun empty => ?_, fun f rest head => ?_, by rw [trunk]; rfl, fun p => by rw [ports]; rfl,
      fun l => by rw [levels], frame.2.1.trans running⟩
    · simp [slots, Slot.unused]
    · rw [tables]
      simp [Timetable.cold]
    · rw [ports]
      rfl
    · rw [trunk, Trunk.restart, empty]
      rfl
    · rw [trunk, Trunk.restart, head]
      exact keptFrames_cons

end Sys2Proof.Machine
end

section
/-! PROOFS. The group coordinator: the settlement decision, member events and selections (O27). -/

namespace Sys2Proof.Machine

variable {s t u v : State} {i j : Fin 64} {g h : Fin 16} {x : Group}

/-! ### The settlement decision (R82, R83) -/

theorem settles_iff (x : Group) (m : Member) : x.settles m = true ↔ x.target = 0 ∨ (m.state = .coordinated ∧ m.current = x.target) ∨
    ((m.state = .overridden ∨ m.state = .lost) ∧ x.policy = .leave) := by
  rw [settles_eq]
  simp [or_assoc]

theorem allSettled_iff : s.allSettled g = true ↔ ∀ i m, s.member i = some m → m.group = g → (s.group g).settles m = true := by
  simp only [State.allSettled, State.membersOf, List.all_eq_true, List.mem_filter, List.mem_finRange, true_and]
  refine forall_congr' fun i => ?_
  cases s.member i with
  | none => simp
  | some m => simp

theorem someOverridden_iff {besides : Option (Fin 64)} : s.someOverridden g besides = true ↔
    ∃ i m, besides ≠ some i ∧ s.member i = some m ∧ m.group = g ∧ m.state = .overridden := by
  simp only [State.someOverridden, State.membersOf, List.any_eq_true, List.mem_filter, List.mem_finRange, true_and]
  refine exists_congr fun i => ?_
  cases s.member i with
  | none => simp
  | some m => simp; tauto

theorem decision_steady_iff : s.decision g = .steady ↔ s.allSettled g = true := by
  unfold State.decision
  split
  next all => exact ⟨fun _ => all, fun _ => rfl⟩
  next some =>
    refine ⟨fun e => ?_, fun all => absurd all some⟩
    split at e
    · exact nomatch e
    · split at e <;> exact nomatch e

/-! ### A settlement (R83) -/

/-- R83: the group record with which a settlement decides. -/
def State.opening (s : State) (g : Fin 16) (change : Bool) : Group :=
  if change = true ∧ (s.group g).state = .steady ∧ s.decision g ≠ .steady then
    { s.group g with elapsed := 0, reported := false, adopted := true } else s.group g

/-- R83: the group record that a settlement leaves. -/
def State.settledGroup (s : State) (g : Fin 16) (change : Bool) : Group :=
  { s.opening g change with state := (s.setGroup g (s.opening g change)).decision g }

theorem settle_eq (s : State) (g : Fin 16) (change : Bool) : s.settle g change =
    if (s.group g).state ≠ .steady ∧ (s.settledGroup g change).state = .steady then (s.setGroup g (s.settledGroup g change)).raise .groupSteady
    else s.setGroup g (s.settledGroup g change) := by
  have opened : (if change ∧ (s.group g).state = .steady ∧ s.decision g ≠ .steady then
      s.setGroup g { s.group g with elapsed := 0, reported := false, adopted := true } else s) = s.setGroup g (s.opening g change) := by
    unfold State.opening
    split
    · rfl
    · rw [setGroup_self]
  unfold State.settle
  dsimp only
  rw [opened, setGroup_setGroup, State.setGroup_group_same]
  rfl

theorem settle_group (s : State) (g : Fin 16) (change : Bool) : (s.settle g change).group g = s.settledGroup g change ∧
    ∀ h, h ≠ g → (s.settle g change).group h = s.group h := by
  rw [settle_eq]
  refine ⟨?_, fun h ne => ?_⟩
  · split <;> simp [State.raise]
  · split <;> simp [State.raise, State.setGroup_group_ne _ _ _ _ (Ne.symm ne)]

/-- R83: a settlement takes the decision. -/
theorem settle_decides (s : State) (g : Fin 16) (change : Bool) : ((s.settle g change).group g).state = (s.settle g change).decision g := by
  have same : (s.settle g change).decision g = (s.setGroup g (s.opening g change)).decision g := by
    refine decision_congr (s := s.setGroup g (s.opening g change)) ?_ fun i => ?_
    · rw [(settle_group s g change).1, State.setGroup_group_same]
      rfl
    · rw [State.inView, member_congr (settle_members s g change)]
      rfl
  rw [same, (settle_group s g change).1]
  rfl

/-- Entry to STEADY between two states raises GROUP_STEADY. -/
def State.entersSteady (s t : State) (g : Fin 16) : Prop :=
  (s.group g).state ≠ .steady → (t.group g).state = .steady → s.notified t .groupSteady

theorem entersSteady_of_state (same : (t.group g).state = (s.group g).state) : s.entersSteady t g :=
  fun other steady => absurd (same ▸ steady) other

theorem entersSteady_trans (h1 : s.entersSteady t g) (h2 : t.entersSteady u g) (before : s.records.grows t.records)
    (later : t.records.grows u.records) : s.entersSteady u g := fun other steady => by
  by_cases already : (t.group g).state = .steady
  · exact notified_of_grows (h1 other already) later
  · have told := h2 already steady
    unfold State.notified at told ⊢
    rw [before.1] at told
    exact told

theorem settle_entersSteady (s : State) (g : Fin 16) (change : Bool) : s.entersSteady (s.settle g change) g := by
  intro other steady
  rw [(settle_group s g change).1] at steady
  rw [settle_eq, if_pos ⟨other, steady⟩]
  exact notified_raise (RecordUnit.grows_refl _) .groupSteady (RecordUnit.grows_refl _)

/-- A settlement takes its group out of STEADY. -/
def State.leavesSteady (s t : State) (g : Fin 16) : Prop := (s.group g).state = .steady ∧ (t.group g).state ≠ .steady

theorem allSettled_setGroup (policy : x.policy = (s.group g).policy) (target : x.target = (s.group g).target) :
    (s.setGroup g x).allSettled g = s.allSettled g := by
  have settles : x.settles = (s.group g).settles := funext fun m => by simp [Group.settles, policy, target]
  unfold State.allSettled
  rw [State.setGroup_group_same, settles]
  rfl

theorem opening_policy (s : State) (g : Fin 16) (change : Bool) : (s.opening g change).policy = (s.group g).policy ∧
    (s.opening g change).target = (s.group g).target := by
  unfold State.opening
  split <;> exact ⟨rfl, rfl⟩

theorem opening_decision (s : State) (g : Fin 16) (change : Bool) :
    (s.setGroup g (s.opening g change)).decision g = .steady ↔ s.decision g = .steady := by
  rw [decision_steady_iff, decision_steady_iff, allSettled_setGroup (opening_policy s g change).1 (opening_policy s g change).2]

/-- R83: a change that takes a group out of STEADY is a change of its own. -/
theorem settle_left (s : State) (g : Fin 16) (left : s.leavesSteady (s.settle g true) g) : (s.settle g true).group g =
    { s.group g with elapsed := 0, reported := false, adopted := true, state := ((s.settle g true).group g).state } := by
  have leaves : s.decision g ≠ .steady := fun steady => left.2 (by
    rw [(settle_group s g true).1]
    exact (opening_decision s g true).mpr steady)
  have opened : s.opening g true = { s.group g with elapsed := 0, reported := false, adopted := true } := if_pos ⟨rfl, left.1, leaves⟩
  rw [(settle_group s g true).1, State.settledGroup, opened]

/-- Any other settlement writes the state alone. -/
theorem settle_stays (s : State) (g : Fin 16) {change : Bool} (stays : change = false ∨ ¬s.leavesSteady (s.settle g change) g) :
    (s.settle g change).group g = { s.group g with state := ((s.settle g change).group g).state } := by
  have opened : s.opening g change = s.group g := by
    refine if_neg fun ⟨changes, steady, leaves⟩ => ?_
    refine (stays.resolve_left (by simp [changes])) ⟨steady, fun still => leaves ?_⟩
    rw [(settle_group s g change).1] at still
    exact (opening_decision s g change).mp still
  rw [(settle_group s g change).1, State.settledGroup, opened]

theorem settle_frame (s : State) (g : Fin 16) (change : Bool) : s.changesOnly (s.settle g change) [.groups, .records] :=
  changesOnly_settle g change (by simp) (by simp) changesOnly_refl

/-- The five settings and the selection of a group stand. -/
def State.settingsStand (s t : State) (g : Fin 16) : Prop := t.group g = { s.group g with
  state := (t.group g).state, elapsed := (t.group g).elapsed, reported := (t.group g).reported, adopted := (t.group g).adopted }

theorem settingsStand_trans (h1 : s.settingsStand t g) (h2 : t.settingsStand u g) : s.settingsStand u g := by
  unfold State.settingsStand at *
  rw [h2, h1]

theorem settle_settingsStand (s : State) (g : Fin 16) (change : Bool) : s.settingsStand (s.settle g change) g := by
  unfold State.settingsStand
  rw [(settle_group s g change).1, State.settledGroup]
  generalize (s.setGroup g (s.opening g change)).decision g = d
  unfold State.opening
  split <;> rfl

/-! ### A member event (R81, R83, R84, R91) -/

/-- What a settlement after a member event has decided at group `g`, with an adopted flag that joins. -/
def State.decidedTo (s t : State) (g : Fin 16) (adopts : Bool) : Prop :=
  (t.group g).state = t.decision g ∧ s.entersSteady t g ∧ (∀ h, h ≠ g → t.group h = s.group h) ∧
  (s.leavesSteady t g → (t.group g).elapsed = 0 ∧ (t.group g).reported = false ∧ (t.group g).adopted = true) ∧
  (¬s.leavesSteady t g → (t.group g).elapsed = (s.group g).elapsed ∧ (t.group g).reported = (s.group g).reported ∧
    (t.group g).adopted = ((s.group g).adopted || adopts))

/-- R83: a settlement from a state whose group has at most adopted. -/
theorem settle_decidedTo {adopts : Bool} (state : (t.group g).state = (s.group g).state) (elapsed : (t.group g).elapsed = (s.group g).elapsed)
    (reported : (t.group g).reported = (s.group g).reported) (adopted : (t.group g).adopted = ((s.group g).adopted || adopts))
    (others : ∀ h, h ≠ g → t.group h = s.group h) (records : t.records = s.records) : s.decidedTo (t.settle g true) g adopts := by
  have leaves : s.leavesSteady (t.settle g true) g ↔ t.leavesSteady (t.settle g true) g := by
    unfold State.leavesSteady
    rw [state]
  refine ⟨settle_decides t g true, ?_, fun h ne => ((settle_group t g true).2 h ne).trans (others h ne), fun left => ?_, fun stays => ?_⟩
  · have told := settle_entersSteady t g true
    unfold State.entersSteady State.notified at told ⊢
    rwa [state, records] at told
  · rw [settle_left t g (leaves.mp left)]
    exact ⟨rfl, rfl, rfl⟩
  · rw [settle_stays t g (.inr fun left => stays (leaves.mpr left))]
    exact ⟨elapsed, reported, adopted⟩

theorem settingsStand_of {adopts : Bool} (group : t.group g = { s.group g with adopted := (s.group g).adopted || adopts }) : s.settingsStand t g := by
  unfold State.settingsStand
  rw [group]

section
variable {state : SlotState} {current : Nat} {old : Member}

theorem takeMember_enter (s : State) (i : Fin 64) (state : SlotState) (current : Nat) (g : Fin 16) :
    s.takeMember ⟨i, state, current, some g⟩ = (s.setMember i (some ⟨g, state, current⟩)).settle g true := rfl

theorem takeMember_leave (held : s.member i = some old) :
    s.takeMember ⟨i, .unused, current, none⟩ = (s.setMember i none).settle old.group true := by
  unfold State.takeMember
  rw [held]
  rfl

/-- R81, R84: the view with a member's new state, and the adopted flag that it brings. -/
def State.heard (s : State) (i : Fin 64) (state : SlotState) (current : Nat) (old : Member) : State :=
  (s.adoptedBy old.group old current).setMember i (some ⟨old.group, state, current⟩)

theorem takeMember_stay (held : s.member i = some old) (defined : state ≠ .unused) : s.takeMember ⟨i, state, current, none⟩ =
    if (((s.heard i state current old).settle old.group true).group old.group).reported = true ∧ state = .transition then
      ((s.heard i state current old).settle old.group true).forceImmediate i else (s.heard i state current old).settle old.group true := by
  unfold State.takeMember
  rw [held]
  exact if_neg defined

theorem heard_group (s : State) (i : Fin 64) (state : SlotState) (current : Nat) (old : Member) :
    (s.heard i state current old).group old.group = { s.group old.group with
      adopted := (s.group old.group).adopted || decide (current = (s.group old.group).target ∧ current ≠ old.current) } ∧
    (∀ h, h ≠ old.group → (s.heard i state current old).group h = s.group h) ∧
    s.changesOnly (s.heard i state current old) [.groups, .members] := by
  unfold State.heard State.adoptedBy
  split
  next news =>
    refine ⟨by rw [decide_eq_true news]; simp, fun h ne => ?_, changesOnly_setMember _ _ (by simp) (changesOnly_setGroup _ _ (by simp) changesOnly_refl)⟩
    rw [State.setMember_group, State.setGroup_group_ne _ _ _ _ (Ne.symm ne)]
  next stale => exact ⟨by rw [decide_eq_false stale]; simp, fun _ _ => rfl, changesOnly_setMember _ _ (by simp) changesOnly_refl⟩

/-- R81: the member view after a member event. -/
theorem settle_setMember_view (s : State) (i : Fin 64) (m : Option Member) (g : Fin 16) (change : Bool) :
    ((s.setMember i m).settle g change).member i = m ∧ ∀ j, j ≠ i → ((s.setMember i m).settle g change).member j = s.member j := by
  refine ⟨?_, fun j ne => ?_⟩
  · rw [member_congr (settle_members _ _ _), State.setMember_member, if_pos rfl]
  · rw [member_congr (settle_members _ _ _), State.setMember_member, if_neg (Ne.symm ne)]

/-- R81, R83: the event of DEFINE SLOT. -/
theorem takeMember_enter_leaves (s : State) (i : Fin 64) (state : SlotState) (current : Nat) (g : Fin 16) :
    s.decidedTo (s.takeMember ⟨i, state, current, some g⟩) g false ∧ s.settingsStand (s.takeMember ⟨i, state, current, some g⟩) g ∧
    s.changesOnly (s.takeMember ⟨i, state, current, some g⟩) [.groups, .members, .records] := by
  rw [takeMember_enter]
  refine ⟨settle_decidedTo rfl rfl rfl (by simp) (fun _ _ => rfl) rfl, settle_settingsStand _ _ _, ?_⟩
  exact changesOnly_trans (changesOnly_setMember i _ (by simp) changesOnly_refl) (changesOnly_mono (settle_frame _ g true) (by simp))

theorem takeMember_leave_leaves (held : s.member i = some old) :
    s.decidedTo (s.takeMember ⟨i, .unused, current, none⟩) old.group false ∧ s.settingsStand (s.takeMember ⟨i, .unused, current, none⟩) old.group ∧
    s.changesOnly (s.takeMember ⟨i, .unused, current, none⟩) [.groups, .members, .records] := by
  rw [takeMember_leave held]
  refine ⟨settle_decidedTo rfl rfl rfl (by simp) (fun _ _ => rfl) rfl, settle_settingsStand _ _ _, ?_⟩
  exact changesOnly_trans (changesOnly_setMember i _ (by simp) changesOnly_refl) (changesOnly_mono (settle_frame _ _ true) (by simp))

/-- R81, R83, R84, R91: any other member event. -/
theorem takeMember_stay_leaves (held : s.member i = some old) (defined : state ≠ .unused) :
    let t := s.takeMember ⟨i, state, current, none⟩
    let forced : Prop := (t.group old.group).reported = true ∧ state = .transition
    s.decidedTo t old.group (decide (current = (s.group old.group).target ∧ current ≠ old.current)) ∧ s.settingsStand t old.group ∧
    t.member i = some ⟨old.group, state, current⟩ ∧ (∀ j, j ≠ i → t.member j = s.member j) ∧
    (forced → t.slot i = { s.slot i with trans := (s.slot i).trans.map fun r => { r with forced := true } } ∧
      s.otherSlotsStand t i ∧ s.changesOnly t [.slots, .groups, .members, .records]) ∧
    (¬forced → s.changesOnly t [.groups, .members, .records]) := by
  intro t forced
  obtain ⟨group, others, frame⟩ := heard_group s i state current old
  have decided := settle_decidedTo (g := old.group) (by rw [group]) (by rw [group]) (by rw [group]) (by rw [group]) others (frame.2.2 .records (by decide))
  have stands := settingsStand_trans (settingsStand_of group) (settle_settingsStand (s.heard i state current old) old.group true)
  have adopted : (s.adoptedBy old.group old current).members = s.members := by
    unfold State.adoptedBy
    split <;> rfl
  obtain ⟨own, other⟩ : ((s.heard i state current old).settle old.group true).member i = some ⟨old.group, state, current⟩ ∧
      ∀ j, j ≠ i → ((s.heard i state current old).settle old.group true).member j = s.member j := by
    obtain ⟨own, other⟩ := settle_setMember_view (s.adoptedBy old.group old current) i (some ⟨old.group, state, current⟩) old.group true
    exact ⟨own, fun j ne => (other j ne).trans (member_congr adopted j)⟩
  have whole : s.changesOnly ((s.heard i state current old).settle old.group true) [.groups, .members, .records] :=
    changesOnly_trans (changesOnly_mono frame (by simp)) (changesOnly_mono (settle_frame _ _ true) (by simp))
  have shape : t = _ := takeMember_stay held defined
  by_cases yes : (((s.heard i state current old).settle old.group true).group old.group).reported = true ∧ state = .transition
  · rw [if_pos yes] at shape
    have hit : forced := by
      show (t.group old.group).reported = true ∧ state = .transition
      rw [shape]
      exact yes
    rw [shape]
    have slots : ((s.heard i state current old).settle old.group true).slots = s.slots := whole.2.2 .slots (by decide)
    refine ⟨decided, stands, own, other, fun _ => ⟨?_, fun j ne => ?_, changesOnly_setSlot _ _ (by simp) (changesOnly_mono whole (by simp))⟩,
      fun no => absurd hit no⟩
    · rw [State.forceImmediate, State.setSlot_slot_same, slot_congr slots]
    · rw [State.forceImmediate, State.setSlot_slot_ne _ _ _ _ (Ne.symm ne), slot_congr slots]
  · rw [if_neg yes] at shape
    have no : ¬forced := fun both => yes (by rw [← shape]; exact both)
    rw [shape]
    exact ⟨decided, stands, own, other, fun both => absurd both no, fun _ => whole⟩

end

/-! ### A selection result (R85) -/

/-- What a target event writes. -/
def Slot.aim (x : Slot) : Nat × Option Layer × Option Mode := (x.target, x.targetCause, x.targetMode)

theorem positionAttempt_aim (s : State) (i j : Fin 64) : ((s.positionAttempt i).1.slot j).aim = (s.slot j).aim ∧
    (((s.positionAttempt i).1.slot j).state = .unused ↔ (s.slot j).state = .unused) := by
  by_cases same : j = i
  · subst same
    rcases positionAttempt_cases s j with ⟨-, e⟩ | ⟨-, -, e⟩ | ⟨⟨joining, -⟩, pl, -, -, e⟩ | ⟨⟨joining, -⟩, pl, -, -, e⟩ <;> rw [e]
    · exact ⟨rfl, Iff.rfl⟩
    · simp [readRecord_slot, Slot.aim]
    · simp [place_slot, Slot.aim]
    · have placed := place_slot s j pl
      simp [Sent.andThen, (enterOverridden_slot _ j).1, placed, Slot.aim, joining]
  · have still := (slotClosed_other (x := s.slot j) same).positionAttempt rfl
    rw [still]
    exact ⟨rfl, Iff.rfl⟩

theorem targetEvent_aim (s : State) (i j : Fin 64) (n : Nat) (k : Option Layer) (m : Option Mode) :
    ((s.targetEvent i n k m).1.slot j).aim = (if j = i ∧ (s.slot i).state ≠ .unused then (n, k, m) else (s.slot j).aim) ∧
    (((s.targetEvent i n k m).1.slot j).state = .unused ↔ (s.slot j).state = .unused) := by
  unfold State.targetEvent
  dsimp only
  split
  next unused => simp [unused]
  next defined =>
    obtain ⟨aim, state⟩ := positionAttempt_aim (s.setSlot i { s.slot i with
      target := n, targetCause := k, targetMode := m, failReported := (s.slot i).failReported && n == (s.slot i).target }) i j
    rw [aim, state, State.setSlot_slot]
    by_cases same : i = j
    · subst same
      simp [defined, Slot.aim]
    · simp [same, Ne.symm same]

/-- R85: every defined member takes the target. -/
theorem selection_aim (n : Nat) (k : Option Layer) (m : Option Mode) : ∀ (is : List (Fin 64)) (a : Sent), (a.1.slot i).state ≠ .unused →
    i ∈ is ∨ (a.1.slot i).aim = (n, k, m) →
    ((is.foldl (fun a i => a.andThen fun s => s.targetEvent i n k m) a).1.slot i).aim = (n, k, m)
  | [], a, _, h => h.resolve_left List.not_mem_nil
  | j :: is, a, defined, h => by
    obtain ⟨aim, state⟩ := targetEvent_aim a.1 j i n k m
    refine selection_aim n k m is _ (mt state.mp defined) ?_
    rcases h with mem | already
    · rcases List.mem_cons.mp mem with rfl | later
      · exact .inr (aim.trans (if_pos ⟨rfl, defined⟩))
      · exact .inl later
    · refine .inr (aim.trans ?_)
      split
      · rfl
      · exact already

/-- The five settings of a group. -/
def Group.settings (x : Group) : Nat × Policy × Mode × Nat × Nat := (x.defaultPlan, x.policy, x.defaultMode, x.tol, x.limit)

theorem settings_of_stand (h : s.settingsStand t g) : (t.group g).settings = (s.group g).settings := by rw [h]; rfl

theorem select_settings (x : Group) (r : Selection) : (x.select r).settings = x.settings := by
  unfold Group.select
  dsimp only
  split <;> rfl

/-- What a selection leaves at the coordinator once its target events have been sent: as the members' own events arrive. -/
structure Selected (s : State) (g : Fin 16) (is : List (Fin 64)) (t : State) : Prop where
  mine : ∀ i ∈ is, ∃ m, t.member i = some m ∧ m.group = g
  decided : (t.group g).state = t.decision g
  steady : s.entersSteady t g
  others : ∀ h, h ≠ g → t.group h = s.group h
  grown : s.records.grows t.records
  settings : (t.group g).settings = (s.group g).settings

theorem Selected.event {is : List (Fin 64)} {e : MemberEvent} (h : Selected s g is t) (mem : e.slot ∈ is) (plain : e.group = none)
    (defined : e.state ≠ .unused) : Selected s g is (t.takeMember e) := by
  obtain ⟨old, held, own⟩ := h.mine e.slot mem
  obtain ⟨decided, stands, view, others, -, -⟩ := takeMember_stay_leaves (current := e.current) held defined
  have event : e = ⟨e.slot, e.state, e.current, none⟩ := by rw [← plain]
  rw [← event, own] at decided stands view
  rw [← event] at others
  obtain ⟨now, told, stand, -⟩ := decided
  have later : t.records.grows (t.takeMember e).records := (engineClosed_grows t.records).takeMember e (RecordUnit.grows_refl _)
  refine ⟨fun i hi => ?_, now, entersSteady_trans h.steady told h.grown later, fun k ne => (stand k ne).trans (h.others k ne),
    RecordUnit.grows_trans h.grown later, (settings_of_stand stands).trans h.settings⟩
  by_cases same : i = e.slot
  · exact ⟨_, same ▸ view, rfl⟩
  · rw [others i same]
    exact h.mine i hi

/-- R30: a target event brings events of its slot alone, and none to UNUSED. -/
theorem targetEvent_own {e : MemberEvent} {n : Nat} {k : Option Layer} {m : Option Mode} (he : e ∈ (s.targetEvent i n k m).2) :
    e.slot = i ∧ e.state ≠ .unused := by
  refine ⟨(targetEvent_events he).1, ?_⟩
  unfold State.targetEvent at he
  dsimp only at he
  split at he
  · exact nomatch he
  · generalize s.setSlot i { s.slot i with target := n, targetCause := k, targetMode := m, failReported := _ } = u at he
    rcases positionAttempt_cases u i with ⟨-, e⟩ | ⟨-, -, e⟩ | ⟨-, pl, -, -, e⟩ | ⟨-, pl, -, -, e⟩ <;> rw [e] at he
    · exact nomatch he
    · exact nomatch he
    · rw [List.mem_singleton.mp he]
      simp [memberEvent]
    · rw [Sent.andThen, (enterOverridden_slot _ i).2] at he
      simp only [List.cons_append, List.nil_append, List.mem_cons, List.not_mem_nil, or_false] at he
      rcases he with rfl | rfl <;> simp [memberEvent]

theorem selection_own (is : List (Fin 64)) (n : Nat) (k : Option Layer) (m : Option Mode) (s : State) :
    ∀ e ∈ (overSlots is (fun t i => t.targetEvent i n k m) s).2, e.slot ∈ is ∧ e.state ≠ .unused := by
  refine List.foldlRecOn (motive := fun a : Sent => ∀ e ∈ a.2, e.slot ∈ is ∧ e.state ≠ .unused) is _ (fun _ h => nomatch h) ?_
  intro a earlier i hi e he
  rcases List.mem_append.mp he with old | new
  · exact earlier e old
  · obtain ⟨own, defined⟩ := targetEvent_own new
    exact ⟨own ▸ hi, defined⟩

theorem select_state (x : Group) (r : Selection) : (x.select r).state = x.state := by
  unfold Group.select
  dsimp only
  split <;> rfl

/-- R85: what a selection result leaves at the coordinator and at the members. -/
theorem takeSelection_leaves (s : State) (g : Fin 16) (r : Selection) :
    Selected s g (s.membersOf g) (s.takeSelection g r) ∧
    ∀ i ∈ s.membersOf g, (s.slot i).state ≠ .unused →
      ((s.takeSelection g r).slot i).aim = (r.plan, some r.layer, some (r.mode.getD (s.group g).defaultMode)) := by
  generalize hq : (s.group g).select r = q
  generalize hs1 : s.setGroup g q = s1
  generalize ha : overSlots (s1.membersOf g) (fun t i => t.targetEvent i q.target q.layer q.targetMode) s1 = a
  have same : s.takeSelection g r = (a.1.settle g false).takeMembers a.2 := by rw [State.takeSelection, hq, hs1, ha]
  have members : s1.membersOf g = s.membersOf g := by rw [← hs1]; rfl
  have told : Tells s1 a := ha ▸ tells_overSlots (fun t i => tells_targetEvent t i _ _ _) _ s1
  have frame : s1.changesOnly a.1 Block.engine := ha ▸ changesOnly_overSlots _ (fun _ i ht => changesOnly_targetEvent i _ _ _ (by simp) ht) changesOnly_refl
  have grown : s.records.grows a.1.records := by
    have first : s1.records = s.records := by rw [← hs1]; rfl
    rw [← first, ← ha]
    exact keeps_overSlots (Q := fun t => s1.records.grows t.records)
      (fun t i ht => (engineClosed_grows s1.records).slots i |>.targetEvent _ _ _ ht) _ (RecordUnit.grows_refl _)
  have own : ∀ e ∈ a.2, e.slot ∈ s.membersOf g ∧ e.state ≠ .unused := by
    rw [← ha, ← members]
    exact selection_own _ _ _ _ _
  have settled : Selected s g (s.membersOf g) (a.1.settle g false) := by
    have state : (a.1.group g).state = (s.group g).state := by
      rw [group_congr told.groups, ← hs1, State.setGroup_group_same, ← hq, select_state]
    refine ⟨fun i hi => ?_, settle_decides _ _ _, ?_, fun h ne => ?_,
      RecordUnit.grows_trans grown ((engineClosed_grows a.1.records).settle g false (RecordUnit.grows_refl _)), ?_⟩
    · have view : s1.member i = s.member i := by rw [← hs1]; rfl
      have held := (List.mem_filter.mp hi).2
      rw [member_congr (settle_members _ _ _), member_congr told.members, view]
      cases e : s.member i with
      | none => simp [e] at held
      | some m => exact ⟨m, rfl, by simpa [e] using held⟩
    · exact entersSteady_trans (entersSteady_of_state state) (settle_entersSteady _ _ _) grown
        ((engineClosed_grows a.1.records).settle g false (RecordUnit.grows_refl _))
    · rw [(settle_group a.1 g false).2 h ne, group_congr told.groups, ← hs1, State.setGroup_group_ne _ _ _ _ (Ne.symm ne)]
    · rw [settings_of_stand (settle_settingsStand a.1 g false), group_congr told.groups, ← hs1, State.setGroup_group_same, ← hq, select_settings]
  rw [same]
  refine ⟨?_, fun i hi defined => ?_⟩
  · exact List.foldlRecOn (motive := Selected s g (s.membersOf g)) a.2 _ settled fun t ht e he => ht.event (own e he).1 (told.plain e he) (own e he).2
  · have slot : s1.slot i = s.slot i := by rw [← hs1]; rfl
    have aim : (a.1.slot i).aim = (q.target, q.layer, q.targetMode) := by
      rw [← ha, overSlots]
      exact selection_aim _ _ _ _ (s1, []) (by rw [slot]; exact defined) (.inl (members ▸ hi))
    have shown := Group.select_shown (s.group g) r
    rw [hq] at shown
    simp only [Group.shown, Prod.mk.injEq] at shown
    obtain ⟨target, layer, mode, -⟩ := shown
    rw [target, layer, mode] at aim
    exact (groupClosed_slot i Slot.aim (fun _ _ => rfl) _).takeMembers _ (by rw [slot_congr (settle_slots _ _ _)]; exact aim)

theorem takeSelection_target (s : State) (g : Fin 16) (r : Selection) : ((s.takeSelection g r).group g).target = r.plan ∧
    ((s.takeSelection g r).group g).layer = some r.layer ∧
    ((s.takeSelection g r).group g).targetMode = some (r.mode.getD (s.group g).defaultMode) := by
  have shown := takeSelection_shown s g r g
  rw [State.setGroup_group_same, Group.select_shown] at shown
  simp only [Group.shown, Prod.mk.injEq] at shown
  exact ⟨shown.1, shown.2.1, shown.2.2.1⟩

/-- R85: where no member waits for a position, the target events are all that happens at the slots. -/
theorem takeSelection_quiet (r : Selection) (placed : ∀ i ∈ s.membersOf g, ¬((s.slot i).state = .joining ∧ (s.slot i).run = none)) :
    s.changesOnly (s.takeSelection g r) [.slots, .groups, .records] ∧
    (s.takeSelection g r).group g = { (s.group g).select r with state := ((s.takeSelection g r).group g).state } := by
  generalize hq : (s.group g).select r = q
  generalize hs1 : s.setGroup g q = s1
  generalize ha : overSlots (s1.membersOf g) (fun t i => t.targetEvent i q.target q.layer q.targetMode) s1 = a
  have same : s.takeSelection g r = (a.1.settle g false).takeMembers a.2 := by rw [State.takeSelection, hq, hs1, ha]
  have members : s1.membersOf g = s.membersOf g := by rw [← hs1]; rfl
  have slot : ∀ i, s1.slot i = s.slot i := fun i => by rw [← hs1]; rfl
  have quiet : a.2 = [] ∧ s1.changesOnly a.1 [.slots] := by
    rw [← ha, overSlots, members]
    have along := List.foldlRecOn (motive := fun a : Sent => (a.2 = [] ∧ s1.changesOnly a.1 [.slots]) ∧
      ∀ i, (a.1.slot i).state = (s.slot i).state ∧ (a.1.slot i).run = (s.slot i).run) (s.membersOf g)
      (fun a i => a.andThen fun t => t.targetEvent i q.target q.layer q.targetMode) (b := (s1, []))
      ⟨⟨rfl, changesOnly_refl⟩, fun i => by rw [slot]; exact ⟨rfl, rfl⟩⟩ ?_
    · exact along.1
    · rintro ⟨t, es⟩ ⟨⟨rfl, frame⟩, still⟩ i hi
      have fixed : t.targetEvent i q.target q.layer q.targetMode = (t, []) ∨ ∃ failed, t.targetEvent i q.target q.layer q.targetMode =
          (t.setSlot i { t.slot i with target := q.target, targetCause := q.layer, targetMode := q.targetMode, failReported := failed }, []) := by
        unfold State.targetEvent
        dsimp only
        split
        · exact .inl rfl
        · refine .inr ⟨(t.slot i).failReported && q.target == (t.slot i).target, if_neg fun seeks => placed i hi ?_⟩
          simp only [State.setSlot_slot_same, Slot.running] at seeks
          rw [← (still i).1, ← (still i).2]
          exact ⟨seeks.1, by simpa using seeks.2.1⟩
      rcases fixed with e | ⟨failed, e⟩
      · simp only [Sent.andThen, e]
        exact ⟨⟨rfl, frame⟩, still⟩
      · simp only [Sent.andThen, e]
        refine ⟨⟨rfl, changesOnly_setSlot _ _ (by simp) frame⟩, fun j => ?_⟩
        rw [State.setSlot_slot]
        split
        next here => rw [← here]; exact still i
        next => exact still j
  obtain ⟨none, frame⟩ := quiet
  rw [same, none]
  have group : a.1.group g = q := by rw [group_congr (frame.2.2 .groups (by decide)), ← hs1, State.setGroup_group_same]
  refine ⟨?_, ?_⟩
  · refine changesOnly_trans (changesOnly_trans ?_ (changesOnly_mono frame (by simp))) (changesOnly_mono (settle_frame a.1 g false) (by simp))
    rw [← hs1]
    exact changesOnly_setGroup _ _ (by simp) changesOnly_refl
  · have stays := settle_stays a.1 g (change := false) (.inl rfl)
    rw [group] at stays
    exact stays

/-! ### SET GROUP (R92) -/

variable {group defaultPlan policy mode tol limit : Byte}

/-- The policy that a code names. -/
def policyOf (policy : Byte) : Policy := if policy = 0#8 then .wait else .leave

theorem groupSettings_of (plans : defaultPlan.toNat ≤ 250) (policies : policy.toNat ≤ 1) (modes : mode.toNat ≤ 3) :
    ∃ m, modeCode m = mode.toNat ∧ groupSettings defaultPlan policy mode tol limit =
      some ⟨defaultPlan.toNat, policyOf policy, m, min 20 tol.toNat, max 1 (min 60 limit.toNat)⟩ := by
  obtain ⟨m, code, known⟩ : ∃ m, modeCode m = mode.toNat ∧ modeOfCode mode = some m := by
    obtain rfl | rfl | rfl | rfl : mode = 0#8 ∨ mode = 1#8 ∨ mode = 2#8 ∨ mode = 3#8 := by bv_omega
    · exact ⟨.best, rfl, rfl⟩
    · exact ⟨.lengthen, rfl, rfl⟩
    · exact ⟨.shorten, rfl, rfl⟩
    · exact ⟨.immediate, rfl, rfl⟩
  have named : policyOfCode policy = some (policyOf policy) := by
    obtain rfl | rfl : policy = 0#8 ∨ policy = 1#8 := by bv_omega
    · rfl
    · rfl
  refine ⟨m, code, ?_⟩
  unfold groupSettings
  rw [named, known]
  exact if_pos plans

theorem groupSettings_of_bad (bad : ¬(defaultPlan.toNat ≤ 250 ∧ policy.toNat ≤ 1 ∧ mode.toNat ≤ 3)) :
    groupSettings defaultPlan policy mode tol limit = none := by
  unfold groupSettings
  split
  next p m hp hm =>
    have modes : mode.toNat ≤ 3 := (modeOfCode_isSome mode).mp (by rw [hm]; rfl)
    have policies : policy.toNat ≤ 1 := by
      unfold policyOfCode at hp
      split at hp
      next zero => omega
      next one => omega
      next => exact nomatch hp
    exact if_neg fun plans => bad ⟨plans, policies, modes⟩
  · rfl

theorem setGroup_of_bad (bad : ¬(group.toNat ≤ 15 ∧ defaultPlan.toNat ≤ 250 ∧ policy.toNat ≤ 1 ∧ mode.toNat ≤ 3)) :
    setGroup group defaultPlan policy mode tol limit s = refuse .badValue s := by
  unfold setGroup
  split
  next g x hg hx =>
    have low := index?_iff.mp hg
    have below : groupSettings defaultPlan policy mode tol limit ≠ none := by rw [hx]; exact nofun
    exact absurd (groupSettings_of_bad fun ⟨plans, policies, modes⟩ => bad ⟨by omega, plans, policies, modes⟩) below
  · rfl

/-- R92: the group record with the settings that a legal SET GROUP carries. -/
def Group.regrouped (x : Group) (defaultPlan policy : Byte) (m : Mode) (tol limit : Byte) : Group :=
  x.withSettings ⟨defaultPlan.toNat, policyOf policy, m, min 20 tol.toNat, max 1 (min 60 limit.toNat)⟩

/-- R92: the state once the settings have been written and the policy's change settled. -/
def State.resettled (s : State) (g : Fin 16) (x : GroupSettings) : State :=
  if (s.group g).policy = x.policy then s.setGroup g ((s.group g).withSettings x) else (s.setGroup g ((s.group g).withSettings x)).settle g true

/-- R92, R83: what writing the settings has left before the timetable engine evaluates. -/
theorem resettled_leaves (s : State) (g : Fin 16) (x : GroupSettings) :
    s.changesOnly (s.resettled g x) [.groups, .records] ∧ (∀ h, h ≠ g → (s.resettled g x).group h = s.group h) ∧
    (s.resettled g x).group g = { (s.group g).withSettings x with
      state := ((s.resettled g x).group g).state, elapsed := ((s.resettled g x).group g).elapsed
      reported := ((s.resettled g x).group g).reported, adopted := ((s.resettled g x).group g).adopted } ∧
    ((s.group g).policy ≠ x.policy → s.decidedTo (s.resettled g x) g false) ∧
    ((s.group g).policy = x.policy → s.resettled g x = s.setGroup g ((s.group g).withSettings x)) ∧
    s.entersSteady (s.resettled g x) g := by
  have written : s.changesOnly (s.setGroup g ((s.group g).withSettings x)) [.groups, .records] := changesOnly_setGroup _ _ (by simp) changesOnly_refl
  have others : ∀ h, h ≠ g → (s.setGroup g ((s.group g).withSettings x)).group h = s.group h := fun h ne =>
    State.setGroup_group_ne _ _ _ _ (Ne.symm ne)
  have own : (s.setGroup g ((s.group g).withSettings x)).group g = (s.group g).withSettings x := State.setGroup_group_same _ _ _
  unfold State.resettled
  split
  next same =>
    refine ⟨written, others, by rw [own], fun no => absurd same no, fun _ => rfl, entersSteady_of_state (by rw [own]; rfl)⟩
  next changed =>
    have decided : s.decidedTo ((s.setGroup g ((s.group g).withSettings x)).settle g true) g false :=
      settle_decidedTo (by rw [own]; rfl) (by rw [own]; rfl) (by rw [own]; rfl) (by rw [own]; simp [Group.withSettings]) others rfl
    have stands := settle_settingsStand (s.setGroup g ((s.group g).withSettings x)) g true
    unfold State.settingsStand at stands
    rw [own] at stands
    refine ⟨changesOnly_trans written (settle_frame _ _ _), decided.2.2.1, stands, fun _ => decided, fun no => absurd no changed, decided.2.1⟩

theorem regroup_eq (s : State) (g : Fin 16) (x : GroupSettings) : s.regroup g x = (s.resettled g x).evaluateNow [g] := rfl

/-- R112: with time set, one group evaluated is one selection taken. -/
theorem evaluateNow_one (timeSet : s.time.disc ≠ .unset) (g : Fin 16) :
    s.evaluateNow [g] = s.takeSelection g (s.tables.select g (s.group g).defaultPlan s.time.day s.time.minute) :=
  if_pos (isSet_iff.mpr timeSet)

/-- R92: what SET GROUP has left when the timetable engine has evaluated the group. -/
theorem regroup_leaves (s : State) (g : Fin 16) (x : GroupSettings) :
    s.changesOnly (s.regroup g x) Block.engine ∧
    ((s.regroup g x).group g).settings = (x.defaultPlan, x.policy, x.defaultMode, x.tol, x.limit) ∧
    ((s.group g).policy ≠ x.policy ∨ s.time.disc ≠ .unset → ((s.regroup g x).group g).state = (s.regroup g x).decision g) ∧
    s.entersSteady (s.regroup g x) g ∧
    (s.time.disc = .unset → s.regroup g x = s.resettled g x) ∧
    (s.time.disc ≠ .unset → (s.regroup g x).showsSelection g ∧ ∀ i, ((s.member i).any fun m => m.group == g) = true →
      (s.slot i).state ≠ .unused → ((s.regroup g x).slot i).target = ((s.regroup g x).group g).target) := by
  obtain ⟨frame, others, own, decided, -, steady⟩ := resettled_leaves s g x
  have wide : s.changesOnly (s.resettled g x) Block.engine := changesOnly_mono frame (by decide)
  have time : (s.resettled g x).time = s.time := frame.2.2 .time (by decide)
  have written : ((s.resettled g x).group g).settings = (x.defaultPlan, x.policy, x.defaultMode, x.tol, x.limit) := by
    rw [own]
    rfl
  rw [regroup_eq]
  by_cases unset : s.time.disc = .unset
  · have none : (s.resettled g x).evaluateNow [g] = s.resettled g x := evaluateNow_of_unset _ _ (by rw [time]; exact unset)
    rw [none]
    exact ⟨wide, written, fun either => (decided (either.resolve_right (not_not.mpr unset))).1, steady, fun _ => rfl, fun no => absurd unset no⟩
  · have timeSet : (s.resettled g x).time.disc ≠ .unset := by rw [time]; exact unset
    have shows := evaluateNow_showsSelection (s.resettled g x) timeSet (List.mem_singleton_self g)
    have engine := evaluateNow_frame (s.resettled g x) [g]
    generalize hr : (s.resettled g x).tables.select g ((s.resettled g x).group g).defaultPlan (s.resettled g x).time.day
      (s.resettled g x).time.minute = r
    have one : (s.resettled g x).evaluateNow [g] = (s.resettled g x).takeSelection g r := by rw [evaluateNow_one timeSet, hr]
    obtain ⟨selected, aims⟩ := takeSelection_leaves (s.resettled g x) g r
    have target : (((s.resettled g x).takeSelection g r).group g).target = r.plan := (takeSelection_target _ _ _).1
    rw [one] at shows engine ⊢
    refine ⟨changesOnly_trans wide engine, selected.settings.trans written, fun _ => selected.decided,
      entersSteady_trans steady selected.steady ?_ selected.grown, fun yes => absurd yes unset, fun _ => ⟨shows, fun i mem defined => ?_⟩⟩
    · unfold State.resettled
      split
      · exact RecordUnit.grows_refl _
      · exact (engineClosed_grows s.records).settle g true (RecordUnit.grows_refl _)
    · have members : (s.resettled g x).members = s.members := frame.2.2 .members (by decide)
      have slots : (s.resettled g x).slots = s.slots := frame.2.2 .slots (by decide)
      have aim := aims i (List.mem_filter.mpr ⟨List.mem_finRange i, by rw [member_congr members]; exact mem⟩) (by rw [slot_congr slots]; exact defined)
      simp only [Slot.aim, Prod.mk.injEq] at aim
      rw [aim.1, target]

theorem setGroup_of_legal (hg : group.toNat = g.val) (plans : defaultPlan.toNat ≤ 250) (policies : policy.toNat ≤ 1) (modes : mode.toNat ≤ 3) :
    ∃ x : GroupSettings, x.defaultPlan = defaultPlan.toNat ∧ x.policy = policyOf policy ∧ modeCode x.defaultMode = mode.toNat ∧
      x.tol = min 20 tol.toNat ∧ x.limit = max 1 (min 60 limit.toNat) ∧ setGroup group defaultPlan policy mode tol limit s =
        ⟨s.regroup g x, .done, [defaultPlan, policy, mode] ++ num1 (min 20 tol.toNat) ++ num1 (max 1 (min 60 limit.toNat))⟩ := by
  obtain ⟨m, code, settings⟩ := groupSettings_of (tol := tol) (limit := limit) plans policies modes
  refine ⟨⟨defaultPlan.toNat, policyOf policy, m, min 20 tol.toNat, max 1 (min 60 limit.toNat)⟩, rfl, rfl, code, rfl, rfl, ?_⟩
  have byte : ∀ b : Byte, num1 b.toNat = [b] := fun b => by simp [num1]
  have policyByte : num1 (policyCode (policyOf policy)) = [policy] := by
    obtain rfl | rfl : policy = 0#8 ∨ policy = 1#8 := by bv_omega
    · rfl
    · rfl
  unfold setGroup
  rw [index?_val hg, settings]
  simp only [Group.settingFields, Group.withSettings, code, byte, policyByte]
  rfl

/-- Settles O27. -/
theorem setGroupSettles : Obligations.SetGroupSettles := by
  unfold Obligations.SetGroupSettles
  intro settled entersSteady decided viewed settingsStand
  refine ⟨fun s src group defaultPlan policy mode tol limit r ready => ?_, fun s g => ?_, fun s i => ?_, fun s i state current g => ?_,
    fun s i state current old held => ?_, fun s g x => ?_⟩
  · intro legal newPolicy
    refine ⟨_, exec_of_owner rfl s, fun bad => carryOut_refuse ready _ _ (setGroup_of_bad bad), fun ⟨_, plans, policies, modes⟩ g hg => ?_⟩
    obtain ⟨x, defaultPlan', policy', mode', tol', limit', e⟩ := setGroup_of_legal (s := s) (tol := tol) (limit := limit) hg plans policies modes
    obtain ⟨engine, settings, decides, steady, still, moves⟩ := regroup_leaves s g x
    obtain ⟨answered, reply, whole⟩ := answered_of ready e engine (by decide) (by decide)
    simp only [Group.settings, Prod.mk.injEq] at settings
    obtain ⟨plan, policy'', mode'', tol'', limit''⟩ := settings
    generalize carryOut _ _ s = t at answered reply whole ⊢
    have groups := group_congr (reply.2.2 .groups (by decide))
    have records : t.records = (s.regroup g x).records := reply.2.2 .records (by decide)
    have slots : t.slots = (s.regroup g x).slots := reply.2.2 .slots (by decide)
    have decision : t.decision g = (s.regroup g x).decision g :=
      decision_congr (by rw [groups]) fun i => by rw [State.inView, member_congr (reply.2.2 .members (by decide))]; rfl
    have told : entersSteady s t g := by
      unfold State.entersSteady State.notified at steady
      show (s.group g).state ≠ .steady → (t.group g).state = .steady → s.notified t .groupSteady
      unfold State.notified
      rw [groups, records]
      exact steady
    have same : newPolicy = x.policy := policy'.symm
    refine ⟨answered, by rw [groups, plan, defaultPlan'], by rw [groups, policy'', same], by rw [groups, mode'', mode'],
      by rw [groups, tol'', tol'], by rw [groups, limit'', limit'], fun either => ?_, told, fun unset => ?_, fun timeSet => ⟨?_, fun i mem defined => ?_, whole⟩⟩
    · rw [groups, decision]
      exact decides (same ▸ either)
    · obtain ⟨frame, others, own, decided', written, -⟩ := resettled_leaves s g x
      rw [← still unset] at frame others own decided' written
      refine ⟨changesOnly_trans (changesOnly_mono frame (by simp)) (changesOnly_mono reply (by simp)), fun h ne => (groups h).trans (others h ne),
        fun changed => ?_, fun kept => ?_⟩
      · obtain ⟨now, -, stand, left, stays⟩ := decided' (same ▸ changed)
        refine ⟨by rw [groups, decision]; exact now, told, fun h ne => (groups h).trans (stand h ne), fun yes => ?_, fun no => ?_⟩
        · rw [groups] at yes ⊢
          exact left yes
        · rw [groups] at no ⊢
          exact stays no
      · rw [groups, written (same ▸ kept), State.setGroup_group_same]
        exact ⟨rfl, rfl, rfl, rfl⟩
    · obtain ⟨shows, -⟩ := moves timeSet
      exact (showsSelection_congr (reply.2.2 .tables (by decide)) (reply.2.2 .time (by decide)) (by rw [groups])).mpr shows
    · rw [groups, slot_congr slots]
      exact (moves timeSet).2 i mem defined
  · intro unsettled waits
    have all : s.allSettled g = true ↔ ¬unsettled := by
      rw [allSettled_iff]
      constructor
      · rintro every ⟨i, m, held, own, not⟩
        exact not ((settles_iff _ _).mp (every i m held own))
      · intro none i m held own
        refine (settles_iff _ _).mpr ?_
        by_contra not
        exact none ⟨i, m, held, own, not⟩
    have holds : ((s.group g).policy = .wait ∧ s.someOverridden g none = true) ↔ waits := by
      rw [someOverridden_iff]
      simp [waits]
    unfold State.decision
    refine ⟨fun no => if_pos (all.mpr no), fun yes wait => ?_, fun yes free adopted => ?_, fun yes free fresh => ?_⟩
    · rw [if_neg fun every => all.mp every yes, if_pos (holds.mpr wait)]
    · rw [if_neg fun every => all.mp every yes, if_neg (mt holds.mp free), if_pos adopted]
    · rw [if_neg fun every => all.mp every yes, if_neg (mt holds.mp free), if_neg (by simp [fresh])]
  · unfold State.holds?
    rw [Bool.and_eq_true, someOverridden_iff, beq_iff_eq]
    refine and_congr_right fun _ => exists_congr fun j => exists_congr fun m => and_congr_left fun _ => ?_
    simp [eq_comm]
  · obtain ⟨decides, stands, frame⟩ := takeMember_enter_leaves s i state current g
    exact ⟨settle_setMember_view s i _ g true, decides, stands, frame⟩
  · intro t g forced
    by_cases unused : state = .unused
    · subst unused
      obtain ⟨decides, stands, frame⟩ := takeMember_leave_leaves (current := current) held
      refine ⟨stands, fun _ => ⟨?_, decides, frame⟩, fun no => absurd rfl no⟩
      have view := settle_setMember_view s i none old.group true
      rw [← takeMember_leave (current := current) held] at view
      exact view
    · obtain ⟨decides, stands, own, others, hit, missed⟩ := takeMember_stay_leaves (current := current) held unused
      exact ⟨stands, fun no => absurd no unused, fun _ => ⟨⟨own, others⟩, decides, hit, missed⟩⟩
  · intro t
    obtain ⟨selected, aims⟩ := takeSelection_leaves s g x
    obtain ⟨target, layer, mode⟩ := takeSelection_target s g x
    refine ⟨target, layer, mode, selected.decided, selected.steady, fun i mem defined => ?_, selected.others,
      changesOnly_takeSelection g x (List.Subset.refl _) changesOnly_refl, fun placed => ?_⟩
    · have aim := aims i (List.mem_filter.mpr ⟨List.mem_finRange i, mem⟩) defined
      simpa only [Slot.aim, Prod.mk.injEq] using aim
    · obtain ⟨frame, group⟩ := takeSelection_quiet x fun i mem => placed i (List.mem_filter.mp mem).2
      refine ⟨fun fresh => ?_, fun same => ?_, frame⟩
      · rw [group, Group.select, if_neg fresh]
        exact ⟨rfl, rfl, rfl⟩
      · rw [group, Group.select, if_pos same]
        exact ⟨rfl, rfl, rfl⟩

end Sys2Proof.Machine
end

section
/-! PROOFS. DEFINE SLOT and positioning attempts (O10). -/

namespace Sys2Proof.Machine

variable {s t u v : State} {i j : Fin 64} {g : Fin 16} {target : Nat}

/-! ### A positioning attempt (R30, R141) -/

/-- What a slot keeps when it is placed. -/
def Slot.standing (x : Slot) : (Nat × Fin 4 × Nat × Fin 16 × Nat × OverrideMode × Bool) × (Nat × Option Layer × Option Mode) × BitVec 5 :=
  ((x.intersection, x.port, x.drop, x.group, x.divider, x.mode, x.recording), x.aim, x.causes)

theorem positionAttempt_standing (s : State) (i : Fin 64) : ((s.positionAttempt i).1.slot i).standing = (s.slot i).standing := by
  rcases positionAttempt_cases s i with ⟨-, e⟩ | ⟨-, -, e⟩ | ⟨-, pl, -, -, e⟩ | ⟨-, pl, -, -, e⟩ <;> rw [e]
  · rw [readRecord_slot]
  · rw [place_slot]
    rfl
  · rw [Sent.andThen, (enterOverridden_slot _ i).1, place_slot]
    rfl

/-- A slot that waits for a position goes on waiting, or is placed: it stays in JOINING or enters OVERRIDDEN. -/
theorem positionAttempt_state (joining : (s.slot i).state = .joining) : ((s.positionAttempt i).1.slot i).state = .joining ∨
    ((s.positionAttempt i).1.slot i).state = .overridden := by
  rcases positionAttempt_cases s i with ⟨-, e⟩ | ⟨-, -, e⟩ | ⟨-, pl, -, -, e⟩ | ⟨-, pl, -, -, e⟩ <;> rw [e]
  · exact .inl joining
  · rw [readRecord_slot]
    exact .inl joining
  · rw [place_slot]
    exact .inl joining
  · rw [Sent.andThen, (enterOverridden_slot _ i).1]
    exact .inr rfl

theorem positionAttempt_events {e : MemberEvent} (he : e ∈ (s.positionAttempt i).2) : e.slot = i ∧ e.state ≠ .transition := by
  rcases positionAttempt_cases s i with ⟨-, h⟩ | ⟨-, -, h⟩ | ⟨-, pl, -, -, h⟩ | ⟨-, pl, -, -, h⟩ <;> rw [h] at he
  · exact nomatch he
  · exact nomatch he
  · rw [List.mem_singleton.mp he]
    simp [memberEvent]
  · rw [Sent.andThen, (enterOverridden_slot _ i).2] at he
    simp only [List.cons_append, List.nil_append, List.mem_cons, List.not_mem_nil, or_false] at he
    rcases he with rfl | rfl <;> simp [memberEvent]

/-- R30: where the attempt is not made. -/
theorem positionAttempt_of_unset (h : s.time.disc = .unset ∨ (s.slot i).target = 0) : s.positionAttempt i = (s, []) := by
  have away : ¬s.seeks i := fun ⟨_, _, timeSet, aimed⟩ => h.elim (isSet_iff.mp timeSet) aimed
  rcases positionAttempt_cases s i with ⟨-, e⟩ | ⟨seeks, -⟩ | ⟨seeks, -⟩ | ⟨seeks, -⟩
  · exact e
  · exact absurd seeks away
  · exact absurd seeks away
  · exact absurd seeks away

/-- R30, R141: what an attempt of a waiting slot for a target finds and leaves. -/
def State.placedAt (s t : State) (i : Fin 64) (target : Nat) : Prop :=
  (∀ l, s.store.recordOf i target = some l → l.faulted = false → l.clean →
    let pl := imagePlan l.data
    (t.slot i).current = target ∧ (t.slot i).copy = some pl ∧ (t.slot i).count = 0 ∧ (t.slot i).firstCycle = true ∧
    (t.slot i).run = some ⟨((((s.time.day * 864000 + s.time.nt : Nat) : Int) - pl.offset) % (pl.cycle : Int)).toNat, pl.cycle,
      pl.phases.map Phase.split⟩ ∧
    ((t.slot i).causes = 0#5 → (t.slot i).state = .joining) ∧
    ((t.slot i).causes ≠ 0#5 → (t.slot i).state = .overridden ∧ s.notified t .overrideEnter ∧
      ((t.slot i).mode = .latched → (t.slot i).latch = true)) ∧
    t.store = s.store) ∧
  ((∀ l, s.store.recordOf i target = some l → l.faulted = true) →
    (t.slot i).state = .joining ∧ (t.slot i).run = none ∧ (t.slot i).current = 0 ∧ t.store = s.store)

/-- The reports around an attempt leave what it says. -/
theorem placedAt_congr (h : u.placedAt t i target) (store : u.store = s.store) (time : u.time = s.time) (before : s.records.grows u.records)
    (slot : v.slot i = t.slot i) (store' : v.store = t.store) (later : t.records.grows v.records) : s.placedAt v i target := by
  have told : u.notified t .overrideEnter → s.notified v .overrideEnter := fun told => by
    refine notified_of_grows ?_ later
    unfold State.notified at told ⊢
    rwa [← before.1]
  unfold State.placedAt at h ⊢
  rw [slot, store', ← store, ← time]
  refine ⟨fun l found normal clean => ?_, h.2⟩
  obtain ⟨current, copy, count, first, run, free, held, same⟩ := h.1 l found normal clean
  exact ⟨current, copy, count, first, run, free, fun some => ⟨(held some).1, told (held some).2.1, (held some).2.2⟩, same⟩

/-- R74: the slot engine's read of a clean record leaves the store. -/
theorem readRecord_of_clean {l : Location} (wf : s.store.wf = true) (low : s.store.corrected ≤ 65535)
    (found : s.store.recordOf i target = some l) (normal : l.faulted = false) (clean : l.clean) :
    s.readRecord i target = (s, .sound (imagePlan l.data)) := by
  have image : (s.store.read l).image = some l.data := by rw [PlanStore.read_clean wf (PlanStore.recordOf_some found).1 low clean]
  have store : (s.store.read l).store = s.store := by rw [PlanStore.read_clean wf (PlanStore.recordOf_some found).1 low clean]
  have located := readLocation_of_image image
  rw [store] at located
  unfold State.readRecord
  rw [found]
  dsimp only
  rw [if_neg (by simp [normal]), located]
  rfl

theorem enterOverridden_store (s : State) (i : Fin 64) : (s.enterOverridden i).1.store = s.store :=
  (endTransition_frame s i .overridden).2.2 .store (by decide)

theorem positionAttempt_placedAt (joining : (s.slot i).state = .joining) (unplaced : (s.slot i).run = none) (fresh : (s.slot i).current = 0)
    (timeSet : s.time.disc ≠ .unset) (aimed : (s.slot i).target ≠ 0) (wf : s.store.wf = true) (low : s.store.corrected ≤ 65535) :
    s.placedAt (s.positionAttempt i).1 i (s.slot i).target := by
  have seeks : s.seeks i := ⟨joining, by simp [Slot.running, unplaced], isSet_iff.mpr timeSet, aimed⟩
  refine ⟨fun l found normal clean => ?_, fun none => ?_⟩
  · have read := readRecord_of_clean wf low found normal clean
    have kept : ∀ pl, (s.place i pl).store = s.store := fun pl => by
      rw [State.place, read]
      rfl
    have records : ∀ pl, (s.place i pl).records = s.records := fun pl => by
      rw [State.place, read]
      rfl
    have run : planRun (imagePlan l.data) (planError s.time.ref 0 (imagePlan l.data)) =
        ⟨((((s.time.day * 864000 + s.time.nt : Nat) : Int) - (imagePlan l.data).offset) % ((imagePlan l.data).cycle : Int)).toNat,
          (imagePlan l.data).cycle, (imagePlan l.data).phases.map Phase.split⟩ := by
      simp only [planRun, planError, Int.natCast_zero, Int.sub_zero]
      rfl
    have own : ∀ pl, (s.readRecord i (s.slot i).target).2 = .sound pl → imagePlan l.data = pl := fun pl sound => by
      rw [read] at sound
      simpa using sound
    rcases positionAttempt_cases s i with ⟨away, -⟩ | ⟨-, vain, -⟩ | ⟨-, pl, sound, free, e⟩ | ⟨-, pl, sound, held, e⟩
    · exact absurd seeks away
    · exact absurd (by rw [read]) (vain (imagePlan l.data))
    · obtain rfl := own pl sound
      rw [e, place_slot]
      exact ⟨rfl, rfl, rfl, rfl, congrArg some run, fun _ => joining, fun causes => absurd free causes, kept _⟩
    · obtain rfl := own pl sound
      have entered := enterOverridden_slot (s.place i (imagePlan l.data)) i
      have store : ((s.place i (imagePlan l.data)).enterOverridden i).1.store = s.store :=
        (enterOverridden_store _ i).trans (kept _)
      rw [e, Sent.andThen]
      dsimp only
      rw [entered.1, place_slot]
      refine ⟨rfl, rfl, rfl, rfl, congrArg some run, fun free => absurd free held, fun _ => ⟨rfl, ?_, fun latched => ?_⟩, store⟩
      · refine notified_raise (t := (s.place i (imagePlan l.data)).endTransition i .overridden) ?_ .overrideEnter (RecordUnit.grows_refl _)
        exact ((engineClosed_grows s.records).slots i).endTransition .overridden (by rw [records]; exact RecordUnit.grows_refl _)
      · have mode : (s.slot i).mode = .latched := latched
        simp [mode]
  · have found : s.readRecord i (s.slot i).target = (s, .missing) ∨ s.readRecord i (s.slot i).target = (s, .faulted) := by
      rcases readRecord_cases s i (s.slot i).target with ⟨-, e⟩ | ⟨-, -, -, e⟩ | ⟨l, found, normal, -⟩
      · exact .inl e
      · exact .inr e
      · rw [none l found] at normal
        exact nomatch normal
    have still : s.positionAttempt i = (s, []) := by
      rcases positionAttempt_cases s i with ⟨-, e⟩ | ⟨-, -, e⟩ | ⟨-, pl, sound, -⟩ | ⟨-, pl, sound, -⟩
      · exact e
      · rw [e]
        rcases found with e | e <;> rw [e]
      · rcases found with e | e <;> rw [e] at sound <;> exact nomatch sound
      · rcases found with e | e <;> rw [e] at sound <;> exact nomatch sound
    rw [still]
    exact ⟨joining, unplaced, fresh, rfl⟩

/-- An attempt leaves the coordinator, and every other slot. -/
theorem positionAttempt_frame (s : State) (i : Fin 64) : s.otherSlotsStand (s.positionAttempt i).1 i ∧
    s.changesOnly (s.positionAttempt i).1 [.slots, .store, .ports, .records] := by
  have told := tells_positionAttempt s i
  have frame : s.changesOnly (s.positionAttempt i).1 Block.engine := changesOnly_positionAttempt i (List.Subset.refl _) changesOnly_refl
  refine ⟨fun j ne => (slotClosed_other (x := s.slot j) ne).positionAttempt rfl, frame.1, frame.2.1, fun b outside => ?_⟩
  by_cases inside : b ∈ Block.engine
  · cases b with
    | groups => exact told.groups
    | members => exact told.members
    | _ => exact absurd inside (by revert outside; decide)
  · exact frame.2.2 b inside

/-! ### A new slot (R35, R86, R138) -/

/-- R138: the causes of the active lines that are mapped to a slot. -/
theorem causeIn_activeCauses (s : State) (i : Fin 64) : (∀ l, causeIn (s.activeCauses i) (.hold l) =
    (decide ((s.hold l).level = .active) && slotIn (s.hold l).map i)) ∧ causeIn (s.activeCauses i) .field = false := by
  have along : ∀ (c : OverrideCause) (ls : List (Fin 4)) (set : BitVec 5), causeIn (ls.foldl (fun set l =>
      if (s.hold l).level = .active ∧ slotIn (s.hold l).map i then causeJoin set (.hold l) else set) set) c =
      (causeIn set c || ls.any fun l => decide ((s.hold l).level = .active ∧ slotIn (s.hold l).map i = true) && decide (c = .hold l)) := by
    intro c ls
    induction ls with
    | nil => exact fun set => by simp
    | cons l ls ih =>
      intro set
      rw [List.foldl_cons, ih, List.any_cons]
      split
      next joins => simp [causeIn_join, joins, Bool.or_assoc]
      next stays => simp [stays]
  have empty : ∀ c, causeIn 0#5 c = false := fun c => by simp [causeIn]
  refine ⟨fun l => ?_, ?_⟩
  · rw [State.activeCauses, along, empty, Bool.false_or, Bool.eq_iff_iff, List.any_eq_true]
    simp
  · rw [State.activeCauses, along, empty, Bool.false_or, ← Bool.not_eq_true, List.any_eq_true]
    simp

/-- R35: the new slot before its positioning attempt. -/
def State.enrolled (s : State) (d : SlotIdentity) : State := (s.setSlot d.slot (s.newSlot d)).takeMember ⟨d.slot, .joining, 0, some d.group⟩

theorem enrolled_leaves (s : State) (d : SlotIdentity) : (s.enrolled d).slot d.slot = s.newSlot d ∧ s.otherSlotsStand (s.enrolled d) d.slot ∧
    (s.enrolled d).member d.slot = some ⟨d.group, .joining, 0⟩ ∧ s.records.grows (s.enrolled d).records ∧
    s.changesOnly (s.enrolled d) [.slots, .groups, .members, .records] := by
  obtain ⟨-, -, frame⟩ := takeMember_enter_leaves (s.setSlot d.slot (s.newSlot d)) d.slot .joining 0 d.group
  have slots := slot_congr (frame.2.2 .slots (by decide))
  refine ⟨(slots d.slot).trans (State.setSlot_slot_same _ _ _), fun j ne => (slots j).trans (State.setSlot_slot_ne _ _ _ _ (Ne.symm ne)),
    (settle_setMember_view _ _ _ _ _).1, (engineClosed_grows s.records).takeMember _ (RecordUnit.grows_refl _), ?_⟩
  exact changesOnly_trans (changesOnly_setSlot _ _ (by simp) changesOnly_refl) (changesOnly_mono frame (by simp))

/-- R35, R86, R138, R141: what DEFINE SLOT leaves. -/
theorem define_leaves (s : State) (d : SlotIdentity) : ((s.define d).slot d.slot).standing = (s.newSlot d).standing ∧
    (((s.define d).slot d.slot).state = .joining ∨ ((s.define d).slot d.slot).state = .overridden) ∧
    (s.time.disc = .unset ∨ (s.group d.group).target = 0 → (s.define d).slot d.slot = s.newSlot d) ∧
    (s.time.disc ≠ .unset → (s.group d.group).target ≠ 0 → s.store.wf = true → s.store.corrected ≤ 65535 →
      s.placedAt (s.define d) d.slot (s.group d.group).target) ∧
    (s.define d).member d.slot = some ⟨d.group, ((s.define d).slot d.slot).state, ((s.define d).slot d.slot).current⟩ ∧
    s.otherSlotsStand (s.define d) d.slot ∧ s.changesOnly (s.define d) Block.engine := by
  obtain ⟨slot, others, view, grown, frame⟩ := enrolled_leaves s d
  have shape : s.define d = ((s.enrolled d).positionAttempt d.slot).deliver := rfl
  generalize s.enrolled d = u at slot others view grown frame shape
  have time : u.time = s.time := frame.2.2 .time (by decide)
  have store : u.store = s.store := frame.2.2 .store (by decide)
  obtain ⟨others', frame'⟩ := positionAttempt_frame u d.slot
  have told := tells_positionAttempt u d.slot
  have slots : ∀ j, (s.define d).slot j = (u.positionAttempt d.slot).1.slot j := fun j => by
    rw [shape, Sent.deliver, takeMembers_slots_of_state _ fun e he => (positionAttempt_events he).2]
  have delivered : (u.positionAttempt d.slot).1.changesOnly (s.define d) [.slots, .groups, .members, .records] := by
    rw [shape]
    exact changesOnly_takeMembers _ (by simp) (by simp) (by simp) (by simp) changesOnly_refl
  have joining : (u.slot d.slot).state = .joining := by rw [slot]; rfl
  have target : (u.slot d.slot).target = (s.group d.group).target := by rw [slot]; rfl
  have standing := positionAttempt_standing u d.slot
  rw [slot, ← slots] at standing
  have state := positionAttempt_state joining
  rw [← slots] at state
  refine ⟨standing, state, fun idle => ?_, fun timeSet aimed wf low => ?_, ?_, fun j ne => ?_, ?_⟩
  · rw [slots, positionAttempt_of_unset (by rw [time, target]; exact idle), slot]
  · rw [← target] at aimed ⊢
    refine placedAt_congr (positionAttempt_placedAt joining (by rw [slot]; rfl) (by rw [slot]; rfl) (by rw [time]; exact timeSet) aimed
      (by rw [store]; exact wf) (by rw [store]; exact low)) store time grown (slots _) (delivered.2.2 .store (by decide)) ?_
    rw [shape]
    exact (engineClosed_grows _).takeMembers _ (RecordUnit.grows_refl _)
  · have seen := told.seen d.slot
    have before : (u.slot d.slot).view = u.member d.slot := by
      rw [view, slot]
      rfl
    rw [before, ← member_congr told.members, ← takeMembers_member _ told.plain, ← slots] at seen
    have group : ((s.define d).slot d.slot).group = d.group := congrArg (fun x => x.1.2.2.2.1) standing
    have member : (s.define d).member d.slot = ((s.define d).slot d.slot).view := (congrArg (fun t => t.member d.slot) shape).trans seen
    rw [member, Slot.view, if_neg, group]
    rcases state with state | state <;> rw [state] <;> decide
  · exact ((slots j).trans (others' j ne)).trans (others j ne)
  · exact changesOnly_trans (changesOnly_mono frame (by decide))
      (changesOnly_trans (changesOnly_mono frame' (by decide)) (changesOnly_mono delivered (by decide)))

/-- Settles O10. -/
theorem defineSlotDefines : Obligations.DefineSlotDefines := by
  unfold Obligations.DefineSlotDefines
  intro placed
  refine ⟨fun s src slot intersection port drop group divider mode r i p g ready hi hp hg low high drops drops' modes unused alone => ?_,
    fun s i target cause mode joining unplaced fresh wf low => ?_⟩
  · have identity := slotIdentity_of_legal (divider := divider) hi hp hg low high drops drops' modes
    generalize hd : (⟨i, intersection.toNat, p, drop.toNat, g, clampDivider divider.toNat, if mode = 0#8 then .latched else .perCycle⟩ : SlotIdentity) = d at identity
    have single : ¬s.duplicates d = true := fun dup => by
      obtain ⟨k, other, defined, same⟩ := duplicates_iff.mp dup
      rw [← hd] at other same
      obtain ⟨apart, apart'⟩ := alone k other defined
      rcases same with same | ⟨same, same'⟩
      · exact apart same
      · exact apart'.elim (fun ne => ne same) fun ne => ne same'
    have e : defineSlot slot intersection port drop group divider mode s = ⟨s.define d, .done, []⟩ := by
      rw [defineSlot, identity]
      refine (if_neg (not_not.mpr ?_)).trans (if_neg single)
      rw [← hd]
      exact unused
    obtain ⟨standing, state, idle, places, view, others, frame⟩ := define_leaves s d
    obtain ⟨answered, reply, whole⟩ := answered_of ready e frame (by decide) (by decide)
    refine ⟨_, exec_of_owner rfl s, answered, ?_⟩
    generalize carryOut _ _ s = t at answered reply whole ⊢
    have slots := slot_congr (reply.2.2 .slots (by decide))
    obtain ⟨hold, field⟩ := causeIn_activeCauses s i
    simp only [Slot.standing, Slot.aim, Prod.mk.injEq] at standing
    obtain ⟨⟨intersection', port', drop', group', divider', mode', recording'⟩, ⟨target', cause', tmode'⟩, causes'⟩ := standing
    subst hd
    have slot := slots i
    refine ⟨by rw [slot]; exact intersection', by rw [slot]; exact port', by rw [slot]; exact drop', by rw [slot]; exact group',
      by rw [slot]; exact divider', by rw [slot]; exact mode', by rw [slot]; exact recording', by rw [slot]; exact state,
      by rw [slot]; exact target', fun aimed => ?_, fun none => ?_, fun l => ?_, ?_, fun waits => ?_, fun timeSet aimed wf low => ?_, ?_, fun j ne => ?_, whole⟩
    · rw [slot]
      exact ⟨cause'.trans (if_neg aimed), tmode'.trans (if_neg aimed)⟩
    · rw [slot]
      exact ⟨cause'.trans (if_pos none), tmode'.trans (if_pos none)⟩
    · rw [slot, ← hold]
      exact congrArg (fun causes => causeIn causes (.hold l)) causes'
    · rw [slot, ← field]
      exact congrArg (fun causes => causeIn causes .field) causes'
    · rw [slot]
      refine (congrArg (fun x : Slot => x.state = .joining ∧ x.run = none ∧ x.current = 0) (idle waits)).mpr ?_
      exact ⟨rfl, rfl, rfl⟩
    · have records : t.records = _ := reply.2.2 .records (by decide)
      exact placedAt_congr (places timeSet aimed wf low) rfl rfl (RecordUnit.grows_refl _) slot (reply.2.2 .store (by decide))
        (by rw [records]; exact RecordUnit.grows_refl _)
    · rw [member_congr (reply.2.2 .members (by decide)), slot]
      exact view
    · exact (slots j).trans (others j ne)
  · intro t
    have defined : (s.slot i).state ≠ .unused := by rw [joining]; decide
    have event : s.targetEvent i target cause mode = (s.setSlot i { s.slot i with
        target := target, targetCause := cause, targetMode := mode
        failReported := (s.slot i).failReported && target == (s.slot i).target }).positionAttempt i := if_neg defined
    generalize hx : ({ s.slot i with target := target, targetCause := cause, targetMode := mode
                                     failReported := (s.slot i).failReported && target == (s.slot i).target } : Slot) = x at event
    have shape : t = ((s.setSlot i x).positionAttempt i).1 := by rw [← event]
    clear_value t
    subst shape
    have standing := positionAttempt_standing (s.setSlot i x) i
    obtain ⟨others, frame⟩ := positionAttempt_frame (s.setSlot i x) i
    rw [State.setSlot_slot_same] at standing
    simp only [Slot.standing, Slot.aim, Prod.mk.injEq] at standing
    obtain ⟨-, ⟨target', cause', mode'⟩, causes⟩ := standing
    obtain ⟨aim, aim', aim'', held⟩ : x.target = target ∧ x.targetCause = cause ∧ x.targetMode = mode ∧ x.causes = (s.slot i).causes := by
      rw [← hx]
      exact ⟨rfl, rfl, rfl, rfl⟩
    refine ⟨target'.trans aim, cause'.trans aim', mode'.trans aim'', causes.trans held, fun idle => ?_, fun timeSet aimed => ?_, fun j ne => ?_, changesOnly_trans (changesOnly_setSlot _ _ (by simp) changesOnly_refl) frame⟩
    · rw [positionAttempt_of_unset (by rw [State.setSlot_slot_same, ← hx]; exact idle), State.setSlot_slot_same, ← hx]
      exact ⟨joining, unplaced⟩
    · have at_ : ((s.setSlot i x).slot i).target = target := by rw [State.setSlot_slot_same, ← hx]
      have placed := positionAttempt_placedAt (s := s.setSlot i x) (i := i) (by rw [State.setSlot_slot_same, ← hx]; exact joining)
        (by rw [State.setSlot_slot_same, ← hx]; exact unplaced) (by rw [State.setSlot_slot_same, ← hx]; exact fresh) timeSet
        (by rw [at_]; exact aimed) wf low
      rw [at_] at placed
      exact placedAt_congr placed rfl rfl (RecordUnit.grows_refl _) rfl rfl (RecordUnit.grows_refl _)
    · exact (others j ne).trans (State.setSlot_slot_ne _ _ _ _ (Ne.symm ne))

end Sys2Proof.Machine
end

section
/-! PROOFS. STATUS frames and bad bytes at a field port (O42). -/

namespace Sys2Proof.Machine

variable {s t u : State} {i j : Fin 64} {p : Fin 4} {q : Port} {line : LineCondition} {r : FieldOverride} {a : Sent}

/-! ### A reported override state (R140, R141) -/

/-- R136: the report brings cause FIELD, and the slot does not hold it. -/
def Slot.freshField (y : Slot) (r : FieldOverride) : Prop := r ≠ .none ∧ causeIn y.causes .field = false

/-- R140: a slot whose last reported override state is `r`. -/
def Slot.noting (y : Slot) (r : FieldOverride) : Slot := { y with lastOverride := r }

/-- R140: a slot that has been told the override state that its controller reports. -/
def Slot.reported (y : Slot) (r : FieldOverride) : Slot := (y.noting r).shifted .field (decide (r ≠ .none)) (decide (r = .none))

/-- R140: the report names an override state, at every slot that it reaches. -/
def FieldOverride.held (r : FieldOverride) (_ : Fin 64) : Bool := decide (r ≠ .none)

def FieldOverride.ended (r : FieldOverride) (_ : Fin 64) : Bool := decide (r = .none)

/-- R128: a slot takes outcomes: it is defined, and has a position where it is JOINING. -/
def Slot.listens (y : Slot) : Prop := y.state ≠ .unused ∧ (y.state = .joining → y.run.isSome)

theorem Slot.enters_field {y : Slot} (listens : y.listens) (fresh : causeIn y.causes .field = false) :
    y.enters .field = decide (y.state ≠ .overridden) := by
  obtain ⟨defined, placed⟩ := listens
  have joins : y.joins .field = true := by simp [Slot.joins, defined, fresh]
  by_cases joining : y.state = .joining
  · have run : y.run.isNone = false := by simpa using placed joining
    simp [Slot.enters, joins, joining, run]
  · have early : (y.state == .joining) = false := by simpa using joining
    rw [Slot.enters, joins, early]
    cases y.state <;> rfl

/-- What the report leaves of a slot's other fields. -/
theorem Slot.reported_keeps (y : Slot) (r : FieldOverride) : (y.reported r).run = y.run ∧ (y.reported r).current = y.current ∧
    (y.reported r).count = y.count ∧ (y.reported r).missRun = y.missRun ∧ (y.reported r).timeouts = y.timeouts ∧
    (y.reported r).addressMisses = y.addressMisses ∧ (y.reported r).contentMisses = y.contentMisses ∧
    (y.reported r).lateSyncs = y.lateSyncs ∧ (y.reported r).joined = y.joined ∧ (y.reported r).lastOverride = r := by
  unfold Slot.reported Slot.shifted Slot.withCause Slot.noting
  repeat' split
  all_goals exact ⟨rfl, rfl, rfl, rfl, rfl, rfl, rfl, rfl, rfl, rfl⟩

/-- R140, R141: the report at a slot that has not entered OVERRIDDEN by it. -/
theorem Slot.reported_of_stale {y : Slot} (stale : ¬y.freshField r) : (y.reported r).state = y.state ∧ (y.reported r).trans = y.trans ∧
    (y.reported r).pendingEval = y.pendingEval ∧ causeIn (y.reported r).causes .field = decide (r ≠ .none) ∧
    ∀ l, causeIn (y.reported r).causes (.hold l) = causeIn y.causes (.hold l) := by
  by_cases none : r = .none
  · subst none
    exact ⟨rfl, rfl, rfl, by simp [Slot.reported, Slot.shifted, causeIn_leave], fun l => by simp [Slot.reported, Slot.shifted, causeIn_leave, Slot.noting]⟩
  · have held : causeIn y.causes .field = true := by simpa [Slot.freshField, none] using stale
    have quiet : (y.noting r).joins .field = false := by simp [Slot.joins, Slot.noting, held]
    have outside : (y.noting r).enters .field = false := by simp [Slot.enters, quiet]
    have same : y.reported r = y.noting r := by
      rw [Slot.reported, Slot.shifted, if_pos (decide_eq_true none), Slot.withCause, outside, quiet]
      rfl
    rw [same]
    exact ⟨rfl, rfl, rfl, by simpa [none, Slot.noting] using held, fun _ => rfl⟩

theorem Slot.reported_of_fresh {y : Slot} (listens : y.listens) (fresh : y.freshField r) : (y.reported r).state = .overridden ∧
    (y.mode = .latched → (y.reported r).latch = true) ∧ (y.state ≠ .overridden → (y.reported r).trans = none ∧ (y.reported r).pendingEval = none) ∧
    causeIn (y.reported r).causes .field = decide (r ≠ .none) ∧ ∀ l, causeIn (y.reported r).causes (.hold l) = causeIn y.causes (.hold l) := by
  obtain ⟨active, free⟩ := fresh
  have enters : (y.noting r).enters .field = decide (y.state ≠ .overridden) := Slot.enters_field (y := y.noting r) listens free
  have joins : (y.noting r).joins .field = true := by simp [Slot.joins, Slot.noting, listens.1, free]
  have taken : y.reported r = (y.noting r).withCause .field := if_pos (decide_eq_true active)
  by_cases over' : y.state = .overridden
  · have shape : y.reported r = { y.noting r with
        causes := causeJoin y.causes .field, latch := y.latch || (y.state == .overridden && y.mode == .latched) } := by
      rw [taken, Slot.withCause, enters, joins, decide_eq_false (by simp [over'])]
      rfl
    rw [shape]
    exact ⟨over', fun latched => by simp [over', latched], fun other => absurd over' other, by simp [causeIn_join, active],
      fun l => by simp [causeIn_join]⟩
  · have shape : y.reported r = { y.noting r with
        causes := causeJoin y.causes .field, state := .overridden, trans := none, pendingEval := none,
        latch := y.latch || y.mode == .latched } := by
      rw [taken, Slot.withCause, enters, decide_eq_true over']
      rfl
    rw [shape]
    exact ⟨rfl, fun latched => by simp [latched], fun _ => ⟨rfl, rfl⟩, by simp [causeIn_join, active], fun l => by simp [causeIn_join]⟩

theorem shifted_takeOverride (s : State) (i : Fin 64) (r : FieldOverride) :
    Shifted (s.setSlot i ((s.slot i).noting r)) .field r.held r.ended [i]
      (s.takeOverride i r) := by
  have same : s.takeOverride i r = (s.setSlot i ((s.slot i).noting r)).shift .field
      r.held r.ended i := by cases r <;> rfl
  rw [same]
  exact shifted_shift _ i

/-- R140 to R143, R120: what a reported override state leaves. -/
theorem takeOverride_leaves (listens : (s.slot i).listens) (r : FieldOverride) :
    (s.takeOverride i r).1.slot i = (s.slot i).reported r ∧ s.otherSlotsStand (s.takeOverride i r).1 i ∧
    s.records.grows (s.takeOverride i r).1.records ∧ (∀ e ∈ (s.takeOverride i r).2, e.state ≠ .transition) ∧
    s.changesOnly (s.takeOverride i r).1 [.slots, .ports, .records] ∧
    (¬((s.slot i).freshField r ∧ (s.slot i).state ≠ .overridden) → (∀ p, (s.takeOverride i r).1.port p = s.port p) ∧
      s.recorded (s.takeOverride i r).1 i []) ∧
    ((s.slot i).freshField r → (s.slot i).state ≠ .overridden → s.notified (s.takeOverride i r).1 .overrideEnter ∧
      (∀ p, (s.takeOverride i r).1.port p = if p = (s.slot i).port then
        { s.port p with queue := (s.port p).queue.filter fun e => e.slot ≠ i } else s.port p) ∧
      ((s.slot i).trans = none → s.recorded (s.takeOverride i r).1 i []) ∧
      ∀ c, (s.slot i).trans = some c → s.recorded (s.takeOverride i r).1 i [s.endsAs i (s.slot i).current c .overridden]) := by
  have h := shifted_takeOverride s i r
  generalize s.takeOverride i r = b at h ⊢
  generalize hw : s.setSlot i ((s.slot i).noting r) = w at h
  have own : w.slot i = (s.slot i).noting r := by rw [← hw, State.setSlot_slot_same]
  have others : ∀ j, j ≠ i → w.slot j = s.slot j := fun j ne => by rw [← hw]; exact State.setSlot_slot_ne _ _ _ _ (Ne.symm ne)
  have records : w.records = s.records := by rw [← hw]; rfl
  have ports : ∀ p, w.port p = s.port p := fun p => by rw [← hw]; rfl
  have overrides : w.overrides .field r.held i = true ↔
      (s.slot i).freshField r ∧ (s.slot i).state ≠ .overridden := by
    unfold State.overrides Slot.freshField
    cases held : causeIn (s.slot i).causes .field
    · rw [own, Slot.enters_field (y := (s.slot i).noting r) listens held]
      rw [FieldOverride.held, Bool.and_eq_true, decide_eq_true_iff, decide_eq_true_iff]
      exact ⟨fun h => ⟨⟨h.1, rfl⟩, h.2⟩, fun h => ⟨h.1.1, h.2⟩⟩
    · simp [own, Slot.enters, Slot.joins, Slot.noting, held]
  have ended : w.endedHere i .overridden = s.endedHere i .overridden :=
    endedHere_congr (by rw [records]) (by rw [← hw]; rfl) (by rw [own]; rfl) (by rw [own]; rfl) (by rw [own]; rfl)
  have entered : (s.slot i).freshField r → (s.slot i).state ≠ .overridden → w.endedBy .field r.held i = s.endedHere i .overridden :=
    fun fresh other => (if_pos (overrides.mpr ⟨fresh, other⟩)).trans ended
  have recorded : ∀ xs, (slotIn s.records.filter i = true → [i].filterMap (w.endedBy .field r.held) = xs) → s.recorded b.1 i xs :=
    fun xs listed held room => by
      rw [← listed held, ← records] at room ⊢
      exact h.ring room
  refine ⟨?_, fun j ne => ?_, ?_, fun e mem => by simp [(h.plain e mem).2], ?_, fun stays => ⟨fun p => ?_, ?_⟩,
    fun fresh other => ⟨?_, fun p => ?_, fun closed => ?_, fun c open_ => ?_⟩⟩
  · rw [h.slot, if_pos (by simp), own]
    rfl
  · rw [h.slot, if_neg (by simpa using ne), others j ne]
  · rw [← records]
    exact h.grown
  · rw [← hw] at h
    exact changesOnly_trans (changesOnly_setSlot _ _ (by simp) changesOnly_refl) h.frame
  · have quiet := Bool.eq_false_iff.mpr (stays ∘ overrides.mp)
    have kept : ∀ e : QueueEntry, (decide (e.slot ∈ [i]) && w.overrides .field r.held e.slot) = false := fun e => by
      by_cases same : e.slot = i
      · rw [same, quiet, Bool.and_false]
      · simp [same]
    rw [h.port]
    simp only [kept, Bool.false_and, Bool.not_false, List.filter_true]
    exact ports p
  · refine recorded _ fun _ => ?_
    simp [State.endedBy, Bool.eq_false_iff.mpr (stays ∘ overrides.mp)]
  · have told := h.told i (by simp) (overrides.mpr ⟨fresh, other⟩)
    unfold State.notified at told ⊢
    rwa [records] at told
  · have kept : ∀ e : QueueEntry, (!(decide (e.slot ∈ [i]) && w.overrides .field r.held e.slot && (w.slot e.slot).port == p)) =
        (decide (e.slot ≠ i) || (s.slot i).port != p) := fun e => by
      by_cases same : e.slot = i
      · simp [same, overrides.mpr ⟨fresh, other⟩, own, Slot.noting, bne]
      · simp [same]
    rw [h.port, ports]
    simp only [kept]
    split
    next here => simp [here]
    next away =>
      have apart : ((s.slot i).port != p) = true := by simpa using Ne.symm away
      simp [apart]
  · refine recorded _ fun _ => ?_
    simp [entered fresh other, State.endedHere, closed]
  · refine recorded _ fun held => ?_
    simp [entered fresh other, State.endedHere, open_, held]

/-! ### What an outcome does before that (R31 to R33) -/

/-- What an outcome keeps of its slot. -/
structure Slot.hears (y z : Slot) : Prop where
  run : z.run = y.run
  current : z.current = y.current
  count : z.count = y.count
  causes : z.causes = y.causes
  mode : z.mode = y.mode
  port : z.port = y.port
  intersection : z.intersection = y.intersection
  over' : z.state = .overridden ↔ y.state = .overridden
  listens : z.listens

/-- What an outcome at slot `i` leaves, before the override state is taken. -/
structure Heard (s : State) (i : Fin 64) (a : Sent) : Prop where
  own : (s.slot i).hears (a.1.slot i)
  others : s.otherSlotsStand a.1 i
  frame : s.changesOnly a.1 [.slots, .records]
  grown : s.records.grows a.1.records
  quiet : ∀ e ∈ a.2, e.state ≠ .transition

theorem goodOutcome_of_joining (joining : (s.slot i).state = .joining) : s.goodOutcome i =
    ((s.setSlot i { s.slot i with missRun := 0, state := .coordinated, joined := true }).takeRecord
      ({ s.slot i with missRun := 0 } |>.zeroRecord i .join 0 s.time.stamp), [memberEvent i .coordinated (s.slot i).current]) := by
  unfold State.goodOutcome
  dsimp only
  rw [joining]

theorem goodOutcome_of_lost (lost : (s.slot i).state = .lost) : s.goodOutcome i =
    ((s.setSlot i { s.slot i with missRun := 0, state := .coordinated, pendingEval := some .resync }).raise .slotRejoined,
      [memberEvent i .coordinated (s.slot i).current]) := by
  unfold State.goodOutcome
  dsimp only
  rw [lost]

theorem goodOutcome_of_other (started : (s.slot i).state ≠ .joining) (found : (s.slot i).state ≠ .lost) :
    s.goodOutcome i = (s.setSlot i { s.slot i with missRun := 0 }, []) := by
  unfold State.goodOutcome
  dsimp only
  split
  · contradiction
  · contradiction
  · rfl

/-- R31 to R33: a good outcome. -/
theorem goodOutcome_leaves (listens : (s.slot i).listens) (taken : s.goodOutcome i = a) : Heard s i a ∧ (a.1.slot i).missRun = 0 ∧
    (a.1.slot i).timeouts = (s.slot i).timeouts ∧ (a.1.slot i).addressMisses = (s.slot i).addressMisses ∧
    (a.1.slot i).contentMisses = (s.slot i).contentMisses ∧ (a.1.slot i).lateSyncs = (s.slot i).lateSyncs ∧
    ((s.slot i).state = .joining → (a.1.slot i).joined = true ∧ (a.1.slot i).state = .coordinated ∧
      s.recorded a.1 i [s.noCycles i 0 (s.slot i).current .join]) ∧
    ((s.slot i).state = .lost → (a.1.slot i).state = .coordinated ∧ (a.1.slot i).pendingEval = some .resync ∧ s.notified a.1 .slotRejoined) ∧
    ((s.slot i).state ≠ .joining → (s.slot i).state ≠ .lost → (a.1.slot i).state = (s.slot i).state ∧ (a.1.slot i).trans = (s.slot i).trans ∧
      a.1.records = s.records) := by
  have grown : s.records.grows a.1.records := taken ▸ ((engineClosed_grows _).slots i).goodOutcome (RecordUnit.grows_refl _)
  have others : s.otherSlotsStand a.1 i := fun j ne => taken ▸ (slotClosed_other (x := s.slot j) ne).goodOutcome rfl
  have written : ∀ x : Slot, s.changesOnly (s.setSlot i x) [.slots, .records] := fun x => changesOnly_setSlot _ _ (by simp) changesOnly_refl
  by_cases joining : (s.slot i).state = .joining
  · rw [goodOutcome_of_joining joining] at taken
    have own : a.1.slot i = { s.slot i with missRun := 0, state := .coordinated, joined := true } := by
      rw [← taken]
      exact State.setSlot_slot_same ..
    have frame : s.changesOnly a.1 [.slots, .records] := by
      rw [← taken]
      exact changesOnly_takeRecord _ (by simp) (written _)
    have quiet : ∀ e ∈ a.2, e.state ≠ .transition := by simp [← taken, memberEvent]
    have joins : s.recorded a.1 i [s.noCycles i 0 (s.slot i).current .join] := by
      rw [← taken]
      exact recorded_takeRecord (s.setSlot i _) (Slot.zeroRecord { s.slot i with missRun := 0 } i .join 0 s.time.stamp)
    refine ⟨⟨?_, others, frame, grown, quiet⟩, ?_⟩ <;> rw [own]
    · exact ⟨rfl, rfl, rfl, rfl, rfl, rfl, rfl, by simp [joining], by simp [Slot.listens]⟩
    · exact ⟨rfl, rfl, rfl, rfl, rfl, fun _ => ⟨rfl, rfl, joins⟩, fun lost => by simp [joining] at lost, fun started => absurd joining started⟩
  by_cases lost : (s.slot i).state = .lost
  · rw [goodOutcome_of_lost lost] at taken
    have own : a.1.slot i = { s.slot i with missRun := 0, state := .coordinated, pendingEval := some .resync } := by
      rw [← taken]
      exact State.setSlot_slot_same ..
    have frame : s.changesOnly a.1 [.slots, .records] := by
      rw [← taken]
      exact changesOnly_raise _ (by simp) (written _)
    have quiet : ∀ e ∈ a.2, e.state ≠ .transition := by simp [← taken, memberEvent]
    have rejoins : s.notified a.1 .slotRejoined := by
      rw [← taken]
      exact notified_raise (RecordUnit.grows_refl _) _ (RecordUnit.grows_refl _)
    refine ⟨⟨?_, others, frame, grown, quiet⟩, ?_⟩ <;> rw [own]
    · exact ⟨rfl, rfl, rfl, rfl, rfl, rfl, rfl, by simp [lost], by simp [Slot.listens]⟩
    · exact ⟨rfl, rfl, rfl, rfl, rfl, fun now => absurd now joining, fun _ => ⟨rfl, rfl, rejoins⟩, fun _ found => absurd lost found⟩
  · rw [goodOutcome_of_other joining lost] at taken
    have own : a.1.slot i = { s.slot i with missRun := 0 } := by
      rw [← taken]
      exact State.setSlot_slot_same ..
    have frame : s.changesOnly a.1 [.slots, .records] := by
      rw [← taken]
      exact written _
    have records : a.1.records = s.records := by
      rw [← taken]
      rfl
    refine ⟨⟨?_, others, frame, grown, by simp [← taken]⟩, ?_⟩ <;> rw [own]
    · exact ⟨rfl, rfl, rfl, rfl, rfl, rfl, rfl, Iff.rfl, listens⟩
    · exact ⟨rfl, rfl, rfl, rfl, rfl, fun now => absurd now joining, fun now => absurd now lost, fun _ _ => ⟨rfl, rfl, records⟩⟩

/-- R32, R33: a miss. -/
theorem heard_miss (listens : (s.slot i).listens) (k : MissKind) : Heard s i (s.miss i k) := by
  obtain ⟨others, frame⟩ := miss_ports s i k
  have grown : s.records.grows (s.miss i k).1.records := ((engineClosed_grows _).slots i).miss k (RecordUnit.grows_refl _)
  have quiet : ∀ e ∈ (s.miss i k).2, e.state ≠ .transition := fun e mem => by
    rw [miss_events] at mem
    split at mem
    · exact nomatch mem
    · rw [List.mem_singleton.mp mem]
      exact nofun
  refine ⟨?_, others, frame, grown, quiet⟩
  rcases miss_cases s i k with ⟨-, e⟩ | ⟨-, -, e⟩ | ⟨counts, -, e⟩ <;> rw [e]
  · rw [State.setSlot_slot_same]
    cases k <;> exact ⟨rfl, rfl, rfl, rfl, rfl, rfl, rfl, Iff.rfl, listens⟩
  · rw [State.setSlot_slot_same]
    cases k <;> exact ⟨rfl, rfl, rfl, rfl, rfl, rfl, rfl, Iff.rfl, listens⟩
  · have other : ¬(s.slot i).state = .overridden := fun now => by rcases counts with h | h <;> exact nomatch now.symm.trans h
    rw [enterLost_slot, State.setSlot_slot_same]
    cases k <;> exact ⟨rfl, rfl, rfl, rfl, rfl, rfl, rfl, ⟨nofun, fun now => absurd now other⟩, nofun, nofun⟩

/-- R128, R140: what is left when the override state has been taken too, and the group coordinator has heard of both. -/
theorem Heard.delivered (h : Heard s i a) (r : FieldOverride) (delivered : (a.andThen fun u => u.takeOverride i r).deliver = t) :
    t.slot i = (a.1.slot i).reported r ∧ s.otherSlotsStand t i ∧ a.1.records.grows t.records ∧
    (¬((s.slot i).freshField r ∧ (s.slot i).state ≠ .overridden) → (∀ p, t.port p = s.port p) ∧ a.1.recorded t i []) ∧
    ((s.slot i).freshField r → (s.slot i).state ≠ .overridden → s.notified t .overrideEnter ∧
      (∀ p, t.port p = if p = (s.slot i).port then
        { s.port p with queue := (s.port p).queue.filter fun e => e.slot ≠ i } else s.port p) ∧
      ((a.1.slot i).trans = none → a.1.recorded t i []) ∧
      ∀ c, (a.1.slot i).trans = some c → a.1.recorded t i [a.1.endsAs i (s.slot i).current c .overridden]) := by
  obtain ⟨own, others, grown, quiet, frame, stays, enters⟩ := takeOverride_leaves h.own.listens r
  generalize hb : a.1.takeOverride i r = b at own others grown quiet frame stays enters
  have sent : b.1.takeMembers (a.2 ++ b.2) = t := by rw [← hb]; exact delivered
  have later : b.1.changesOnly t [.slots, .groups, .members, .records] := by
    rw [← sent]
    exact changesOnly_takeMembers _ (by simp) (by simp) (by simp) (by simp) changesOnly_refl
  have slots : ∀ j, t.slot j = b.1.slot j := by
    rw [← sent]
    exact takeMembers_slots_of_state _ fun e mem => (List.mem_append.mp mem).elim (h.quiet e) (quiet e)
  have ring : t.records.ring = b.1.records.ring := by
    rw [← sent]
    exact onlyNotices_ring ((groupClosed_onlyNotices b.1).takeMembers _ (onlyNotices_refl _))
  have raised : b.1.records.grows t.records := by
    rw [← sent]
    exact (engineClosed_grows _).coordinator.takeMembers _ (RecordUnit.grows_refl _)
  have ports := port_congr (later.2.2 .ports (by decide))
  have before := port_congr (h.frame.2.2 .ports (by decide))
  simp only [Slot.freshField, h.own.causes, h.own.over', ne_eq, before, h.own.port, h.own.current] at stays enters ⊢
  refine ⟨(slots i).trans own, fun j ne => ((slots j).trans (others j ne)).trans (h.others j ne), RecordUnit.grows_trans grown raised,
    fun still => ?_, fun fresh other => ?_⟩
  · obtain ⟨same, none⟩ := stays still
    exact ⟨fun p => (ports p).trans (same p), recorded_congr none ring⟩
  · obtain ⟨told, moved, closed, ended⟩ := enters fresh other
    refine ⟨?_, fun p => (ports p).trans (moved p), fun no => recorded_congr (closed no) ring, fun c open_ => recorded_congr (ended c open_) ring⟩
    have told' := notified_of_grows told raised
    unfold State.notified at told' ⊢
    rwa [h.grown.1] at told'

/-! ### A STATUS at a port (R124 to R126) -/

section
variable {drop plan count override : Byte} {intersection : Half} {ms : Nat} {o : FieldOverride} {f : StatusFields} {x : Exchange}

theorem fieldOverrideOfCode_of (code : override.toNat = fieldOverrideCode o) : fieldOverrideOfCode override = some o := by
  unfold fieldOverrideOfCode
  rw [code]
  cases o <;> rfl

theorem statusFields_of (legal : statusInRange drop intersection plan override = true) (code : override.toNat = fieldOverrideCode o) :
    statusFields drop intersection plan count override = some ⟨drop.toNat, intersection.toNat, plan.toNat, count.toNat, o⟩ := by
  rw [statusFields, if_pos legal, fieldOverrideOfCode_of code]
  rfl

theorem exec_status (running : s.resetAsserted = false) (fields : statusFields drop intersection plan count override = some f) :
    exec (.status p drop intersection plan count override ms line) s = .next (s.takeStatus p f ms line) := by
  have event : exec (.status p drop intersection plan count override ms line) s =
      execStatus p drop intersection plan count override ms line s := rfl
  rw [execStatus, fields] at event
  exact exec_of_event event running

theorem takeStatus_of_sending (sends : (s.port p).directionAsserted = true) : s.takeStatus p f ms line = s := if_pos sends

theorem takeStatus_of_none (listens : (s.port p).directionAsserted = false) (none : (s.port p).exchange = none) :
    s.takeStatus p f ms line = s.setPort p ((s.port p).outsideReply line) := by
  have quiet : ¬(s.port p).sending = true := fun sends => nomatch listens.symm.trans sends
  unfold State.takeStatus
  dsimp only
  rw [if_neg quiet, none]

theorem takeStatus_of_some (listens : (s.port p).directionAsserted = false) (open_ : (s.port p).exchange = some x) :
    s.takeStatus p f ms line = if f.drop = x.drop
      then (s.setPort p ((s.port p).frameSeen line).endExchange).reportOutcome x (s.checkStatus x f) f.override
      else s.setPort p { (s.port p).frameSeen line with otherDrops := satAdd (s.port p).otherDrops 1, exchange := some (x.atElapsed ms) } := by
  have quiet : ¬(s.port p).sending = true := fun sends => nomatch listens.symm.trans sends
  unfold State.takeStatus
  dsimp only
  rw [if_neg quiet, open_]
  rfl

/-- R125, R126: the check of a STATUS. -/
def State.meets (s : State) (x : Exchange) (f : StatusFields) : Prop :=
  if x.isSync then f.plan = x.plan ∧ f.count = x.count
  else (s.slot x.slot).state = .overridden ∨ (f.plan = (s.slot x.slot).current ∧ f.count = (s.slot x.slot).count)

theorem checkStatus_of_good (right : f.intersection = x.intersection) (met : s.meets x f) : s.checkStatus x f = .good := by
  unfold State.meets at met
  unfold State.checkStatus
  rw [if_neg (by simp [right])]
  split at met
  next sync => rw [if_pos sync, if_pos met]
  next poll =>
    rw [if_neg poll]
    split
    · rfl
    next other => exact if_pos (met.resolve_left other)

theorem checkStatus_of_content (right : f.intersection = x.intersection) (unmet : ¬s.meets x f) : s.checkStatus x f = .contentMismatch := by
  unfold State.meets at unmet
  unfold State.checkStatus
  rw [if_neg (by simp [right])]
  split at unmet
  next sync => rw [if_pos sync, if_neg unmet]
  next poll => rw [if_neg poll, if_neg fun h => unmet (.inl h), if_neg fun h => unmet (.inr h)]

theorem reportOutcome_of_takes (takes : ¬s.discards x) :
    s.reportOutcome x .addressMismatch o = (s.miss x.slot .address).deliver ∧
    s.reportOutcome x .good o = ((s.goodOutcome x.slot).andThen fun u => u.takeOverride x.slot o).deliver ∧
    s.reportOutcome x .contentMismatch o = ((s.miss x.slot .content).andThen fun u => u.takeOverride x.slot o).deliver := by
  have attached : ¬x.detached = true := fun yes => takes (.inl yes)
  simp only [State.reportOutcome, State.takeOutcome, if_neg attached, if_neg (takes_of_not_discards takes)]
  exact ⟨trivial, trivial, trivial⟩

theorem listens_of_takes (takes : ¬s.discards x) : (s.slot x.slot).listens :=
  ⟨fun unused => takes (.inr (.inl unused)), fun joining => Option.isSome_iff_ne_none.mpr fun none => takes (.inr (.inr ⟨joining, none⟩))⟩

/-- The ports once a port has ended its exchange and a slot that has entered OVERRIDDEN has lost its queued frame (R120). -/
def State.portsAfter (s t : State) (p : Fin 4) (v : Port) (i : Fin 64) (o : FieldOverride) : Prop :=
  let freed := fun h => if h = p then v else s.port h
  (¬(s.slot i).freshField o ∨ (s.slot i).state = .overridden → ∀ h, t.port h = freed h) ∧
  ((s.slot i).freshField o → (s.slot i).state ≠ .overridden → ∀ h, t.port h =
    if h = (s.slot i).port then { freed h with queue := (freed h).queue.filter fun e => e.slot ≠ i } else freed h)

/-- R140 to R143: what a reported override state leaves of its slot. -/
def State.overrideTaken (s t : State) (i : Fin 64) (o : FieldOverride) : Prop :=
  let y := s.slot i
  let z := t.slot i
  (z.lastOverride = o ∧ causeIn z.causes .field = decide (o ≠ .none) ∧ ∀ l, causeIn z.causes (.hold l) = causeIn y.causes (.hold l)) ∧
  (y.freshField o → z.state = .overridden ∧ (y.mode = .latched → z.latch = true) ∧
    (y.state ≠ .overridden → s.notified t .overrideEnter ∧ z.trans = none ∧ z.pendingEval = none))

theorem setPort_freed (s : State) (p : Fin 4) (v : Port) (h : Fin 4) : (s.setPort p v).port h = if h = p then v else s.port h := by
  rw [State.setPort_port]
  by_cases same : p = h <;> simp [same, eq_comm]

/-- What a good outcome and a content mismatch leave alike. -/
theorem Heard.ended {v : Port} (h : Heard (s.setPort p v) i a) (delivered : (a.andThen fun u => u.takeOverride i o).deliver = t) :
    s.otherSlotsStand t i ∧ s.portsAfter t p v i o ∧ s.overrideTaken t i o ∧
    ((t.slot i).run = (s.slot i).run ∧ (t.slot i).current = (s.slot i).current ∧ (t.slot i).count = (s.slot i).count) ∧
    (¬(s.slot i).freshField o → (t.slot i).state = (a.1.slot i).state ∧ (t.slot i).trans = (a.1.slot i).trans ∧
      (t.slot i).pendingEval = (a.1.slot i).pendingEval) ∧
    (∀ xs, ¬((s.slot i).freshField o ∧ (s.slot i).state ≠ .overridden) ∨ (a.1.slot i).trans = none →
      s.recorded a.1 i xs → s.recorded t i xs) := by
  obtain ⟨own, others, grown, stays, enters⟩ := h.delivered o delivered
  have keeps := (a.1.slot i).reported_keeps o
  have ports := setPort_freed s p v
  have sameFresh : (a.1.slot i).freshField o ↔ (s.slot i).freshField o := by
    unfold Slot.freshField
    rw [h.own.causes]
    rfl
  have filter : a.1.records.filter = s.records.filter := h.grown.2.1
  rw [own]
  refine ⟨others, ⟨fun still k => ?_, fun fresh other k => ?_⟩, ⟨?_, fun fresh => ?_⟩, ?_, fun stale => ?_, fun xs quiet first => ?_⟩
  · exact ((stays fun both => still.elim (absurd both.1) both.2).1 k).trans (ports k)
  · rw [(enters fresh other).2.1 k, ports]
    rfl
  · rw [own]
    refine ⟨keeps.2.2.2.2.2.2.2.2.2, ?_⟩
    by_cases fresh : (a.1.slot i).freshField o
    · have causes := (Slot.reported_of_fresh h.own.listens fresh).2.2.2
      rwa [h.own.causes] at causes
    · have causes := (Slot.reported_of_stale fresh).2.2.2
      rwa [h.own.causes] at causes
  · rw [own]
    obtain ⟨state, latch, closed, -⟩ := Slot.reported_of_fresh h.own.listens (sameFresh.mpr fresh)
    rw [h.own.mode] at latch
    exact ⟨state, latch, fun other => ⟨(enters fresh other).1, closed fun now => other (h.own.over'.mp now)⟩⟩
  · exact ⟨keeps.1.trans h.own.run, keeps.2.1.trans h.own.current, keeps.2.2.1.trans h.own.count⟩
  · obtain ⟨state, trans, pending, -⟩ := Slot.reported_of_stale fun fresh => stale (sameFresh.mp fresh)
    exact ⟨state, trans, pending⟩
  · have second : a.1.recorded t i [] := by
      by_cases entered : (s.slot i).freshField o ∧ (s.slot i).state ≠ .overridden
      · exact (enters entered.1 entered.2).2.2.1 (quiet.resolve_left fun no => no entered)
      · exact (stays entered).2
    simpa using recorded_trans first filter second

/-- R31, R125: a good outcome, with the override state that its STATUS reports. -/
theorem good_ends {v : Port} (listens : (s.slot i).listens)
    (ends : (((s.setPort p v).goodOutcome i).andThen fun u => u.takeOverride i o).deliver = t) :
    s.otherSlotsStand t i ∧ s.portsAfter t p v i o ∧ s.overrideTaken t i o ∧
    ((t.slot i).run = (s.slot i).run ∧ (t.slot i).current = (s.slot i).current ∧ (t.slot i).count = (s.slot i).count) ∧
    ((t.slot i).missRun = 0 ∧ (t.slot i).timeouts = (s.slot i).timeouts ∧ (t.slot i).addressMisses = (s.slot i).addressMisses ∧
      (t.slot i).contentMisses = (s.slot i).contentMisses ∧ (t.slot i).lateSyncs = (s.slot i).lateSyncs ∧
      ((s.slot i).state = .joining → (t.slot i).joined = true ∧ (¬(s.slot i).freshField o → (t.slot i).state = .coordinated ∧
        s.recorded t i [s.noCycles i 0 (s.slot i).current .join])) ∧
      ((s.slot i).state = .lost → s.notified t .slotRejoined ∧
        (¬(s.slot i).freshField o → (t.slot i).state = .coordinated ∧ (t.slot i).pendingEval = some .resync)) ∧
      ((s.slot i).state ≠ .joining → (s.slot i).state ≠ .lost → ¬(s.slot i).freshField o →
        (t.slot i).state = (s.slot i).state ∧ (t.slot i).trans = (s.slot i).trans)) ∧
    ((s.slot i).freshField o → (s.slot i).state = .transition → ∀ c, (s.slot i).trans = some c →
      s.recorded t i [s.endsAs i (s.slot i).current c .overridden]) := by
  generalize taken : (s.setPort p v).goodOutcome i = a at ends
  obtain ⟨heard, runs, timeouts, addresses, contents, lates, joins, rejoins, rests⟩ := goodOutcome_leaves (s := s.setPort p v) listens taken
  obtain ⟨others, ports, override, kept, stale, more⟩ := heard.ended ends
  obtain ⟨own, -, grown, -, enters⟩ := heard.delivered o ends
  obtain ⟨-, -, -, missRun, timeouts', addresses', contents', lates', joined, -⟩ := (a.1.slot i).reported_keeps o
  refine ⟨others, ports, override, kept, ⟨?_, ?_, ?_, ?_, ?_, fun joining => ⟨?_, fun still => ⟨?_, ?_⟩⟩, fun lost => ⟨?_, fun still => ⟨?_, ?_⟩⟩,
    fun started found still => ?_⟩, fun fresh moving c open_ => ?_⟩
  · rw [own, missRun, runs]
  · rw [own, timeouts', timeouts]
    rfl
  · rw [own, addresses', addresses]
    rfl
  · rw [own, contents', contents]
    rfl
  · rw [own, lates', lates]
    rfl
  · rw [own, joined]
    exact (joins joining).1
  · exact (stale still).1.trans (joins joining).2.1
  · exact more _ (.inl fun both => still both.1) (joins joining).2.2
  · exact notified_of_grows (rejoins lost).2.2 grown
  · exact (stale still).1.trans (rejoins lost).1
  · exact (stale still).2.2.trans (rejoins lost).2.1
  · obtain ⟨state, trans, -⟩ := rests started found
    exact ⟨(stale still).1.trans state, (stale still).2.1.trans trans⟩
  · have moving' : (s.slot i).state = .transition := moving
    obtain ⟨-, trans, records⟩ := rests (show (s.slot i).state ≠ .joining by simp [moving']) (show (s.slot i).state ≠ .lost by simp [moving'])
    have other : (s.slot i).state ≠ .overridden := by simp [moving']
    have ended := (enters fresh other).2.2.2 c (trans.trans open_)
    have same : a.1.endsAs i (s.slot i).current c .overridden = s.endsAs i (s.slot i).current c .overridden := by
      unfold State.endsAs
      rw [heard.own.intersection, heard.frame.2.2 .time (by decide)]
      rfl
    unfold State.recorded at ended ⊢
    rw [records] at ended
    rw [← same]
    exact ended

/-- R32, R33, R126: a content mismatch, with the override state that its STATUS reports. -/
theorem content_ends {v : Port} (listens : (s.slot i).listens)
    (ends : (((s.setPort p v).miss i .content).andThen fun u => u.takeOverride i o).deliver = t) :
    s.otherSlotsStand t i ∧ s.portsAfter t p v i o ∧ s.overrideTaken t i o ∧
    ((t.slot i).run = (s.slot i).run ∧ (t.slot i).current = (s.slot i).current ∧ (t.slot i).count = (s.slot i).count) ∧
    ((s.slot i).missCounted (t.slot i) .content ∧
      (((s.slot i).state = .coordinated ∨ (s.slot i).state = .transition) ∧ 2 ≤ (s.slot i).missRun →
        s.notified t .slotLost ∧ (¬(s.slot i).freshField o → (t.slot i).state = .lost ∧ (t.slot i).trans = none) ∧
        ∀ c, (s.slot i).trans = some c → s.recorded t i [s.endsAs i (s.slot i).current (c.afterMiss .content) .lost]) ∧
      (¬(((s.slot i).state = .coordinated ∨ (s.slot i).state = .transition) ∧ 2 ≤ (s.slot i).missRun) →
        (¬(s.slot i).freshField o → (t.slot i).state = (s.slot i).state ∧
          ((s.slot i).state = .transition → (t.slot i).trans = (s.slot i).trans.map (·.afterMiss .content))) ∧
        ((s.slot i).freshField o → (s.slot i).state = .transition → ∀ c, (s.slot i).trans = some c →
          s.recorded t i [s.endsAs i (s.slot i).current (c.afterMiss .content) .overridden]))) := by
  have heard := heard_miss (s := s.setPort p v) listens .content
  have missed := missed_of_miss (s.setPort p v) i .content
  generalize (s.setPort p v).miss i .content = a at ends heard missed
  obtain ⟨others, ports, override, kept, stale, more⟩ := heard.ended ends
  obtain ⟨own, -, grown, -, enters⟩ := heard.delivered o ends
  obtain ⟨-, -, -, missRun, timeouts, addresses, contents, lates, -, -⟩ := (a.1.slot i).reported_keeps o
  unfold State.missed at missed
  dsimp only at missed
  rw [State.setPort_slot] at missed
  obtain ⟨counted, -, -, -, -, idle, few, third⟩ := missed
  refine ⟨others, ports, override, kept, ?_, fun loses => ⟨?_, fun still => ?_, fun c open_ => ?_⟩, fun keeps => ⟨fun still => ⟨?_, fun moving => ?_⟩,
    fun fresh moving c open_ => ?_⟩⟩
  · unfold Slot.missCounted at counted ⊢
    rw [own, missRun, timeouts, addresses, contents, lates]
    exact counted
  · exact notified_of_grows (third loses.1 loses.2).2.2.1 grown
  · obtain ⟨state, trans, -⟩ := third loses.1 loses.2
    exact ⟨(stale still).1.trans state, (stale still).2.1.trans trans⟩
  · obtain ⟨-, trans, -, recorded⟩ := third loses.1 loses.2
    exact more _ (.inr trans) (recorded c open_)
  · rw [(stale still).1]
    by_cases counts : (s.slot i).state = .coordinated ∨ (s.slot i).state = .transition
    · exact (few counts (Nat.not_le.mp fun many => keeps ⟨counts, many⟩)).1
    · exact (idle counts).1
  · rw [(stale still).2.1]
    exact (few (.inr moving) (Nat.not_le.mp fun many => keeps ⟨.inr moving, many⟩)).2.1
  · obtain ⟨-, trans, records⟩ := few (.inr moving) (Nat.not_le.mp fun many => keeps ⟨.inr moving, many⟩)
    have other : (s.slot i).state ≠ .overridden := by simp [moving]
    have ended := (enters fresh other).2.2.2 (c.afterMiss .content) (trans.trans (congrArg (Option.map _) open_))
    have same : a.1.endsAs i (s.slot i).current (c.afterMiss .content) .overridden =
        s.endsAs i (s.slot i).current (c.afterMiss .content) .overridden := by
      unfold State.endsAs
      rw [heard.own.intersection, heard.frame.2.2 .time (by decide)]
      rfl
    unfold State.recorded at ended ⊢
    rw [records] at ended
    rw [← same]
    exact ended

end

end Sys2Proof.Machine
end

section
/-! PROOFS. The receptions of a field port, and what a STATUS does there (O42). -/

namespace Sys2Proof.Machine

variable {s t u : State} {i : Fin 64} {p : Fin 4} {q : Port} {line : LineCondition} {ms : Nat} {o : FieldOverride}
variable {kind drop plan count override : Byte} {intersection check : Half}

/-! ### What the receiver makes of bytes (R123, R185, R187) -/

/-- R185: the receiver reverses the sender's escaping, whatever follows. -/
theorem unescape_append (a b : List Byte) : unescape (escape a ++ b) = a ++ unescape b := by
  induction a with
  | nil => rfl
  | cons x xs ih =>
    unfold escape
    split
    · rw [List.cons_append, List.cons_append, unescape, if_pos rfl, ih, BitVec.xor_assoc, BitVec.xor_self, BitVec.xor_zero, List.cons_append]
    next plain => rw [List.cons_append, unescape_plain _ fun same => plain (.inr same), ih, List.cons_append]

/-- R187: the bytes of a STATUS before its CRC. -/
def statusBytes (kind drop : Byte) (intersection : Half) (plan count override : Byte) : List Byte :=
  [kind, drop] ++ halfBytes intersection ++ [plan, count, override]

theorem receiveField_escape (after : List Byte) :
    receiveField (escape (statusBytes kind drop intersection plan count override ++ halfBytes check) ++ after) =
      if kind = 0x23#8 ∧ check = crc16 (statusBytes kind drop intersection plan count override) then
        statusFields drop intersection plan count override else none := by
  unfold receiveField
  rw [unescape_append]
  show (if kind = 0x23#8 ∧ beHalf (hiByte check) (loByte check) = crc16 (statusBytes kind drop intersection plan count override) then
    statusFields drop (beHalf (hiByte intersection) (loByte intersection)) plan count override else none) = _
  rw [beHalf_halfBytes, beHalf_halfBytes]

theorem statusInRange_iff : statusInRange drop intersection plan override = true ↔ 1 ≤ drop.toNat ∧ drop.toNat ≤ 16 ∧
    1 ≤ intersection.toNat ∧ intersection.toNat ≤ 4095 ∧ plan.toNat ≤ 250 ∧ override.toNat ≤ 3 := by
  simp [statusInRange, and_assoc]

theorem statusFields_of_bad (bad : ¬statusInRange drop intersection plan override = true) :
    statusFields drop intersection plan count override = none := if_neg bad

/-- R187: bytes too few for a frame. -/
theorem receiveField_of_short {bytes : List Byte} (short : (unescape bytes).length < 9) : receiveField bytes = none := by
  unfold receiveField
  split
  next whole =>
    rw [whole] at short
    simp only [List.length_cons] at short
    omega
  · rfl

/-! ### Receptions at a port -/

theorem exec_badFrame (s : State) (p : Fin 4) (bytes : List Byte) (ms : Nat) (line : LineCondition) :
    exec (.badFrame p bytes ms line) s = unlessReset (fun s => s.fieldReceptions p ms line (fieldRuns bytes)) s := rfl

theorem fieldRuns_of_no_break {bytes : List Byte} (whole : ¬[escapeByte, delimiter] <:+: bytes) : fieldRuns bytes = [bytes] := by
  rw [fieldRuns, splitAtBreaks_of_no_break bytes whole]

theorem fieldRuns_escape (a : List Byte) {after : List Byte} (whole : ¬[escapeByte, delimiter] <:+: after) :
    fieldRuns (escape a ++ after) = [escape a ++ after] := by
  rw [fieldRuns, splitAtBreaks_escape, splitAtBreaks_of_no_break after whole]

theorem fieldReception_of_none {bytes : List Byte} (bad : receiveField bytes = none) : s.fieldReception p ms bytes line = s.takeBadFrame p ms line := by
  rw [State.fieldReception, bad]

theorem takeBadFrame_of_sending (sends : (s.port p).directionAsserted = true) : s.takeBadFrame p ms line = s := by
  have same : (s.port p).badFrame ms line = s.port p := if_pos sends
  rw [State.takeBadFrame, same, setPort_self]

theorem badFrame_sendsHead (listens : q.directionAsserted = false) : ({ q with
    blockedTimer := 0, idleTimer := 0, line := line, bad := min 65535 (q.bad + 1)
    exchange := q.exchange.map fun x => { x with elapsed := min x.window (max x.elapsed ms), badSeen := true } } : Port).sendsHead
      (q.badFrame ms line) := by
  have quiet : ¬q.sending = true := fun sends => nomatch listens.symm.trans sends
  rw [Port.badFrame, if_neg quiet]
  exact sendsHead_startIfReady _

theorem fieldReception_frame (s : State) (p : Fin 4) (ms : Nat) (bytes : List Byte) (line : LineCondition) :
    s.changesOnly (s.fieldReception p ms bytes line) Block.engine := changesOnly_fieldReception p ms bytes line (fun _ h => h) changesOnly_refl

/-- R185: a break ends one reception and begins the next. -/
theorem exec_badFrame_break (s : State) (p : Fin 4) (a b : List Byte) (ms : Nat) (line : LineCondition) :
    ∃ v, exec (.badFrame p (escape a) ms .active) s = .next v ∧
      exec (.badFrame p (escape a ++ [escapeByte, delimiter] ++ b) ms line) s = exec (.badFrame p b ms line) v := by
  have first : fieldRuns (escape a) = [escape a] := by
    have whole := fieldRuns_escape a (after := []) (by simp)
    rwa [List.append_nil] at whole
  obtain ⟨next, rest, second⟩ : ∃ next rest, fieldRuns b = next :: rest := ⟨_, _, rfl⟩
  rw [exec_badFrame, exec_badFrame, fieldRuns_break, first]
  unfold unlessReset
  cases asserted : s.resetAsserted
  · refine ⟨_, rfl, ?_⟩
    rw [exec_badFrame, unlessReset, second]
    have running := (fieldReception_frame s p ms (escape a) .active).2.1.trans asserted
    show _ = Host.Outcome.next (if (s.fieldReception p ms (escape a) .active).resetAsserted then _ else _)
    rw [running]
    rfl
  · refine ⟨_, rfl, ?_⟩
    rw [exec_badFrame, unlessReset]
    show _ = Host.Outcome.next (if s.resetAsserted then _ else _)
    rw [asserted]
    rfl

/-- R123, R187: the bytes of a STATUS are that STATUS. -/
theorem exec_badFrame_status (s : State) (p : Fin 4) (ms : Nat) (line : LineCondition) {after : List Byte}
    (whole : ¬[escapeByte, delimiter] <:+: after) :
    exec (.badFrame p (escape (statusBytes 0x23#8 drop intersection plan count override ++
      halfBytes (crc16 (statusBytes 0x23#8 drop intersection plan count override))) ++ after) ms line) s =
      exec (.status p drop intersection plan count override ms line) s := by
  have received := receiveField_escape (kind := 0x23#8) (drop := drop) (intersection := intersection) (plan := plan) (count := count)
    (override := override) (check := crc16 (statusBytes 0x23#8 drop intersection plan count override)) after
  rw [if_pos ⟨rfl, rfl⟩] at received
  have same : exec (.status p drop intersection plan count override ms line) s =
      execStatus p drop intersection plan count override ms line s := rfl
  rw [exec_badFrame, fieldRuns_escape _ whole, same]
  unfold execStatus
  refine congrArg (unlessReset · s) (funext fun u => ?_)
  show u.fieldReception p ms _ line = _
  rw [State.fieldReception, received]

/-- R123: bytes that are no good STATUS are a bad frame. -/
theorem exec_badFrame_bad {bytes : List Byte} (running : s.resetAsserted = false) (whole : ¬[escapeByte, delimiter] <:+: bytes)
    (bad : receiveField bytes = none) : exec (.badFrame p bytes ms line) s = .next (s.takeBadFrame p ms line) := by
  have event := exec_badFrame s p bytes ms line
  rw [fieldRuns_of_no_break whole] at event
  have taken : s.fieldReceptions p ms line [bytes] = s.takeBadFrame p ms line := fieldReception_of_none bad
  rw [exec_of_event event running, taken]

theorem exec_status_bad (running : s.resetAsserted = false) (bad : statusFields drop intersection plan count override = none) :
    exec (.status p drop intersection plan count override ms line) s = .next (s.takeBadFrame p ms line) := by
  have event : exec (.status p drop intersection plan count override ms line) s =
      execStatus p drop intersection plan count override ms line s := rfl
  rw [execStatus, bad] at event
  exact exec_of_event event running

/-! ### The obligation -/

/-- Settles O42: by the exchange that the STATUS meets, and by what the receiver makes of the bytes. -/
theorem statusEndsExchange : Obligations.StatusEndsExchange := by
  unfold Obligations.StatusEndsExchange
  refine ⟨fun s p drop intersection plan count override ms line o running legal code listens => ?_,
    fun s p drop intersection plan count override ms line running sends => ?_,
    fun kind drop intersection plan count override check after => ?_, fun bytes short => receiveField_of_short short,
    fun s p bytes ms line running whole bad => ⟨fun sends => ?_, fun listens => ?_⟩,
    fun s p drop intersection plan count override ms line legal after whole => exec_badFrame_status s p ms line whole,
    fun s p a b ms line => exec_badFrame_break s p a b ms line⟩
  · refine ⟨_, exec_status running (statusFields_of legal code), fun closed => ?_, fun x open_ => ⟨fun other => ?_, fun own discarded => ?_,
      fun own attached defined placed => ?_⟩⟩
    · rw [takeStatus_of_none listens closed]
      obtain ⟨here, others, frame⟩ := setPort_alone s p ((s.port p).outsideReply line)
      exact ⟨by rw [here]; exact sendsHead_startIfReady _, others, frame⟩
    · rw [takeStatus_of_some listens open_, if_neg (Ne.symm other)]
      exact setPort_alone s p _
    · rw [takeStatus_of_some listens open_, if_pos own.symm, reportOutcome_of_discards (by exact discarded)]
      obtain ⟨here, others, frame⟩ := setPort_alone s p ((s.port p).frameSeen line).endExchange
      exact ⟨by rw [here]; exact sendsHead_startIfReady _, others, frame⟩
    · rw [takeStatus_of_some listens open_, if_pos own.symm]
      have takes : ¬s.discards x := by
        rintro (gone | unused | ⟨joining, idle⟩)
        · exact nomatch attached.symm.trans gone
        · exact defined unused
        · exact absurd (placed joining) (by simp [idle])
      have listening := listens_of_takes takes
      have frame : s.changesOnly ((s.setPort p ((s.port p).frameSeen line).endExchange).reportOutcome x
          (s.checkStatus x ⟨drop.toNat, intersection.toNat, plan.toNat, count.toNat, o⟩) o) Block.engine :=
        changesOnly_reportOutcome _ _ _ (fun _ h => h) (changesOnly_mono (setPort_alone s p _).2.2 (by decide))
      have sent : ({ s.port p with blockedTimer := 0, idleTimer := 0, line := line, exchange := none, state := .idle } : Port).sendsHead
        ((s.port p).frameSeen line).endExchange := sendsHead_startIfReady _
      generalize ((s.port p).frameSeen line).endExchange = v at frame sent ⊢
      obtain ⟨asAddress, asGood, asContent⟩ := reportOutcome_of_takes (s := s.setPort p v) (o := o) takes
      by_cases address : intersection.toNat ≠ x.intersection
      · have checked : s.checkStatus x ⟨drop.toNat, intersection.toNat, plan.toNat, count.toNat, o⟩ = .addressMismatch := if_pos address
        rw [checked, asAddress] at frame ⊢
        have missed := missed_of_deliver (s.setPort p v) x.slot .address
        obtain ⟨others, left⟩ := missDeliver_frame (s.setPort p v) x.slot .address
        have ports := port_congr (left.2.2 .ports (by decide))
        have heard := heard_miss (s := s.setPort p v) listening .address
        have outside : ∀ {q : Prop}, ¬(¬intersection.toNat ≠ x.intersection ∧ q) := fun both => both.1 address
        refine ⟨others, frame, missed.2.1, missed.2.2.1, ?_, ⟨v, sent, fun _ h => (ports h).trans (setPort_freed s p v h),
          fun yes => absurd yes outside⟩, fun _ => missed, fun yes => absurd yes outside, fun yes => absurd yes outside,
          fun no => absurd address no, fun yes => absurd yes outside⟩
        exact (congrArg Slot.count (takeMembers_slots_of_state _ heard.quiet x.slot)).trans heard.own.count
      · have right : intersection.toNat = x.intersection := not_not.mp address
        by_cases met : s.meets x ⟨drop.toNat, intersection.toNat, plan.toNat, count.toNat, o⟩
        · rw [checkStatus_of_good right met, asGood] at frame ⊢
          obtain ⟨others, ports, override, kept, good, ended⟩ := good_ends (o := o) (t := _) (v := v) (p := p) listening rfl
          refine ⟨others, frame, kept.1, kept.2.1, kept.2.2, ⟨v, sent, fun still => ports.1 (still.imp_left fun no fresh => no ⟨address, fresh⟩),
            fun enters => ports.2 enters.2⟩, fun yes => absurd yes address, fun _ => ?_, fun content => absurd met content.2,
            fun _ => override.1, fun enters => ?_⟩
          · obtain ⟨runs, timeouts, addresses, contents, lates, joins, rejoins, rests⟩ := good
            exact ⟨runs, timeouts, addresses, contents, lates,
              fun joining => ⟨(joins joining).1, fun still => (joins joining).2 fun fresh => still ⟨address, fresh⟩⟩,
              fun lost => ⟨(rejoins lost).1, fun still => (rejoins lost).2 fun fresh => still ⟨address, fresh⟩⟩,
              fun started found still => rests started found fun fresh => still ⟨address, fresh⟩⟩
          · obtain ⟨state, latch, entered⟩ := override.2 enters.2
            exact ⟨state, latch, entered, fun moving r open_ => ⟨fun _ => ended enters.2 moving r open_, fun content => absurd met content.2⟩⟩
        · rw [checkStatus_of_content right met, asContent] at frame ⊢
          obtain ⟨others, ports, override, kept, content⟩ := content_ends (o := o) (t := _) (v := v) (p := p) listening rfl
          obtain ⟨counted, lost, kept'⟩ := content
          refine ⟨others, frame, kept.1, kept.2.1, kept.2.2, ⟨v, sent, fun still => ports.1 (still.imp_left fun no fresh => no ⟨address, fresh⟩),
            fun enters => ports.2 enters.2⟩, fun yes => absurd yes address, fun good => absurd good.2 met, fun _ => ⟨counted, fun loses => ?_,
            fun keeps still => (kept' keeps).1 fun fresh => still ⟨address, fresh⟩⟩, fun _ => override.1, fun enters => ?_⟩
          · obtain ⟨told, gone, recorded⟩ := lost loses
            exact ⟨told, fun still => gone fun fresh => still ⟨address, fresh⟩, recorded⟩
          · obtain ⟨state, latch, entered⟩ := override.2 enters.2
            exact ⟨state, latch, entered, fun moving r open_ => ⟨fun good => absurd good.2 met,
              fun _ keeps => (kept' keeps).2 enters.2 moving r open_⟩⟩
  · cases fields : statusFields drop intersection plan count override with
    | none => rw [exec_status_bad running fields, takeBadFrame_of_sending sends]
    | some f => rw [exec_status running fields, takeStatus_of_sending sends]
  · intro bytes inRange bad
    refine (receiveField_escape after).trans ?_
    split
    next fine =>
      rcases bad with kind | check | range
      · exact absurd fine.1 kind
      · exact absurd fine.2 check
      · exact statusFields_of_bad fun legal => range (statusInRange_iff.mp legal)
    · rfl
  · rw [exec_badFrame_bad running whole bad, takeBadFrame_of_sending sends]
  · obtain ⟨here, others, frame⟩ := setPort_alone s p ((s.port p).badFrame ms line)
    refine ⟨_, exec_badFrame_bad running whole bad, ?_, others, frame⟩
    rw [State.takeBadFrame, here]
    exact badFrame_sendsHead listens

end Sys2Proof.Machine
end

section
/-! PROOFS. The evaluation of a boundary: its steps 4 and 5 (O13). -/

namespace Sys2Proof.Machine

variable {s t u v : State} {i : Fin 64} {p : Nat} {q : Plan} {r : CycleRun} {a : Option EvalCause} {b : Bool} {c : EvalCause} {cause : Cause}

/-! ### What an evaluation leaves -/

/-- What steps 4 and 5 only read. -/
def State.settings (s : State) (i : Fin 64) : PlanStore × Option Plan × Nat × Bool × Bool × Bool :=
  (s.store, (s.slot i).copy, (s.slot i).current, (s.slot i).firstCycle, (s.slot i).failReported, (s.slot i).stepFlag)

/-- A slot rewritten in other fields keeps its settings. -/
theorem settings_setSlot {x : Slot} (copy : x.copy = (s.slot i).copy) (current : x.current = (s.slot i).current)
    (first : x.firstCycle = (s.slot i).firstCycle) (failed : x.failReported = (s.slot i).failReported)
    (stepped : x.stepFlag = (s.slot i).stepFlag) : (s.setSlot i x).settings i = s.settings i := by
  unfold State.settings
  rw [State.setSlot_slot_same, copy, current, first, failed, stepped]
  rfl

theorem planCycle_settings (s : State) (i : Fin 64) : (s.planCycle i).settings i = s.settings i := by
  unfold State.planCycle
  dsimp only
  split
  · exact settings_setSlot rfl rfl rfl rfl rfl
  · rfl

theorem endTransition_settings (s : State) (i : Fin 64) (o : RecordOutcome) : (s.endTransition i o).settings i = s.settings i := by
  have slot := endTransition_slot s i o
  have store : (s.endTransition i o).store = s.store := (endTransition_frame s i o).2.2 .store (by decide)
  unfold State.settings
  rw [slot, store]

theorem evaluateCause_settings (s : State) (i : Fin 64) (c : EvalCause) : (s.evaluateCause i c).settings i = s.settings i := by
  unfold State.evaluateCause
  dsimp only
  split
  · split
    · rw [planCycle_settings]
      split <;> rfl
    · exact settings_setSlot rfl rfl rfl rfl rfl
  · rfl

theorem evaluateCoordinated_settings (s : State) (i : Fin 64) (a : Option EvalCause) (b : Bool) :
    (s.evaluateCoordinated i a b).settings i = s.settings i := by
  unfold State.evaluateCoordinated
  dsimp only
  split
  · rw [planCycle_settings, settings_setSlot] <;> rfl
  · rw [evaluateCause_settings, settings_setSlot] <;> rfl

theorem evaluationStep_settings (s : State) (i : Fin 64) (a : Option EvalCause) (b : Bool) :
    (s.evaluationStep i a b).settings i = s.settings i := by
  unfold State.evaluationStep
  split
  · exact evaluateCoordinated_settings s i a b
  · unfold State.evaluateTransition
    dsimp only
    split
    · rw [evaluateCoordinated_settings]
      refine (settings_setSlot ?_ ?_ ?_ ?_ ?_).trans (endTransition_settings s i _) <;> rfl
    · split
      · split
        · rw [planCycle_settings]
          refine (settings_setSlot ?_ ?_ ?_ ?_ ?_).trans (endTransition_settings s i _) <;> rfl
        · exact settings_setSlot rfl rfl rfl rfl rfl
      · rfl
  · unfold State.evaluateJoining
    dsimp only
    split
    · split
      · exact settings_setSlot rfl rfl rfl rfl rfl
      · exact planCycle_settings s i
    · rfl
  · rw [planCycle_settings, settings_setSlot] <;> rfl
  · exact planCycle_settings s i
  · rfl

/-- Steps 4 and 5 read the step flag and clear it; the rest of what they read stands. -/
theorem stepAndEvaluate_settings (s : State) (i : Fin 64) (a : Option EvalCause) :
    (s.stepAndEvaluate i a).store = s.store ∧ ((s.stepAndEvaluate i a).slot i).copy = (s.slot i).copy ∧
    ((s.stepAndEvaluate i a).slot i).current = (s.slot i).current ∧ ((s.stepAndEvaluate i a).slot i).firstCycle = (s.slot i).firstCycle ∧
    ((s.stepAndEvaluate i a).slot i).failReported = (s.slot i).failReported ∧ ((s.stepAndEvaluate i a).slot i).stepFlag = false := by
  have kept := evaluationStep_settings (s.setSlot i { s.slot i with stepFlag := false }) i a (s.slot i).stepFlag
  unfold State.settings at kept
  rw [State.setSlot_slot_same] at kept
  simp only [Prod.mk.injEq] at kept
  exact kept

/-! ### One evaluation with a cause (R24) -/

/-- R40: the error at position `p`. -/
def State.errAt (s : State) (p : Nat) (q : Plan) : Nat := planError s.time.ref p q

/-- R41: the slot is in step with the plan. -/
def State.nearAt (s : State) (i : Fin 64) (p : Nat) (q : Plan) : Prop := s.errAt p q ≤ s.tolOf i ∨ q.cycle - s.errAt p q ≤ s.tolOf i

/-- R42, R45: the direction that the slot's target mode gives. -/
def State.chosenAt (s : State) (i : Fin 64) (p : Nat) (q : Plan) : Direction := chooseDirection q (s.errAt p q) false (s.slot i).targetMode

theorem planCycle_records (s : State) (i : Fin 64) : (s.planCycle i).records = s.records := by
  unfold State.planCycle
  dsimp only
  split <;> rfl

theorem planCycle_slot_of (copy : (s.slot i).copy = some q) (run : (s.slot i).run = some r) :
    (s.planCycle i).slot i = { s.slot i with run := some (planRun q r.p) } := by
  rw [planCycle_of_runs copy run, State.setSlot_slot_same]

/-- R24: a transition that opens now. -/
def EvalCause.opens (c : EvalCause) (now : Stamp) : Transition :=
  { dir := .immediate, cause := c.cause, fromPlan := c.fromPlan, start := now, used := 0, total := 0, forced := false, lateSeen := false,
    missSeen := false }

/-- R24, R40, R41, R49, R52: from `s` to `u` an evaluation with a cause has been made. -/
def State.evaluatesTo (s u : State) (i : Fin 64) (p : Nat) (q : Plan) (c : EvalCause) : Prop :=
  (s.nearAt i p q → (u.slot i).state = (s.slot i).state ∧ (u.slot i).run = some (planRun q p) ∧ (u.slot i).trans = (s.slot i).trans ∧
    s.recorded u i (if c.cause = .step then [] else [s.noCycles i c.fromPlan (s.slot i).current c.cause])) ∧
  (¬s.nearAt i p q → (u.slot i).state = .transition ∧ (u.slot i).run = some (correctedRun q p (s.errAt p q) (s.chosenAt i p q)) ∧
    (u.slot i).trans = some ⟨s.chosenAt i p q, c.cause, c.fromPlan, s.time.stamp, 1,
      min 65535 (cycleAmount q (s.errAt p q) (s.chosenAt i p q)).2, false, false, false⟩ ∧ s.recorded u i [])

theorem evaluateCause_evaluates (copy : (s.slot i).copy = some q) (run : (s.slot i).run = some r) (c : EvalCause) :
    s.evaluatesTo (s.evaluateCause i c) i r.p q c ∧ ((s.evaluateCause i c).slot i).pendingEval = (s.slot i).pendingEval := by
  have whole : s.evaluateCause i c = if inStep q (s.tolOf i) (s.errAt r.p q) then
      (if c.cause = .step then s else s.takeRecord ((s.slot i).zeroRecord i c.cause c.fromPlan s.time.stamp)).planCycle i
    else s.transitionCycle i q r.p (s.errAt r.p q) (c.opens s.time.stamp) (s.chosenAt i r.p q) := by
    unfold State.evaluateCause
    dsimp only
    rw [copy, run]
    rfl
  have step : inStep q (s.tolOf i) (s.errAt r.p q) = true ↔ s.nearAt i r.p q := decide_eq_true_iff
  by_cases near : s.nearAt i r.p q
  · rw [whole, if_pos (step.mpr near)]
    generalize hw : (if c.cause = .step then s else s.takeRecord ((s.slot i).zeroRecord i c.cause c.fromPlan s.time.stamp)) = w
    have slot : w.slot i = s.slot i := by rw [← hw]; split <;> rfl
    have written : s.recorded w i (if c.cause = .step then [] else [s.noCycles i c.fromPlan (s.slot i).current c.cause]) := by
      rw [← hw]
      split
      · exact recorded_refl s i
      · exact recorded_takeRecord s ((s.slot i).zeroRecord i c.cause c.fromPlan s.time.stamp)
    have own := planCycle_slot_of (s := w) (i := i) (q := q) (r := r) (by rw [slot, copy]) (by rw [slot, run])
    rw [own, slot]
    exact ⟨⟨fun _ => ⟨by rw [own, slot], by rw [own], by rw [own, slot], recorded_congr written (by rw [planCycle_records])⟩,
      fun far => absurd near far⟩, rfl⟩
  · rw [whole, if_neg (near ∘ step.mp)]
    have own := transitionCycle_slot s i q r.p (s.errAt r.p q) (c.opens s.time.stamp) (s.chosenAt i r.p q)
    rw [own]
    refine ⟨⟨fun yes => absurd yes near, fun _ => ?_⟩, rfl⟩
    rw [own]
    refine ⟨rfl, rfl, ?_, recorded_refl s i⟩
    simp only [Transition.withCycle, EvalCause.opens, satAdd, Nat.zero_add]
    rfl

/-! ### Steps 4 and 5 after the steps before them -/

/-- Boundary steps have led from `s` to `w`: slot `i` stands at position `p` with a copy of `q`, and `before` has been recorded. -/
structure Reached (s w : State) (i : Fin 64) (p : Nat) (q : Plan) (st : SlotState) (pend : Option PendingEval) (tr : Option Transition)
    (before : List TransitionRecord) : Prop where
  copy : (w.slot i).copy = some q
  run : ∃ r : CycleRun, (w.slot i).run = some r ∧ r.p = p
  state : (w.slot i).state = st
  pend : (w.slot i).pendingEval = pend
  trans : (w.slot i).trans = tr
  targetMode : (w.slot i).targetMode = (s.slot i).targetMode
  intersection : (w.slot i).intersection = (s.slot i).intersection
  group : (w.slot i).group = (s.slot i).group
  time : w.time = s.time
  groups : w.groups = s.groups
  filter : w.records.filter = s.records.filter
  recorded : s.recorded w i before

section
variable {w : State} {st : SlotState} {pend : Option PendingEval} {tr : Option Transition} {before : List TransitionRecord}

theorem Reached.errAt (h : Reached s w i p q st pend tr before) : w.errAt p q = s.errAt p q := by rw [State.errAt, State.errAt, h.time]

theorem Reached.tolOf (h : Reached s w i p q st pend tr before) : w.tolOf i = s.tolOf i := by
  rw [State.tolOf, State.tolOf, h.group, State.group, State.group, h.groups]

theorem Reached.nearAt (h : Reached s w i p q st pend tr before) : w.nearAt i p q ↔ s.nearAt i p q := by
  rw [State.nearAt, State.nearAt, h.errAt, h.tolOf]

theorem Reached.chosenAt (h : Reached s w i p q st pend tr before) : w.chosenAt i p q = s.chosenAt i p q := by
  rw [State.chosenAt, State.chosenAt, h.errAt, h.targetMode]

theorem Reached.noCycles (h : Reached s w i p q st pend tr before) (from_ to_ : Nat) (cause : Cause) :
    w.noCycles i from_ to_ cause = s.noCycles i from_ to_ cause := by
  rw [State.noCycles, State.noCycles, h.intersection, h.time]

theorem Reached.endsAs (h : Reached s w i p q st pend tr before) (to_ : Nat) (t : Transition) (o : RecordOutcome) :
    w.endsAs i to_ t o = s.endsAs i to_ t o := by
  rw [State.endsAs, State.endsAs, h.intersection, h.time]

theorem Reached.more (h : Reached s w i p q st pend tr before) {xs : List TransitionRecord} (later : w.recorded u i xs) :
    s.recorded u i (before ++ xs) := recorded_trans h.recorded h.filter later

/-- R24: what an evaluation with a cause has left since `s`. -/
def State.evaluated (s u : State) (i : Fin 64) (p : Nat) (q : Plan) (c : EvalCause) (to_ : Nat) (before : List TransitionRecord) : Prop :=
  (s.nearAt i p q → (u.slot i).state = .coordinated ∧ (u.slot i).run = some (planRun q p) ∧
    s.recorded u i (before ++ if c.cause = .step then [] else [s.noCycles i c.fromPlan to_ c.cause])) ∧
  (¬s.nearAt i p q → ((u.slot i).state = .transition ∧ (u.slot i).run = some (correctedRun q p (s.errAt p q) (s.chosenAt i p q)) ∧
    (u.slot i).trans = some ⟨s.chosenAt i p q, c.cause, c.fromPlan, s.time.stamp, 1,
      min 65535 (cycleAmount q (s.errAt p q) (s.chosenAt i p q)).2, false, false, false⟩) ∧ s.recorded u i before)

/-- A slot that has been rewritten in its state and its flags. -/
theorem Reached.write {x : Slot} {st' : SlotState} {pend' : Option PendingEval} (h : Reached s w i p q st pend tr before)
    (state : x.state = st') (pending : x.pendingEval = pend') (copy : x.copy = (w.slot i).copy) (run : x.run = (w.slot i).run)
    (trans : x.trans = (w.slot i).trans) (mode : x.targetMode = (w.slot i).targetMode) (inter : x.intersection = (w.slot i).intersection)
    (group : x.group = (w.slot i).group) : Reached s (w.setSlot i x) i p q st' pend' tr before := by
  have own := State.setSlot_slot_same w i x
  exact ⟨by rw [own, copy, h.copy], by rw [own, run]; exact h.run, by rw [own, state], by rw [own, pending], by rw [own, trans, h.trans],
    by rw [own, mode, h.targetMode], by rw [own, inter, h.intersection], by rw [own, group, h.group], h.time, h.groups, h.filter, h.recorded⟩

/-- An open transition has ended with a record. -/
theorem Reached.ended {t : Transition} (h : Reached s w i p q st pend (some t) before) (o : RecordOutcome) :
    Reached s (w.endTransition i o) i p q st pend none (before ++ [s.endsAs i (w.slot i).current t o]) := by
  have own := endTransition_slot w i o
  have frame := endTransition_frame w i o
  have ended := recorded_endTransition h.trans o
  rw [h.endsAs] at ended
  have filter : (w.endTransition i o).records.filter = w.records.filter :=
    (((engineClosed_grows _).slots i).endTransition o (RecordUnit.grows_refl w.records)).2.1
  exact ⟨by rw [own]; exact h.copy, by rw [own]; exact h.run, by rw [own]; exact h.state, by rw [own]; exact h.pend, by rw [own],
    by rw [own]; exact h.targetMode, by rw [own]; exact h.intersection, by rw [own]; exact h.group, (frame.2.2 .time (by decide)).trans h.time,
    (frame.2.2 .groups (by decide)).trans h.groups, filter.trans h.filter, h.more ended⟩

/-- R52: the next cycle is a plan cycle. -/
theorem Reached.planCycle (h : Reached s w i p q st pend tr before) : ((w.planCycle i).slot i).run = some (planRun q p) ∧
    ((w.planCycle i).slot i).state = st ∧ ((w.planCycle i).slot i).trans = tr ∧ ((w.planCycle i).slot i).pendingEval = pend ∧
    s.recorded (w.planCycle i) i before := by
  obtain ⟨r, run, rfl⟩ := h.run
  rw [planCycle_slot_of h.copy run]
  exact ⟨rfl, h.state, h.trans, h.pend, recorded_congr h.recorded (by rw [planCycle_records])⟩

/-- R24: step 5 in COORDINATED with a cause. -/
theorem Reached.evaluate (h : Reached s w i p q .coordinated pend tr before) (found : (w.slot i).evalCause a b = some c) :
    s.evaluated (w.evaluateCoordinated i a b) i p q c (w.slot i).current before ∧ ((w.evaluateCoordinated i a b).slot i).pendingEval = none := by
  have whole : w.evaluateCoordinated i a b = (w.setSlot i { w.slot i with pendingEval := none }).evaluateCause i c := by
    unfold State.evaluateCoordinated
    dsimp only
    rw [found]
  have h' : Reached s (w.setSlot i { w.slot i with pendingEval := none }) i p q .coordinated none tr before :=
    h.write h.state rfl rfl rfl rfl rfl rfl rfl
  have current : ((w.setSlot i { w.slot i with pendingEval := none }).slot i).current = (w.slot i).current := by rw [State.setSlot_slot_same]
  generalize w.setSlot i { w.slot i with pendingEval := none } = w' at whole h' current
  obtain ⟨r, run, rfl⟩ := h'.run
  obtain ⟨⟨inStep, outOfStep⟩, pending⟩ := evaluateCause_evaluates h'.copy run c
  rw [whole]
  simp only [h'.nearAt, h'.errAt, h'.chosenAt, h'.noCycles, h'.state, h'.time, current] at inStep outOfStep
  refine ⟨⟨fun near => ?_, fun far => ?_⟩, pending.trans h'.pend⟩
  · obtain ⟨state, next, -, written⟩ := inStep near
    exact ⟨state, next, h'.more written⟩
  · obtain ⟨state, next, trans, written⟩ := outOfStep far
    exact ⟨⟨state, next, trans⟩, by simpa using h'.more written⟩

/-- R24: step 5 in COORDINATED without a cause. -/
theorem Reached.rest (h : Reached s w i p q .coordinated pend tr before) (none : (w.slot i).evalCause a b = none) :
    ((w.evaluateCoordinated i a b).slot i).run = some (planRun q p) ∧ ((w.evaluateCoordinated i a b).slot i).state = .coordinated ∧
    ((w.evaluateCoordinated i a b).slot i).pendingEval = .none ∧ s.recorded (w.evaluateCoordinated i a b) i before := by
  have whole : w.evaluateCoordinated i a b = (w.setSlot i { w.slot i with pendingEval := .none }).planCycle i := by
    unfold State.evaluateCoordinated
    dsimp only
    rw [none]
  have h' : Reached s (w.setSlot i { w.slot i with pendingEval := .none }) i p q .coordinated .none tr before :=
    h.write h.state rfl rfl rfl rfl rfl rfl rfl
  obtain ⟨next, state, -, pending, written⟩ := h'.planCycle
  rw [whole]
  exact ⟨next, state, pending, written⟩

end

end Sys2Proof.Machine
end

section
/-! PROOFS. Steps 4 and 5 of a boundary by the slot's state (O13). -/

namespace Sys2Proof.Machine

variable {s t u v w : State} {i : Fin 64} {p : Nat} {q : Plan} {r : CycleRun} {a : Option EvalCause} {b : Bool} {c : EvalCause} {cause : Cause}
variable {st : SlotState} {pend : Option PendingEval} {tr : Option Transition} {before : List TransitionRecord}

theorem evaluationStep_coordinated (state : (w.slot i).state = .coordinated) : w.evaluationStep i a b = w.evaluateCoordinated i a b := by
  unfold State.evaluationStep
  rw [state]

theorem evaluationStep_transition (state : (w.slot i).state = .transition) : w.evaluationStep i a b = w.evaluateTransition i a b := by
  unfold State.evaluationStep
  rw [state]

theorem evaluationStep_joining (state : (w.slot i).state = .joining) : w.evaluationStep i a b = w.evaluateJoining i a b := by
  unfold State.evaluationStep
  rw [state]

theorem evaluationStep_lost (state : (w.slot i).state = .lost) :
    w.evaluationStep i a b = (w.setSlot i { w.slot i with pendingEval := none }).planCycle i := by
  unfold State.evaluationStep
  rw [state]

theorem evaluationStep_overridden (state : (w.slot i).state = .overridden) : w.evaluationStep i a b = w.planCycle i := by
  unfold State.evaluationStep
  rw [state]

/-! ### With a plan adopted (R21, R22) -/

/-- R25: an open transition is superseded, and the adopted plan is evaluated. -/
theorem Reached.supersede {t : Transition} (h : Reached s w i p q .transition pend (some t) before) :
    s.evaluated (w.evaluationStep i (some c) b) i p q c (w.slot i).current (before ++ [s.endsAs i (w.slot i).current t .superseded]) := by
  have ended := h.ended .superseded
  have own := endTransition_slot w i .superseded
  have whole : w.evaluateTransition i (some c) b = ((w.endTransition i .superseded).setSlot i
      { (w.endTransition i .superseded).slot i with state := .coordinated }).evaluateCoordinated i (some c) b := rfl
  have again : Reached s ((w.endTransition i .superseded).setSlot i { (w.endTransition i .superseded).slot i with state := .coordinated }) i p q
      .coordinated pend none _ := ended.write rfl ended.pend rfl rfl rfl rfl rfl rfl
  have current : (((w.endTransition i .superseded).setSlot i
      { (w.endTransition i .superseded).slot i with state := .coordinated }).slot i).current = (w.slot i).current := by
    rw [State.setSlot_slot_same, own]
  rw [evaluationStep_transition h.state, whole]
  have evaluated := (again.evaluate (a := some c) (b := b) rfl).1
  rwa [current] at evaluated

/-- R26, R58: step 5 in JOINING. -/
theorem Reached.join (h : Reached s w i p q .joining pend tr before) :
    ((w.evaluationStep i a b).slot i).state = .joining ∧ ((w.evaluationStep i a b).slot i).trans = tr ∧ s.recorded (w.evaluationStep i a b) i before ∧
    (s.nearAt i p q ∨ (a = none ∧ b = false) → ((w.evaluationStep i a b).slot i).run = some (planRun q p)) ∧
    (¬s.nearAt i p q → (a.isSome = true ∨ b = true) →
      ((w.evaluationStep i a b).slot i).run = some (correctedRun q p (s.errAt p q) .immediate)) := by
  obtain ⟨r, run, at_⟩ := h.run
  have whole : w.evaluateJoining i a b = if (a.isSome || b) && !inStep q (w.tolOf i) (w.errAt r.p q) then
      w.setSlot i { w.slot i with run := some (correctedRun q r.p (w.errAt r.p q) .immediate) } else w.planCycle i := by
    unfold State.evaluateJoining
    dsimp only
    rw [h.copy, run]
    rfl
  rw [at_, h.errAt, h.tolOf] at whole
  have step : inStep q (s.tolOf i) (s.errAt p q) = true ↔ s.nearAt i p q := decide_eq_true_iff
  rw [evaluationStep_joining h.state, whole]
  split
  next corrects =>
    simp only [Bool.and_eq_true, Bool.or_eq_true, Bool.not_eq_true'] at corrects
    have far : ¬s.nearAt i p q := fun near => by simp [step.mpr near] at corrects
    rw [State.setSlot_slot_same]
    refine ⟨h.state, h.trans, h.recorded, fun still => still.elim (fun near => absurd near far) fun none => ?_, fun _ _ => rfl⟩
    simp [none.1, none.2] at corrects
  next stays =>
    obtain ⟨next, state, trans, -, written⟩ := h.planCycle
    refine ⟨state, trans, written, fun _ => next, fun far asked => absurd ?_ stays⟩
    have out : inStep q (s.tolOf i) (s.errAt p q) = false := by simpa using far ∘ step.mp
    simpa [out] using asked

theorem Reached.lose (h : Reached s w i p q .lost pend tr before) : ((w.evaluationStep i a b).slot i).state = .lost ∧
    ((w.evaluationStep i a b).slot i).pendingEval = none ∧ ((w.evaluationStep i a b).slot i).run = some (planRun q p) := by
  have rewritten : Reached s (w.setSlot i { w.slot i with pendingEval := none }) i p q .lost none tr before :=
    h.write h.state rfl rfl rfl rfl rfl rfl rfl
  obtain ⟨next, state, -, pending, -⟩ := rewritten.planCycle
  rw [evaluationStep_lost h.state]
  exact ⟨state, pending, next⟩

theorem Reached.override (h : Reached s w i p q .overridden pend tr before) : ((w.evaluationStep i a b).slot i).state = .overridden ∧
    ((w.evaluationStep i a b).slot i).run = some (planRun q p) := by
  obtain ⟨next, state, -⟩ := h.planCycle
  rw [evaluationStep_overridden h.state]
  exact ⟨state, next⟩

/-- R25, R43, R50: a boundary of an open transition, with no plan adopted. -/
theorem Reached.transit {t : Transition} (h : Reached s w i p q .transition pend (some t) before) :
    (s.nearAt i p q → ((w.evaluationStep i none b).slot i).state = .coordinated ∧ ((w.evaluationStep i none b).slot i).trans = none ∧
      ((w.evaluationStep i none b).slot i).run = some (planRun q p) ∧
      s.recorded (w.evaluationStep i none b) i (before ++ [s.endsAs i (w.slot i).current t .completed])) ∧
    (¬s.nearAt i p q → ∀ d, d = t.nextDirection q (s.errAt p q) (s.slot i).targetMode b →
      ((w.evaluationStep i none b).slot i).state = .transition ∧
      ((w.evaluationStep i none b).slot i).run = some (correctedRun q p (s.errAt p q) d) ∧ s.recorded (w.evaluationStep i none b) i before ∧
      ((w.evaluationStep i none b).slot i).trans = some (t.withCycle d (cycleAmount q (s.errAt p q) d).2)) := by
  obtain ⟨r, run, at_⟩ := h.run
  have whole : w.evaluateTransition i none b = if inStep q (w.tolOf i) (w.errAt r.p q) then
      ((w.endTransition i .completed).setSlot i { (w.endTransition i .completed).slot i with state := .coordinated }).planCycle i
    else w.transitionCycle i q r.p (w.errAt r.p q) t (t.nextDirection q (w.errAt r.p q) (w.slot i).targetMode b) := by
    unfold State.evaluateTransition
    dsimp only
    rw [h.copy, run, h.trans]
    rfl
  rw [at_, h.errAt, h.tolOf, h.targetMode] at whole
  have step : inStep q (s.tolOf i) (s.errAt p q) = true ↔ s.nearAt i p q := decide_eq_true_iff
  rw [evaluationStep_transition h.state, whole]
  refine ⟨fun near => ?_, fun far d same => ?_⟩
  · rw [if_pos (step.mpr near)]
    have ended := h.ended .completed
    have again : Reached s ((w.endTransition i .completed).setSlot i { (w.endTransition i .completed).slot i with state := .coordinated }) i p q
        .coordinated pend none _ := ended.write rfl ended.pend rfl rfl rfl rfl rfl rfl
    obtain ⟨next, state, trans, -, written⟩ := again.planCycle
    exact ⟨state, trans, next, written⟩
  · subst same
    rw [if_neg (far ∘ step.mp), transitionCycle_slot]
    exact ⟨rfl, rfl, h.recorded, rfl⟩

end Sys2Proof.Machine
end

section
/-! PROOFS. The adoption of a boundary: its steps 2 and 3 (O13). -/

namespace Sys2Proof.Machine

variable {s t u v w : State} {i : Fin 64} {p n : Nat} {q : Plan} {a : Option EvalCause} {c : EvalCause} {st : PlanStore} {l r sh : Location}

/-! ### A promotion (R69) -/

/-- R69: a shadow that has become its key's record. -/
def Location.asRecord (sh : Location) : Location := { sh with occupancy := .record, link := none }

theorem PlanStore.promote_of (record : st.recordOf i n = some r) (shadow : st.shadowOf i n = some sh) :
    st.promote i n = (st.free r.num).put sh.asRecord := by
  unfold PlanStore.promote
  rw [record, shadow]
  rfl

/-- R62, R69: the record leaves, and the shadow's location is the key's record. -/
theorem PlanStore.lawful.promoted (h : st.lawful) (record : st.recordOf i n = some r) (shadow : st.shadowOf i n = some sh) :
    st.becomes (st.promote i n) sh.asRecord [r.num, sh.num] ∧ (∀ m ∈ (st.promote i n).held, m.num ≠ r.num) ∧
    (st.promote i n).recordOf i n = some sh.asRecord ∧ (st.promote i n).corrected = st.corrected := by
  obtain ⟨rMem, isRecord, -, -⟩ := h.recordOf_iff.mp record
  obtain ⟨mem, isShadow, slot, key⟩ := h.shadowOf_iff.mp shadow
  have apart : sh.num ≠ r.num := fun same => by
    rw [PlanStore.eq_of_num h.1 mem rMem same, isRecord] at isShadow
    exact nomatch isShadow
  have members : ∀ m, m ∈ (st.promote i n).held ↔ m = sh.asRecord ∨ (m.num ≠ sh.num ∧ m ∈ st.held ∧ m.num ≠ r.num) := fun m => by
    rw [PlanStore.promote_of record shadow, PlanStore.mem_put (PlanStore.free_wf h.1 _), PlanStore.mem_free]
    rfl
  have own : sh.asRecord ∈ (st.promote i n).held := (members _).mpr (.inl rfl)
  refine ⟨⟨own, fun m away => ?_, ?_⟩, fun m hm => ?_, ?_, ?_⟩
  · simp only [List.mem_cons, List.not_mem_nil, or_false, not_or] at away
    rw [members]
    refine ⟨fun held => ?_, fun held => .inr ⟨away.2, held, away.1⟩⟩
    rcases held with rfl | ⟨-, held, -⟩
    · exact absurd rfl away.2
    · exact held
  · rw [PlanStore.promote_of record shadow]
    rfl
  · rcases (members m).mp hm with rfl | ⟨-, -, other⟩
    · exact apart
    · exact other
  · exact (h.promote i n).recordOf_iff.mpr ⟨own, rfl, slot, key⟩
  · rw [PlanStore.promote_of record shadow]
    rfl

/-! ### Reads in vain (R76) -/

theorem readRecord_of_missing (missing : s.store.recordOf i n = none) : s.readRecord i n = (s, .missing) := by
  unfold State.readRecord
  rw [missing]

theorem readRecord_of_marked (found : s.store.recordOf i n = some l) (marked : l.faulted = true) : s.readRecord i n = (s, .faulted) := by
  unfold State.readRecord
  rw [found]
  exact if_pos marked

theorem readRecord_of_unsound (found : s.store.recordOf i n = some l) (normal : l.faulted = false) (bad : ¬l.sound) :
    s.readRecord i n = ((s.setStore (s.store.put { l with faulted := true })).raise .planFault, .faulted) := by
  have bad' : ∃ w ∈ l.words, w.finding = .uncorrectable := by simpa [Location.sound] using bad
  have read := PlanStore.read_unsound (st := s.store) bad'
  have located := readLocation_of_none (s := s) (congrArg StoreRead.image read)
  rw [read] at located
  unfold State.readRecord
  rw [found]
  dsimp only
  rw [if_neg (by simp [normal]), located]

/-! ### The target (R21) -/

/-- R21: the slot has a target to adopt. -/
def State.aims (s : State) (i : Fin 64) : Prop :=
  (s.slot i).target ≠ 0 ∧ (s.slot i).target ≠ (s.slot i).current ∧ s.holds? i = false

theorem adoptTarget_of_rest (rests : ¬((s.slot i).adopts = true ∧ s.aims i)) : s.adoptTarget i = (s, none) := by
  refine if_neg fun all => rests ?_
  obtain ⟨adopts, aimed, other, free⟩ := all
  exact ⟨adopts, aimed, other, by simpa using free⟩

section
variable {s1 : State}

theorem aims_condition (adopts : (s.slot i).adopts = true) (aims : s.aims i) :
    (s.slot i).adopts = true ∧ (s.slot i).target ≠ 0 ∧ (s.slot i).target ≠ (s.slot i).current ∧ (!s.holds? i) = true :=
  ⟨adopts, aims.1, aims.2.1, by simp [aims.2.2]⟩

theorem adoptTarget_of_sound (adopts : (s.slot i).adopts = true) (aims : s.aims i)
    (read : s.readRecord i (s.slot i).target = (s1, .sound q)) : s.adoptTarget i =
      (s1.setSlot i { s.slot i with copy := some q, current := (s.slot i).target, firstCycle := true, failReported := false },
        some ⟨((s.slot i).targetCause.getD .default).cause, (s.slot i).current⟩) := by
  unfold State.adoptTarget
  dsimp only
  rw [if_pos (aims_condition adopts aims), read]

theorem adoptTarget_of_missing (adopts : (s.slot i).adopts = true) (aims : s.aims i)
    (read : s.readRecord i (s.slot i).target = (s1, .missing)) : s.adoptTarget i = (s1.adoptionFailed i .planMissing, none) := by
  unfold State.adoptTarget
  dsimp only
  rw [if_pos (aims_condition adopts aims), read]

theorem adoptTarget_of_faulted (adopts : (s.slot i).adopts = true) (aims : s.aims i)
    (read : s.readRecord i (s.slot i).target = (s1, .faulted)) : s.adoptTarget i = (s1.adoptionFailed i .planFault, none) := by
  unfold State.adoptTarget
  dsimp only
  rw [if_pos (aims_condition adopts aims), read]

end

/-- R21: a failed adoption is reported once. -/
theorem adoptionFailed_leaves (s : State) (i : Fin 64) (k : Notice) :
    (s.adoptionFailed i k).slot i = { s.slot i with failReported := true } ∧ s.changesOnly (s.adoptionFailed i k) [.slots, .records] ∧
    s.onlyNotices (s.adoptionFailed i k) ∧ ((s.slot i).failReported = false → s.notified (s.adoptionFailed i k) k) := by
  unfold State.adoptionFailed
  split
  next before => 
    refine ⟨?_, changesOnly_refl, onlyNotices_refl s, fun fresh => absurd before (by simp [fresh])⟩
    rw [← before]
  · refine ⟨?_, changesOnly_raise _ (by simp) (changesOnly_setSlot _ _ (by simp) changesOnly_refl),
      onlyNotices_raise _ (onlyNotices_of_records rfl), fun _ => notified_raise (RecordUnit.grows_refl _) _ (RecordUnit.grows_refl _)⟩
    rw [raise_slot, State.setSlot_slot_same]

/-- R21, R76: no target, one held back, one without a record, or one marked FAULTED: the target is not adopted. -/
theorem adoptTarget_in_vain (vain : ¬s.aims i ∨ s.store.recordOf i (s.slot i).target = none ∨
      ∃ l, s.store.recordOf i (s.slot i).target = some l ∧ l.faulted = true) :
    (s.adoptTarget i).2 = none ∧ s.changesOnly (s.adoptTarget i).1 [.slots, .records] ∧ s.onlyNotices (s.adoptTarget i).1 ∧
    (∃ b, (s.adoptTarget i).1.slot i = { s.slot i with failReported := b } ∧ (¬s.aims i → b = (s.slot i).failReported) ∧
      ((s.slot i).adopts = true → s.aims i → b = true)) ∧
    ((s.slot i).adopts = true → s.aims i → (s.slot i).failReported = false →
      (s.store.recordOf i (s.slot i).target = none → s.notified (s.adoptTarget i).1 .planMissing) ∧
      ((∃ l, s.store.recordOf i (s.slot i).target = some l ∧ l.faulted = true) → s.notified (s.adoptTarget i).1 .planFault)) := by
  by_cases active : (s.slot i).adopts = true ∧ s.aims i
  · obtain ⟨adopts, aims⟩ := active
    rcases vain with idle | missing | ⟨l, found, marked⟩
    · exact absurd aims idle
    · obtain ⟨own, frame, quiet, told⟩ := adoptionFailed_leaves s i .planMissing
      rw [adoptTarget_of_missing adopts aims (readRecord_of_missing missing)]
      exact ⟨rfl, frame, quiet, ⟨true, own, fun idle => absurd aims idle, fun _ _ => rfl⟩, fun _ _ fresh => ⟨fun _ => told fresh,
        fun ⟨l, found, _⟩ => nomatch missing.symm.trans found⟩⟩
    · obtain ⟨own, frame, quiet, told⟩ := adoptionFailed_leaves s i .planFault
      rw [adoptTarget_of_faulted adopts aims (readRecord_of_marked found marked)]
      exact ⟨rfl, frame, quiet, ⟨true, own, fun idle => absurd aims idle, fun _ _ => rfl⟩, fun _ _ fresh => ⟨fun missing =>
        (nomatch missing.symm.trans found), fun _ => told fresh⟩⟩
  · rw [adoptTarget_of_rest active]
    exact ⟨rfl, changesOnly_refl, onlyNotices_refl s, ⟨(s.slot i).failReported, rfl, fun _ => rfl, fun adopts aims => absurd (And.intro adopts aims) active⟩,
      fun adopts aims => absurd (And.intro adopts aims) active⟩

/-- R21: a clean record of the target is adopted. -/
theorem adoptTarget_of_clean (adopts : (s.slot i).adopts = true) (aims : s.aims i) (wf : s.store.wf = true) (low : s.store.corrected ≤ 65535)
    (found : s.store.recordOf i (s.slot i).target = some l) (normal : l.faulted = false) (clean : l.clean) : s.adoptTarget i =
      (s.setSlot i { s.slot i with copy := some (imagePlan l.data), current := (s.slot i).target, firstCycle := true, failReported := false },
        some ⟨((s.slot i).targetCause.getD .default).cause, (s.slot i).current⟩) :=
  adoptTarget_of_sound adopts aims (readRecord_of_clean wf low found normal clean)

/-! ### The shadow (R22) -/

theorem shadowStep_of_rest (rests : (s.slot i).state = .overridden ∨ s.store.shadowOf i n = none) : s.shadowStep i n a = (s, a) := by
  refine if_neg fun ⟨other, held⟩ => ?_
  rcases rests with away | none
  · exact other away
  · rw [none] at held
    exact nomatch held

section
variable {s1 : State}

/-- R69: a shadow is promoted without adoption where a target has been adopted. -/
theorem shadowStep_of_adopted (other : (s.slot i).state ≠ .overridden) (shadow : s.store.shadowOf i n = some sh) :
    s.shadowStep i n (some c) = (s.setStore (s.store.promote i n), some c) := if_pos ⟨other, by rw [shadow]; rfl⟩

theorem shadowStep_of_sound (other : (s.slot i).state ≠ .overridden) (shadow : s.store.shadowOf i n = some sh)
    (read : (s.setStore (s.store.promote i n)).readRecord i n = (s1, .sound q)) : s.shadowStep i n none =
      (s1.setSlot i { s1.slot i with copy := some q, firstCycle := true }, some ⟨.shadow, n⟩) := by
  unfold State.shadowStep
  dsimp only
  rw [if_pos ⟨other, by rw [shadow]; rfl⟩, read]

theorem shadowStep_of_faulted (other : (s.slot i).state ≠ .overridden) (shadow : s.store.shadowOf i n = some sh)
    (read : (s.setStore (s.store.promote i n)).readRecord i n = (s1, .faulted)) : s.shadowStep i n none = (s1.raise .planFault, none) := by
  unfold State.shadowStep
  dsimp only
  rw [if_pos ⟨other, by rw [shadow]; rfl⟩, read]

end

/-- R22, R69: a clean shadow is promoted and adopted. -/
theorem shadowStep_of_clean (law : s.store.lawful) (low : s.store.corrected ≤ 65535) (other : (s.slot i).state ≠ .overridden)
    (record : s.store.recordOf i n = some r) (shadow : s.store.shadowOf i n = some sh) (normal : sh.faulted = false) (clean : sh.clean) :
    s.shadowStep i n none = ((s.setStore (s.store.promote i n)).setSlot i { s.slot i with copy := some (imagePlan sh.data), firstCycle := true },
      some ⟨.shadow, n⟩) := by
  obtain ⟨-, -, found, corrected⟩ := law.promoted record shadow
  exact shadowStep_of_sound other shadow (readRecord_of_clean (s := s.setStore (s.store.promote i n)) (l := sh.asRecord) (law.promote i n).1
    (corrected.trans_le low) found normal clean)

/-- R22, R69, R76: a shadow marked FAULTED or beyond repair is promoted, and its failed adoption reported. -/
theorem shadowStep_of_spoilt (law : s.store.lawful) (other : (s.slot i).state ≠ .overridden) (record : s.store.recordOf i n = some r)
    (shadow : s.store.shadowOf i n = some sh) (spoilt : sh.faulted = true ∨ ¬sh.sound) :
    (s.shadowStep i n none).2 = none ∧ (∀ j, (s.shadowStep i n none).1.slot j = s.slot j) ∧
    s.changesOnly (s.shadowStep i n none).1 [.store, .records] ∧ s.onlyNotices (s.shadowStep i n none).1 ∧
    s.notified (s.shadowStep i n none).1 .planFault ∧
    s.store.becomes (s.shadowStep i n none).1.store { sh with occupancy := .record, link := none, faulted := true } [r.num, sh.num] ∧
    ∀ m ∈ (s.shadowStep i n none).1.store.held, m.num ≠ r.num := by
  obtain ⟨becomes, gone, found, -⟩ := law.promoted record shadow
  by_cases marked : sh.faulted = true
  · have read := readRecord_of_marked (s := s.setStore (s.store.promote i n)) found marked
    have same : ({ sh with occupancy := .record, link := none, faulted := true } : Location) = sh.asRecord := by rw [← marked]; rfl
    rw [shadowStep_of_faulted other shadow read, same]
    exact ⟨rfl, fun _ => rfl, changesOnly_raise _ (by simp) (changesOnly_setStore _ (by simp) changesOnly_refl),
      onlyNotices_raise _ (onlyNotices_of_records rfl), notified_raise (RecordUnit.grows_refl _) _ (RecordUnit.grows_refl _), becomes, gone⟩
  · have normal : sh.faulted = false := by simpa using marked
    have bad : ¬sh.asRecord.sound := spoilt.resolve_left marked
    have read := readRecord_of_unsound (s := s.setStore (s.store.promote i n)) found normal bad
    rw [shadowStep_of_faulted other shadow read]
    refine ⟨rfl, fun _ => rfl, changesOnly_raise _ (by simp) (changesOnly_raise _ (by simp) (changesOnly_setStore _ (by simp)
      (changesOnly_setStore _ (by simp) changesOnly_refl))), onlyNotices_raise _ (onlyNotices_raise _ (onlyNotices_of_records rfl)),
      notified_raise (RecordUnit.grows_raise _ _) _ (RecordUnit.grows_refl _), ?_, fun m hm => ?_⟩
    · obtain ⟨own, rest, whole⟩ := becomes
      have members := fun m => PlanStore.mem_put (m := m) (l := { sh.asRecord with faulted := true }) (law.promote i n).1
      refine ⟨(members _).mpr (.inl rfl), fun m away => ((members m).trans ⟨fun held => ?_, fun held => .inr ⟨?_, (rest m away).mpr held⟩⟩), ?_⟩
      · rcases held with rfl | ⟨-, held⟩
        · exact absurd (by simp [Location.asRecord]) away
        · exact (rest m away).mp held
      · exact fun same => away (by simp [show m.num = sh.num from same])
      · show (s.store.promote i n).put _ = _
        rw [whole]
        rfl
    · rcases (PlanStore.mem_put (law.promote i n).1).mp hm with rfl | ⟨-, held⟩
      · exact gone sh.asRecord becomes.1
      · exact gone m held

end Sys2Proof.Machine
end

section
/-! PROOFS. Steps 1 to 5 of a boundary (O13). -/

namespace Sys2Proof.Machine

variable {s t u v w : State} {i : Fin 64} {p n : Nat} {q pl : Plan} {a : Option EvalCause} {c : EvalCause} {l r sh : Location} {st : SlotState}
  {pend : Option PendingEval}

/-! ### Steps 1 and 2 -/

/-- R144: the slot leaves OVERRIDDEN at this boundary. -/
def Slot.exits (x : Slot) : Prop := x.state = .overridden ∧ x.causes = 0#5 ∧ (x.mode = .perCycle ∨ x.latch = false)

/-- R20, R144: the state and the pending evaluation that the later steps find. -/
def Slot.foundAt (x : Slot) (st : SlotState) (pend : Option PendingEval) : Prop :=
  (x.exits → x.joined = true → st = .coordinated ∧ pend = some .recovery) ∧
  (x.exits → x.joined = false → st = .joining ∧ pend = x.pendingEval) ∧ (¬x.exits → st = x.state ∧ pend = x.pendingEval)

/-- R20, R34, R144: a slot after steps 1 and 2. -/
def Slot.begun (x : Slot) (p : Nat) (st : SlotState) (pend : Option PendingEval) : Slot :=
  { x.beginCycle p with state := st, pendingEval := pend }

/-- Steps 1 and 2 of a boundary. -/
def State.begun (s : State) (i : Fin 64) (p : Nat) : State := (s.setSlot i ((s.slot i).beginCycle p)).exitStep i

theorem boundarySteps_eq (s : State) (i : Fin 64) (p : Nat) : s.boundarySteps i p =
    ((s.begun i p).adoptionStep i).1.stepAndEvaluate i ((s.begun i p).adoptionStep i).2 := rfl

theorem begun_leaves (found : (s.slot i).foundAt st pend) : (s.begun i p).slot i = (s.slot i).begun p st pend ∧
    s.changesOnly (s.begun i p) [.slots, .records] ∧ s.onlyNotices (s.begun i p) ∧
    ((s.slot i).exits → s.notified (s.begun i p) .overrideExit) := by
  obtain ⟨joined, joins, stays⟩ := found
  have first : s.changesOnly (s.setSlot i ((s.slot i).beginCycle p)) [.slots, .records] := changesOnly_setSlot _ _ (by simp) changesOnly_refl
  have condition : (((s.slot i).beginCycle p).state = .overridden ∧ ((s.slot i).beginCycle p).mayExit = true) ↔ (s.slot i).exits := by
    simp [Slot.mayExit, Slot.beginCycle, Slot.exits]
  unfold State.begun State.exitStep
  dsimp only
  rw [State.setSlot_slot_same]
  by_cases exits : (s.slot i).exits
  · rw [if_pos (condition.mpr exits)]
    refine ⟨?_, changesOnly_raise _ (by simp) (changesOnly_setSlot _ _ (by simp) first), onlyNotices_raise _ (onlyNotices_of_records rfl),
      fun _ => notified_raise (RecordUnit.grows_refl _) _ (RecordUnit.grows_refl _)⟩
    rw [raise_slot, State.setSlot_slot_same]
    cases member : (s.slot i).joined
    · obtain ⟨rfl, rfl⟩ := joins exits member
      exact if_neg (by simp [Slot.beginCycle, member])
    · obtain ⟨rfl, rfl⟩ := joined exits member
      exact if_pos member
  · obtain ⟨rfl, rfl⟩ := stays exits
    rw [if_neg (exits ∘ condition.mp)]
    exact ⟨State.setSlot_slot_same _ _ _, first, onlyNotices_of_records rfl, fun now => absurd now exits⟩

theorem begun_store (s : State) (i : Fin 64) (p : Nat) : (s.begun i p).store = s.store := by
  unfold State.begun State.exitStep
  dsimp only
  split <;> rfl

/-- R88: the hold test reads no slot but for its group. -/
theorem holds_congr (group : (t.slot i).group = (s.slot i).group) (groups : t.groups = s.groups) (members : t.members = s.members) :
    t.holds? i = s.holds? i := by
  have member := member_congr members
  unfold State.holds? State.someOverridden State.membersOf State.group
  simp only [group, groups, member]

/-- R20: what steps 1 to 5 leave whatever the slot adopts. -/
theorem boundarySteps_always (s : State) (i : Fin 64) (p : Nat) : ((s.boundarySteps i p).slot i).count = ((s.slot i).count + 1) % 256 ∧
    ((s.boundarySteps i p).slot i).stepFlag = false ∧ s.otherSlotsStand (s.boundarySteps i p) i ∧
    (s.begun i p).records.grows (s.boundarySteps i p).records := by
  have moment := boundarySteps_moment s i p
  rw [Slot.moment, Slot.moment, Prod.mk.injEq] at moment
  refine ⟨moment.1, ?_, fun j ne => (slotClosed_other (x := s.slot j) ne).boundarySteps p rfl, ?_⟩
  · rw [boundarySteps_eq]
    exact (stepAndEvaluate_settings _ i _).2.2.2.2.2
  · rw [boundarySteps_eq]
    exact ((engineClosed_grows _).slots i).stepAndEvaluate _ (((engineClosed_grows _).slots i).adoptionStep (RecordUnit.grows_refl _))

/-! ### Step 3 -/

/-- R21: the slot adopts in these states. -/
def SlotState.adopts (st : SlotState) : Prop := st = .coordinated ∨ st = .transition ∨ st = .lost ∨ st = .joining

/-- R21: the target is not adopted. -/
def State.unadopted (s : State) (i : Fin 64) : Prop :=
  ¬s.aims i ∨ s.store.recordOf i (s.slot i).target = none ∨ ∃ l, s.store.recordOf i (s.slot i).target = some l ∧ l.faulted = true

/-- R76: the record and the shadow of the current plan, the shadow marked FAULTED or beyond repair. -/
def State.spoilt (s : State) (i : Fin 64) (r sh : Location) : Prop :=
  s.store.wf = true ∧ s.store.keyed ∧ s.store.recordOf i (s.slot i).current = some r ∧ s.store.shadowOf i (s.slot i).current = some sh ∧
    (sh.faulted = true ∨ ¬sh.sound)

/-- What step 3 leaves, and what it hands to step 5. -/
def State.adoption (s : State) (i : Fin 64) (p : Nat) : State × Option EvalCause := (s.begun i p).adoptionStep i

theorem adoption_eq (s : State) (i : Fin 64) (p : Nat) : s.adoption i p =
    ((s.begun i p).adoptTarget i).1.shadowStep i ((s.begun i p).slot i).current ((s.begun i p).adoptTarget i).2 := rfl

theorem begun_aims (found : (s.slot i).foundAt st pend) : (s.begun i p).aims i ↔ s.aims i := by
  obtain ⟨own, frame, -⟩ := begun_leaves (p := p) found
  have holds := holds_congr (s := s) (t := s.begun i p) (i := i) (by rw [own]; rfl) (frame.2.2 .groups (by decide)) (frame.2.2 .members (by decide))
  unfold State.aims
  rw [own, holds]
  rfl

theorem begun_adopts (found : (s.slot i).foundAt st pend) : ((s.begun i p).slot i).adopts = true ↔ st.adopts := by
  rw [(begun_leaves found).1, Slot.adopts, Slot.begun, SlotState.adopts]
  cases st <;> simp

/-- R21, R69: a clean record of the target is adopted, and a shadow of the plan that was current is promoted. -/
theorem adoption_of_target (found : (s.slot i).foundAt st pend) (runs : st.adopts) (aims : s.aims i) (wf : s.store.wf = true)
    (low : s.store.corrected ≤ 65535) (record : s.store.recordOf i (s.slot i).target = some l) (normal : l.faulted = false) (clean : l.clean) :
    (s.adoption i p).1.slot i = { (s.slot i).begun p st pend with
      copy := some (imagePlan l.data), current := (s.slot i).target, firstCycle := true, failReported := false } ∧
    (s.adoption i p).2 = some ⟨((s.slot i).targetCause.getD .default).cause, (s.slot i).current⟩ ∧
    (s.begun i p).changesOnly (s.adoption i p).1 [.slots, .store, .records] ∧ (s.begun i p).onlyNotices (s.adoption i p).1 ∧
    (s.store.shadowOf i (s.slot i).current = none → (s.adoption i p).1.store = s.store) ∧
    (∀ sh, s.store.shadowOf i (s.slot i).current = some sh → (s.adoption i p).1.store = s.store.promote i (s.slot i).current) := by
  obtain ⟨own, -⟩ := begun_leaves (p := p) found
  have store := begun_store s i p
  have adopted := adoptTarget_of_clean (s := s.begun i p) (i := i) (l := l) ((begun_adopts found).mpr runs) ((begun_aims found).mpr aims)
    (by rw [store, wf]) (by rw [store]; exact low) (by rw [store, own]; exact record) normal clean
  rw [adoption_eq, adopted]
  generalize hv : (s.begun i p).setSlot i { (s.begun i p).slot i with
    copy := some (imagePlan l.data), current := ((s.begun i p).slot i).target, firstCycle := true, failReported := false } = v
  have slot : v.slot i = { (s.slot i).begun p st pend with
      copy := some (imagePlan l.data), current := (s.slot i).target, firstCycle := true, failReported := false } := by
    rw [← hv, State.setSlot_slot_same, own]
    rfl
  have same : v.store = s.store := by rw [← hv]; exact store
  have away : (v.slot i).state ≠ .overridden := by
    rw [slot]
    rcases runs with h | h | h | h <;> exact fun now => nomatch h.symm.trans now
  have frame : (s.begun i p).changesOnly v [.slots, .store, .records] := by
    rw [← hv]
    exact changesOnly_setSlot _ _ (by simp) changesOnly_refl
  have quiet : (s.begun i p).onlyNotices v := by
    rw [← hv]
    exact onlyNotices_of_records rfl
  have before : ((s.begun i p).slot i).current = (s.slot i).current := by rw [own]; rfl
  have cause : (((s.begun i p).slot i).targetCause.getD .default).cause = ((s.slot i).targetCause.getD .default).cause := by rw [own]; rfl
  dsimp only
  rw [before, cause]
  cases shadow : s.store.shadowOf i (s.slot i).current with
  | none =>
    rw [shadowStep_of_rest (.inr (by rw [same, shadow]))]
    exact ⟨slot, rfl, frame, quiet, fun _ => same, fun sh held => nomatch held⟩
  | some sh =>
    rw [shadowStep_of_adopted away (by rw [same, shadow]), same]
    exact ⟨slot, rfl, changesOnly_setStore _ (by simp) frame, quiet, fun none => (nomatch none), fun _ _ => rfl⟩

/-- What an adoption in vain of the target leaves (R21). -/
theorem adoptTarget_of_unadopted (found : (s.slot i).foundAt st pend) (vain : s.unadopted i) : ∃ v b, (s.begun i p).adoptTarget i = (v, none) ∧
    v.slot i = { (s.slot i).begun p st pend with failReported := b } ∧ v.store = s.store ∧
    (s.begun i p).changesOnly v [.slots, .store, .records] ∧ (s.begun i p).onlyNotices v ∧
    (¬s.aims i → b = (s.slot i).failReported) ∧ (st.adopts → s.aims i → b = true) ∧
    (st.adopts → s.aims i → (s.slot i).failReported = false →
      (s.store.recordOf i (s.slot i).target = none → (s.begun i p).notified v .planMissing) ∧
      ((∃ l, s.store.recordOf i (s.slot i).target = some l ∧ l.faulted = true) → (s.begun i p).notified v .planFault)) := by
  obtain ⟨own, -⟩ := begun_leaves (p := p) found
  have store := begun_store s i p
  have target : ((s.begun i p).slot i).target = (s.slot i).target := by rw [own]; rfl
  have failed : ((s.begun i p).slot i).failReported = (s.slot i).failReported := by rw [own]; rfl
  have result := adoptTarget_in_vain (s := s.begun i p) (i := i) (by rw [begun_aims found, store, target]; exact vain)
  rw [store, target, failed, begun_aims found, begun_adopts found] at result
  obtain ⟨none, frame, quiet, ⟨b, slot, stands, reports⟩, told⟩ := result
  refine ⟨_, b, Prod.ext rfl none, by rw [slot, own], (frame.2.2 .store (by decide)).trans store, changesOnly_mono frame (by simp), quiet,
    stands, reports, told⟩

/-- R21, R22, R76: the current plan is kept. -/
theorem adoption_of_kept (found : (s.slot i).foundAt st pend) (vain : s.unadopted i)
    (shadowless : s.store.shadowOf i (s.slot i).current = none ∨ ∃ r sh, s.spoilt i r sh) :
    (∃ b, (s.adoption i p).1.slot i = { (s.slot i).begun p st pend with failReported := b } ∧
      (¬s.aims i → b = (s.slot i).failReported)) ∧
    (s.adoption i p).2 = none ∧
    (s.begun i p).changesOnly (s.adoption i p).1 [.slots, .store, .records] ∧ (s.begun i p).onlyNotices (s.adoption i p).1 ∧
    (s.store.shadowOf i (s.slot i).current = none → (s.adoption i p).1.store = s.store) ∧
    (st ≠ .overridden → ∀ r sh, s.spoilt i r sh → (s.begun i p).notified (s.adoption i p).1 .planFault ∧
      s.store.becomes (s.adoption i p).1.store { sh with occupancy := .record, link := none, faulted := true } [r.num, sh.num] ∧
      ∀ m ∈ (s.adoption i p).1.store.held, m.num ≠ r.num) := by
  obtain ⟨own, -⟩ := begun_leaves (p := p) found
  obtain ⟨v, b, target, slot, store, frame, quiet, stands, -⟩ := adoptTarget_of_unadopted (p := p) found vain
  have before : ((s.begun i p).slot i).current = (s.slot i).current := by rw [own]; rfl
  have state : (v.slot i).state = st := by rw [slot]; rfl
  rw [adoption_eq, target, before]
  dsimp only
  by_cases rests : (v.slot i).state = .overridden ∨ v.store.shadowOf i (s.slot i).current = none
  · rw [shadowStep_of_rest rests]
    refine ⟨⟨b, slot, stands⟩, rfl, frame, quiet, fun _ => store, fun other r sh spoilt => ?_⟩
    rw [state, store] at rests
    exact nomatch (rests.resolve_left other).symm.trans spoilt.2.2.2.1
  · obtain ⟨other, held⟩ := not_or.mp rests
    rw [store] at held
    obtain ⟨r, sh, spoilt⟩ := shadowless.resolve_left held
    obtain ⟨wf, keyed, record, shadow, bad⟩ := spoilt
    obtain ⟨none, slots, later, quiet', told, becomes, gone⟩ := shadowStep_of_spoilt (s := v) (n := (s.slot i).current)
      (by rw [store]; exact ⟨wf, keyed⟩) other (by rw [store]; exact record) (by rw [store]; exact shadow) bad
    rw [store] at becomes
    refine ⟨⟨b, (slots i).trans slot, stands⟩, none, changesOnly_trans frame (changesOnly_mono later (by simp)), onlyNotices_trans quiet quiet',
      fun no => absurd no held, fun _ r' sh' spoilt' => ?_⟩
    obtain rfl := Option.some.inj (record.symm.trans spoilt'.2.2.1)
    obtain rfl := Option.some.inj (shadow.symm.trans spoilt'.2.2.2.1)
    refine ⟨?_, becomes, gone⟩
    unfold State.notified at told ⊢
    rwa [show v.records.mask = (s.begun i p).records.mask by rw [quiet]] at told

/-- R22, R69: a clean shadow is adopted. -/
theorem adoption_of_shadow (found : (s.slot i).foundAt st pend) (runs : st.adopts) (vain : s.unadopted i) (wf : s.store.wf = true)
    (keyed : s.store.keyed) (low : s.store.corrected ≤ 65535) (record : s.store.recordOf i (s.slot i).current = some r)
    (shadow : s.store.shadowOf i (s.slot i).current = some sh) (normal : sh.faulted = false) (clean : sh.clean) :
    (∃ b, (s.adoption i p).1.slot i = { (s.slot i).begun p st pend with
      copy := some (imagePlan sh.data), firstCycle := true, failReported := b }) ∧
    (s.adoption i p).2 = some ⟨.shadow, (s.slot i).current⟩ ∧
    (s.begun i p).changesOnly (s.adoption i p).1 [.slots, .store, .records] ∧ (s.begun i p).onlyNotices (s.adoption i p).1 ∧
    (s.adoption i p).1.store = s.store.promote i (s.slot i).current := by
  obtain ⟨own, -⟩ := begun_leaves (p := p) found
  obtain ⟨v, b, target, slot, store, frame, quiet, -⟩ := adoptTarget_of_unadopted (p := p) found vain
  have before : ((s.begun i p).slot i).current = (s.slot i).current := by rw [own]; rfl
  have away : (v.slot i).state ≠ .overridden := by
    rw [slot]
    rcases runs with h | h | h | h <;> exact fun now => nomatch h.symm.trans now
  have adopted := shadowStep_of_clean (s := v) (n := (s.slot i).current) (by rw [store]; exact ⟨wf, keyed⟩) (by rw [store]; exact low) away
    (by rw [store]; exact record) (by rw [store]; exact shadow) normal clean
  rw [adoption_eq, target, before]
  dsimp only
  rw [adopted, store]
  refine ⟨⟨b, ?_⟩, rfl, changesOnly_setSlot _ _ (by simp) (changesOnly_setStore _ (by simp) frame), ?_, rfl⟩
  · rw [State.setSlot_slot_same, slot]
  · exact quiet

end Sys2Proof.Machine
end

section
/-! PROOFS. What a boundary evaluates (O13). -/

namespace Sys2Proof.Machine

variable {s t u v w : State} {i : Fin 64} {p n : Nat} {q pl : Plan} {a : Option EvalCause} {b : Bool} {c : EvalCause} {l r sh : Location}
  {st : SlotState} {pend : Option PendingEval} {cause : Cause} {tr : Option Transition}

/-! ### From step 3 to step 5 -/

theorem begun_reached (found : (s.slot i).foundAt st pend) (copy : (s.slot i).copy = some pl) (run : (s.slot i).run.isSome) :
    Reached s (s.begun i p) i p pl st pend (s.slot i).trans [] := by
  obtain ⟨own, frame, quiet, -⟩ := begun_leaves (p := p) found
  obtain ⟨r, runs⟩ := Option.isSome_iff_exists.mp run
  have here : ((s.slot i).begun p st pend).run = some { r with p := p } := by rw [Slot.begun, Slot.beginCycle, runs]; rfl
  exact ⟨by rw [own]; exact copy, by rw [own]; exact ⟨_, here, rfl⟩, by rw [own]; rfl, by rw [own]; rfl, by rw [own]; rfl, by rw [own]; rfl,
    by rw [own]; rfl, by rw [own]; rfl, frame.2.2 .time (by decide), frame.2.2 .groups (by decide), by rw [quiet],
    recorded_of_ring (onlyNotices_ring quiet)⟩

/-- Step 3 keeps what steps 1 and 2 have reached, with the plan copy that it leaves. -/
theorem Reached.adopt {f g : Bool} (h : Reached s w i p q st pend tr [])
    (slot : v.slot i = { w.slot i with copy := some pl, current := n, firstCycle := f, failReported := g })
    (frame : w.changesOnly v [.slots, .store, .records]) (quiet : w.onlyNotices v) : Reached s v i p pl st pend tr [] :=
  ⟨by rw [slot], by rw [slot]; exact h.run, by rw [slot]; exact h.state, by rw [slot]; exact h.pend, by rw [slot]; exact h.trans,
    by rw [slot]; exact h.targetMode, by rw [slot]; exact h.intersection, by rw [slot]; exact h.group,
    (frame.2.2 .time (by decide)).trans h.time, (frame.2.2 .groups (by decide)).trans h.groups,
    (show v.records.filter = w.records.filter by rw [quiet]).trans h.filter, recorded_congr h.recorded (onlyNotices_ring quiet)⟩

/-- Steps 4 and 5 after step 3. -/
theorem boundarySteps_evaluates (reached : Reached s v i p q st pend tr []) (first : (s.adoption i p).1 = v) (second : (s.adoption i p).2 = a)
    (stepped : (v.slot i).stepFlag = b) : ∃ w, s.boundarySteps i p = w.evaluationStep i a b ∧ Reached s w i p q st pend tr [] ∧
      (w.slot i).current = (v.slot i).current := by
  refine ⟨v.setSlot i { v.slot i with stepFlag := false }, ?_, reached.write reached.state reached.pend rfl rfl rfl rfl rfl rfl, ?_⟩
  · rw [boundarySteps_eq, ← first, ← second, ← stepped, ← first]
    rfl
  · rw [State.setSlot_slot_same]

/-- R21, R22: what a boundary leaves of a slot that has adopted a plan. -/
def State.adoptedAs (s u : State) (i : Fin 64) (p : Nat) (q : Plan) (st : SlotState) (cause : Cause) : Prop :=
  let x := s.slot i
  let y := u.slot i
  y.copy = some q ∧ y.firstCycle = true ∧
  (st = .coordinated → s.evaluated u i p q ⟨cause, x.current⟩ y.current []) ∧
  (st = .transition → ∀ t, x.trans = some t → s.evaluated u i p q ⟨cause, x.current⟩ y.current [s.endsAs i y.current t .superseded]) ∧
  (st = .joining → y.state = .joining ∧ (s.nearAt i p q → y.run = some (planRun q p)) ∧
    (¬s.nearAt i p q → y.run = some (correctedRun q p (s.errAt p q) .immediate))) ∧
  (st = .lost → y.state = .lost ∧ y.run = some (planRun q p))

theorem adoptedAs_of (reached : Reached s v i p q st pend (s.slot i).trans []) (first : (s.adoption i p).1 = v)
    (second : (s.adoption i p).2 = some ⟨cause, (s.slot i).current⟩) (fresh : (v.slot i).firstCycle = true) :
    s.adoptedAs (s.boundarySteps i p) i p q st cause := by
  obtain ⟨w, whole, h, same⟩ := boundarySteps_evaluates reached first second rfl
  have settings := stepAndEvaluate_settings v i (some ⟨cause, (s.slot i).current⟩)
  have steps : s.boundarySteps i p = v.stepAndEvaluate i (some ⟨cause, (s.slot i).current⟩) := by rw [boundarySteps_eq, ← first, ← second]; rfl
  obtain ⟨-, copy, current, cycle, -⟩ := settings
  rw [← steps] at copy current cycle
  have to_ : ((s.boundarySteps i p).slot i).current = (w.slot i).current := current.trans same.symm
  refine ⟨copy.trans reached.copy, cycle.trans fresh, ?_, ?_, ?_, ?_⟩
  · rintro rfl
    rw [to_, whole, evaluationStep_coordinated h.state]
    exact (h.evaluate (a := some ⟨cause, (s.slot i).current⟩) rfl).1
  · rintro rfl t open_
    rw [open_] at h
    rw [to_, whole]
    exact h.supersede
  · rintro rfl
    obtain ⟨state, -, -, inStep, outOfStep⟩ := h.join (a := some ⟨cause, (s.slot i).current⟩) (b := (v.slot i).stepFlag)
    rw [whole]
    exact ⟨state, fun near => inStep (.inl near), fun far => outOfStep far (.inl rfl)⟩
  · rintro rfl
    obtain ⟨state, -, next⟩ := h.lose (a := some ⟨cause, (s.slot i).current⟩) (b := (v.slot i).stepFlag)
    rw [whole]
    exact ⟨state, next⟩

/-! ### What stands whatever is adopted -/

theorem adoptTarget_state (s : State) (i : Fin 64) : ((s.adoptTarget i).1.slot i).state = (s.slot i).state := by
  have slot := readRecord_slot s i (s.slot i).target i
  have failed : ∀ (v : State) k, ((v.adoptionFailed i k).slot i).state = (v.slot i).state := fun v k => by rw [(adoptionFailed_leaves v i k).1]
  unfold State.adoptTarget
  dsimp only
  split
  · split <;> rename_i e <;> rw [e] at slot
    · rw [State.setSlot_slot_same]
    · rw [failed, slot]
    · rw [failed, slot]
  · rfl

theorem shadowStep_keeps (s : State) (i : Fin 64) (n : Nat) (a : Option EvalCause) :
    ((s.shadowStep i n a).1.slot i).state = (s.slot i).state ∧ ((s.shadowStep i n a).1.slot i).failReported = (s.slot i).failReported := by
  unfold State.shadowStep
  dsimp only
  split
  · split
    · exact ⟨rfl, rfl⟩
    · have slot := readRecord_slot (s.setStore (s.store.promote i n)) i n i
      split <;> rename_i e <;> rw [e] at slot
      · have state := congrArg Slot.state slot
        have failed := congrArg Slot.failReported slot
        rw [State.setSlot_slot_same]
        exact ⟨state, failed⟩
      · rw [raise_slot]
        exact ⟨congrArg Slot.state slot, congrArg Slot.failReported slot⟩
      · rw [raise_slot]
        exact ⟨congrArg Slot.state slot, congrArg Slot.failReported slot⟩
  · exact ⟨rfl, rfl⟩

theorem adoption_state (found : (s.slot i).foundAt st pend) : ((s.adoption i p).1.slot i).state = st := by
  rw [adoption_eq, (shadowStep_keeps _ i _ _).1, adoptTarget_state, (begun_leaves found).1]
  rfl

/-- R26: a LOST slot stays so, without a pending evaluation. -/
theorem boundarySteps_lost (found : (s.slot i).foundAt .lost pend) :
    ((s.boundarySteps i p).slot i).state = .lost ∧ ((s.boundarySteps i p).slot i).pendingEval = none := by
  have state := adoption_state (p := p) found
  have steps : s.boundarySteps i p = (s.adoption i p).1.stepAndEvaluate i (s.adoption i p).2 := rfl
  rw [steps]
  generalize s.adoption i p = a at state ⊢
  rw [State.stepAndEvaluate, evaluationStep_lost (by rw [State.setSlot_slot_same]; exact state)]
  obtain ⟨next, -, slot⟩ := planCycle_slot ((a.1.setSlot i { a.1.slot i with stepFlag := false }).setSlot i
    { (a.1.setSlot i { a.1.slot i with stepFlag := false }).slot i with pendingEval := none }) i
  rw [slot, State.setSlot_slot_same, State.setSlot_slot_same]
  exact ⟨state, rfl⟩

/-- R34: an OVERRIDDEN slot adopts nothing, and its shadow waits. -/
theorem adoption_overridden (found : (s.slot i).foundAt .overridden pend) : s.adoption i p = (s.begun i p, none) := by
  have state : ((s.begun i p).slot i).state = .overridden := by rw [(begun_leaves found).1]; rfl
  have rests : ¬(((s.begun i p).slot i).adopts = true ∧ (s.begun i p).aims i) := fun both => by simp [Slot.adopts, state] at both
  rw [adoption_eq, adoptTarget_of_rest rests, shadowStep_of_rest (.inl state)]

/-! ### With the current plan kept -/

/-- R22 to R26: what a boundary evaluates of a slot that has adopted no plan. -/
theorem kept_of {f : Bool} (found : (s.slot i).foundAt st pend) (copy : (s.slot i).copy = some pl) (run : (s.slot i).run.isSome)
    (slot : (s.adoption i p).1.slot i = { (s.slot i).begun p st pend with failReported := f }) (none : (s.adoption i p).2 = none)
    (frame : (s.begun i p).changesOnly (s.adoption i p).1 [.slots, .store, .records])
    (quiet : (s.begun i p).onlyNotices (s.adoption i p).1) :
    ((s.boundarySteps i p).slot i).current = (s.slot i).current ∧ ((s.boundarySteps i p).slot i).copy = (s.slot i).copy ∧
    ((s.boundarySteps i p).slot i).failReported = f ∧
    ∃ w, s.boundarySteps i p = w.evaluationStep i .none (s.slot i).stepFlag ∧ Reached s w i p pl st pend (s.slot i).trans [] ∧
      (w.slot i).current = (s.slot i).current := by
  have own := (begun_leaves (p := p) found).1
  have shape : (s.adoption i p).1.slot i = { (s.begun i p).slot i with
      copy := some pl, current := (s.slot i).current, firstCycle := false, failReported := f } := by
    rw [slot, own, ← copy]
    rfl
  have reached := (begun_reached found copy run).adopt shape frame quiet
  obtain ⟨w, whole, h, same⟩ := boundarySteps_evaluates reached rfl none (b := (s.slot i).stepFlag) (by rw [slot]; rfl)
  have steps : s.boundarySteps i p = (s.adoption i p).1.stepAndEvaluate i (s.adoption i p).2 := rfl
  obtain ⟨-, copied, current, -, failed, -⟩ := stepAndEvaluate_settings (s.adoption i p).1 i (s.adoption i p).2
  rw [← steps] at copied current failed
  rw [slot] at copied current failed same
  exact ⟨current, copied, failed, w, whole, h, same⟩

end Sys2Proof.Machine
end

section
/-! PROOFS. A boundary's steps 1 to 5 as the obligation says them (O13). -/

namespace Sys2Proof.Machine

section
variable {s : State} {i : Fin 64} {p : Nat} {pl : Plan} {l r sh : Location} {st : SlotState} {pend : Option PendingEval}

/-- What step 3 leaves for good. -/
theorem boundarySteps_settings (s : State) (i : Fin 64) (p : Nat) : (s.boundarySteps i p).store = (s.adoption i p).1.store ∧
    ((s.boundarySteps i p).slot i).current = ((s.adoption i p).1.slot i).current ∧
    ((s.boundarySteps i p).slot i).failReported = ((s.adoption i p).1.slot i).failReported := by
  have steps : s.boundarySteps i p = (s.adoption i p).1.stepAndEvaluate i (s.adoption i p).2 := rfl
  obtain ⟨store, -, current, -, failed, -⟩ := stepAndEvaluate_settings (s.adoption i p).1 i (s.adoption i p).2
  rw [steps]
  exact ⟨store, current, failed⟩

/-- R69: the shadow has become its key's record. -/
def State.promotes (s u : State) (r sh : Location) : Prop :=
  s.store.becomes u.store { sh with occupancy := .record, link := none } [r.num, sh.num] ∧ ∀ m ∈ u.store.held, m.num ≠ r.num

theorem promotes_of (law : s.store.lawful) (record : s.store.recordOf i (s.slot i).current = some r)
    (shadow : s.store.shadowOf i (s.slot i).current = some sh)
    (promoted : (s.adoption i p).1.store = s.store.promote i (s.slot i).current) : s.promotes (s.boundarySteps i p) r sh := by
  obtain ⟨becomes, gone, -⟩ := law.promoted record shadow
  unfold State.promotes
  rw [(boundarySteps_settings s i p).1, promoted]
  exact ⟨becomes, gone⟩

/-- R21, R69: a boundary at which a clean record of the target is adopted. -/
theorem boundary_adopts_target (found : (s.slot i).foundAt st pend) (copy : (s.slot i).copy = some pl) (run : (s.slot i).run.isSome)
    (runs : st.adopts) (aims : s.aims i) (wf : s.store.wf = true) (low : s.store.corrected ≤ 65535)
    (record : s.store.recordOf i (s.slot i).target = some l) (normal : l.faulted = false) (clean : l.clean) :
    ((s.boundarySteps i p).slot i).current = (s.slot i).target ∧ ((s.boundarySteps i p).slot i).failReported = false ∧
    (∀ c, (s.slot i).targetCause = some c → s.adoptedAs (s.boundarySteps i p) i p (imagePlan l.data) st c.cause) ∧
    (s.store.shadowOf i (s.slot i).current = none → (s.boundarySteps i p).store = s.store) ∧
    (s.store.keyed → ∀ r sh, s.store.recordOf i (s.slot i).current = some r → s.store.shadowOf i (s.slot i).current = some sh →
      s.promotes (s.boundarySteps i p) r sh) := by
  have own := (begun_leaves (p := p) found).1
  obtain ⟨slot, second, frame, quiet, same, promotes⟩ := adoption_of_target (p := p) found runs aims wf low record normal clean
  have reached := (begun_reached (p := p) found copy run).adopt (v := (s.adoption i p).1) (by rw [slot, own]) frame quiet
  obtain ⟨store, current, failed⟩ := boundarySteps_settings s i p
  rw [slot] at current failed
  refine ⟨current, failed, fun c hc => ?_, fun none => store.trans (same none), fun keyed r sh old shadow =>
    promotes_of ⟨wf, keyed⟩ old shadow (promotes sh shadow)⟩
  exact adoptedAs_of reached rfl (second.trans (by rw [hc]; rfl)) (by rw [slot])

/-- R22, R69: a boundary at which a clean shadow is adopted. -/
theorem boundary_adopts_shadow (found : (s.slot i).foundAt st pend) (copy : (s.slot i).copy = some pl) (run : (s.slot i).run.isSome)
    (runs : st.adopts) (vain : s.unadopted i) (wf : s.store.wf = true) (keyed : s.store.keyed) (low : s.store.corrected ≤ 65535)
    (record : s.store.recordOf i (s.slot i).current = some r) (shadow : s.store.shadowOf i (s.slot i).current = some sh)
    (normal : sh.faulted = false) (clean : sh.clean) : ((s.boundarySteps i p).slot i).current = (s.slot i).current ∧
    s.adoptedAs (s.boundarySteps i p) i p (imagePlan sh.data) st .shadow ∧ s.promotes (s.boundarySteps i p) r sh := by
  have own := (begun_leaves (p := p) found).1
  obtain ⟨⟨b, slot⟩, second, frame, quiet, promotes⟩ := adoption_of_shadow (p := p) found runs vain wf keyed low record shadow normal clean
  have reached := (begun_reached (p := p) found copy run).adopt (v := (s.adoption i p).1) (n := (s.slot i).current) (by rw [slot, own]; rfl)
    frame quiet
  have current := (boundarySteps_settings s i p).2.1
  rw [slot] at current
  exact ⟨current, adoptedAs_of reached rfl second (by rw [slot]), promotes_of ⟨wf, keyed⟩ record shadow promotes⟩

theorem notified_of_quiet {w t : State} {k : Notice} (quiet : s.onlyNotices w) (told : w.notified t k) : s.notified t k := by
  unfold State.notified at told ⊢
  rwa [show w.records.mask = s.records.mask by rw [quiet]] at told

theorem adoption_grows (s : State) (i : Fin 64) (p : Nat) : (s.adoption i p).1.records.grows (s.boundarySteps i p).records :=
  ((engineClosed_grows _).slots i).stepAndEvaluate _ (RecordUnit.grows_refl _)

/-- R21, R76: a target without a record, or one marked FAULTED, is reported. -/
theorem boundary_reports (found : (s.slot i).foundAt st pend) (runs : st.adopts) (aims : s.aims i)
    (vain : s.store.recordOf i (s.slot i).target = none ∨ ∃ l, s.store.recordOf i (s.slot i).target = some l ∧ l.faulted = true) :
    ((s.boundarySteps i p).slot i).failReported = true ∧ ((s.slot i).failReported = false →
      (s.store.recordOf i (s.slot i).target = none → s.notified (s.boundarySteps i p) .planMissing) ∧
      ((∃ l, s.store.recordOf i (s.slot i).target = some l ∧ l.faulted = true) → s.notified (s.boundarySteps i p) .planFault)) := by
  obtain ⟨-, -, quiet, -⟩ := begun_leaves (p := p) found
  obtain ⟨v, b, target, slot, -, -, -, -, reports, told⟩ := adoptTarget_of_unadopted (p := p) found (.inr vain)
  have whole : s.adoption i p = v.shadowStep i ((s.begun i p).slot i).current none := by rw [adoption_eq, target]
  have grown : v.records.grows (s.boundarySteps i p).records := by
    refine RecordUnit.grows_trans ?_ (adoption_grows s i p)
    rw [whole]
    exact ((engineClosed_grows _).slots i).shadowStep _ _ (RecordUnit.grows_refl _)
  have failed : ((s.boundarySteps i p).slot i).failReported = true := by
    rw [(boundarySteps_settings s i p).2.2, whole, (shadowStep_keeps v i _ _).2, slot]
    exact reports runs aims
  exact ⟨failed, fun fresh => ⟨fun missing => notified_of_quiet quiet (notified_of_grows ((told runs aims fresh).1 missing) grown),
    fun faulted => notified_of_quiet quiet (notified_of_grows ((told runs aims fresh).2 faulted) grown)⟩⟩

/-- R76: a shadow marked FAULTED or beyond repair is reported and promoted. -/
theorem boundary_spoilt (found : (s.slot i).foundAt st pend) (runs : st.adopts) (vain : s.unadopted i) (spoilt : s.spoilt i r sh) :
    s.notified (s.boundarySteps i p) .planFault ∧
    (¬s.aims i → ((s.boundarySteps i p).slot i).failReported = (s.slot i).failReported) ∧
    s.store.becomes (s.boundarySteps i p).store { sh with occupancy := .record, link := none, faulted := true } [r.num, sh.num] ∧
    ∀ m ∈ (s.boundarySteps i p).store.held, m.num ≠ r.num := by
  obtain ⟨-, -, quiet, -⟩ := begun_leaves (p := p) found
  obtain ⟨⟨b, slot, stands⟩, -, -, -, -, told⟩ := adoption_of_kept (p := p) found vain (.inr ⟨r, sh, spoilt⟩)
  have away : st ≠ .overridden := by rcases runs with rfl | rfl | rfl | rfl <;> exact nofun
  obtain ⟨raised, becomes, gone⟩ := told away r sh spoilt
  obtain ⟨store, -, failed⟩ := boundarySteps_settings s i p
  rw [← store] at becomes gone
  exact ⟨notified_of_quiet quiet (notified_of_grows raised (adoption_grows s i p)), fun idle => by rw [failed, slot]; exact stands idle, becomes, gone⟩

/-- R22 to R26: a boundary at which the current plan is kept. -/
theorem boundary_keeps (found : (s.slot i).foundAt st pend) (copy : (s.slot i).copy = some pl) (run : (s.slot i).run.isSome)
    (vain : s.unadopted i) (shadowless : s.store.shadowOf i (s.slot i).current = none ∨ ∃ r sh, s.spoilt i r sh) :
    ((s.boundarySteps i p).slot i).current = (s.slot i).current ∧ ((s.boundarySteps i p).slot i).copy = (s.slot i).copy ∧
    (s.store.shadowOf i (s.slot i).current = none → (s.boundarySteps i p).store = s.store) ∧
    ∃ w, s.boundarySteps i p = w.evaluationStep i .none (s.slot i).stepFlag ∧ Reached s w i p pl st pend (s.slot i).trans [] ∧
      (w.slot i).current = (s.slot i).current := by
  obtain ⟨⟨b, slot, -⟩, second, frame, quiet, same, -⟩ := adoption_of_kept (p := p) found vain shadowless
  obtain ⟨current, copied, -, reached⟩ := kept_of found copy run slot second frame quiet
  exact ⟨current, copied, fun none => (boundarySteps_settings s i p).1.trans (same none), reached⟩

/-! ### By the state in which step 5 evaluates -/

variable {w : State} {b : Bool} {t : Transition}

theorem evalCause_pending {x : Slot} {e : PendingEval} (pending : x.pendingEval = some e) :
    x.evalCause none b = some ⟨e.cause, x.current⟩ := by
  unfold Slot.evalCause
  rw [pending]

theorem evalCause_flag {x : Slot} (pending : x.pendingEval = none) :
    x.evalCause none b = if b then some ⟨.step, x.current⟩ else none := by
  unfold Slot.evalCause
  rw [pending]

/-- R24: step 5 in COORDINATED, with the current plan kept. -/
theorem Reached.coordinate (h : Reached s w i p pl .coordinated pend (s.slot i).trans []) (current : (w.slot i).current = (s.slot i).current) :
    ((w.evaluationStep i none b).slot i).pendingEval = none ∧
    (pend = none → b = false → ((w.evaluationStep i none b).slot i).state = .coordinated ∧
      ((w.evaluationStep i none b).slot i).run = some (planRun pl p) ∧ s.recorded (w.evaluationStep i none b) i []) ∧
    ∀ cause, (∃ e, pend = some e ∧ cause = e.cause) ∨ (pend = none ∧ b = true ∧ cause = .step) →
      s.evaluated (w.evaluationStep i none b) i p pl ⟨cause, (s.slot i).current⟩ (s.slot i).current [] := by
  rw [evaluationStep_coordinated h.state]
  refine ⟨?_, fun idle calm => ?_, fun cause caused => ?_⟩
  · cases found : (w.slot i).evalCause none b with
    | none => exact (h.rest found).2.2.1
    | some c => exact (h.evaluate found).2
  · obtain ⟨next, state, -, written⟩ := h.rest (a := none) (b := b) (by rw [evalCause_flag (h.pend.trans idle), calm]; rfl)
    exact ⟨state, next, written⟩
  · rcases caused with ⟨e, pending, rfl⟩ | ⟨idle, flagged, rfl⟩
    · have evaluated := (h.evaluate (b := b) (evalCause_pending (h.pend.trans pending))).1
      rwa [current] at evaluated
    · have evaluated := (h.evaluate (b := b) (c := ⟨.step, (w.slot i).current⟩) (by rw [evalCause_flag (h.pend.trans idle), flagged]; rfl)).1
      rwa [current] at evaluated

/-- R43: the direction in force at a boundary of an open transition. -/
theorem Transition.nextDirection_eq {d : Direction} {e : Nat} {mode : Option Mode}
    (chooses : b = true ∨ (t.forced = true ∧ t.dir ≠ .immediate) → d = chooseDirection pl e t.forced mode)
    (stays : b = false → (t.forced = false ∨ t.dir = .immediate) → d = t.dir) : d = t.nextDirection pl e mode b := by
  unfold Transition.nextDirection
  split
  next changed => exact chooses changed
  next same =>
    obtain ⟨calm, unforced⟩ := not_or.mp same
    refine stays (by simpa using calm) ?_
    by_cases forced : t.forced = true
    · exact .inr (by simpa [forced] using unforced)
    · exact .inl (by simpa using forced)

end

end Sys2Proof.Machine
end

section
/-! PROOFS. Steps 1 to 5 of a boundary: the obligation (O13). -/

namespace Sys2Proof.Machine

/-- Settles O13: by what step 3 adopts, and by the state in which step 5 evaluates. -/
theorem boundariesEvaluate : Obligations.BoundariesEvaluate := by
  unfold Obligations.BoundariesEvaluate
  dsimp only
  intro s i p pl st pend copy run joined joins stays
  have found : (s.slot i).foundAt st pend := ⟨joined, joins, stays⟩
  obtain ⟨own, frame, quiet, exit⟩ := begun_leaves (p := p) found
  obtain ⟨count, stepFlag, others, grown⟩ := boundarySteps_always s i p
  have keeps := fun h : s.unadopted i ∧ (s.store.shadowOf i (s.slot i).current = none ∨ ∃ r sh, s.spoilt i r sh) => boundary_keeps (p := p) found copy run h.1 h.2
  refine ⟨count, stepFlag, others, fun leaves => notified_of_grows (exit leaves) grown,
    fun wf low runs aims l record normal clean => ?_, fun wf keyed low runs vain r sh record shadow normal clean => ?_,
    fun runs aims vain => boundary_reports found runs aims vain, fun runs vain r sh bad => boundary_spoilt found runs vain bad,
    fun h => ?_, fun state h => ?_, fun state h t open_ => ?_, fun state h => ?_, fun state => ?_, fun state => ?_⟩
  · obtain ⟨current, failed, adopts, same, promotes⟩ := boundary_adopts_target (p := p) found copy run runs aims wf low record normal clean
    exact ⟨current, failed, fun c hc => adopts c hc, same, promotes⟩
  · obtain ⟨current, adopts, promotes⟩ := boundary_adopts_shadow (p := p) found copy run runs vain wf keyed low record shadow normal clean
    exact ⟨current, adopts, promotes⟩
  · obtain ⟨current, copied, store, -⟩ := keeps h
    exact ⟨current, copied, store⟩
  · subst state
    obtain ⟨current, -, -, w, whole, reached, same⟩ := keeps h
    obtain ⟨pending, calm, caused⟩ := reached.coordinate (b := (s.slot i).stepFlag) same
    rw [← whole] at pending calm caused
    refine ⟨pending, calm, fun cause by_ => ?_⟩
    rw [current]
    exact caused cause by_
  · subst state
    obtain ⟨-, -, -, w, whole, reached, same⟩ := keeps h
    rw [open_] at reached
    obtain ⟨inStep, outOfStep⟩ := reached.transit (b := (s.slot i).stepFlag)
    rw [← whole] at inStep outOfStep
    rw [same] at inStep
    exact ⟨inStep, fun far d chooses keeps => outOfStep far d (Transition.nextDirection_eq chooses keeps)⟩
  · subst state
    obtain ⟨-, -, -, w, whole, reached, same⟩ := keeps h
    obtain ⟨joining, trans, written, plainly, correctly⟩ := reached.join (a := none) (b := (s.slot i).stepFlag)
    rw [← whole] at joining trans written plainly correctly
    exact ⟨joining, trans, written, fun calm => plainly (calm.imp_right fun no => ⟨rfl, no⟩), fun far flagged => correctly far (.inr flagged)⟩
  · subst state
    obtain ⟨lost, pending⟩ := boundarySteps_lost (p := p) found
    refine ⟨lost, pending, fun h => ?_⟩
    obtain ⟨-, -, -, w, whole, reached, same⟩ := keeps h
    have next := (reached.lose (a := none) (b := (s.slot i).stepFlag)).2.2
    rwa [← whole] at next
  · subst state
    have overridden := adoption_overridden (p := p) found
    obtain ⟨w, whole, reached, -⟩ := boundarySteps_evaluates (begun_reached (p := p) found copy run) (by rw [overridden]) (by rw [overridden]) rfl
    obtain ⟨store, current, -⟩ := boundarySteps_settings s i p
    rw [overridden] at store current
    rw [own] at current
    obtain ⟨state, next⟩ := reached.override (a := none) (b := ((s.begun i p).slot i).stepFlag)
    rw [← whole] at state next
    exact ⟨state, next, current, store.trans (begun_store s i p)⟩

end Sys2Proof.Machine
end

section
/-! PROOFS. A request's owner looks at neither the trunk interface nor the engine: what it does, and the reply fields that it
gives, are the same whatever stands there (R158, section 9.6). -/

namespace Sys2Proof.Machine

/-- The state with another trunk interface and management engine. -/
def State.setManager (s : State) (x : Trunk × Management) : State := (s.setTrunk x.1).setMgmt x.2

section
variable (s : State) (x : Trunk × Management)

theorem State.setManager_tables : (s.setManager x).tables = s.tables := rfl
theorem State.setManager_store : (s.setManager x).store = s.store := rfl
theorem State.setManager_records : (s.setManager x).records = s.records := rfl
theorem State.setManager_slot (i : Fin 64) : (s.setManager x).slot i = s.slot i := rfl
theorem State.setManager_port (p : Fin 4) : (s.setManager x).port p = s.port p := rfl
theorem State.setManager_hold (l : Fin 4) : (s.setManager x).hold l = s.hold l := rfl

end

/-- The same answer, given where the trunk interface and the engine are `x`. -/
def Answer.setManager (a : Answer) (x : Trunk × Management) : Answer := { a with state := a.state.setManager x }

/-- `v` is `u` but for the trunk interface and the engine, which are `x` there. -/
def State.managerReplaced (x : Trunk × Management) (u v : State) : Prop := v = u.setManager x

theorem blind_managerReplaced (x : Trunk × Management) : Blind (State.managerReplaced x) where
  slots := by rintro _ _ rfl; rfl
  groups := by rintro _ _ rfl; rfl
  members := by rintro _ _ rfl; rfl
  tables := by rintro _ _ rfl; rfl
  store := by rintro _ _ rfl; rfl
  ports := by rintro _ _ rfl; rfl
  day := by rintro _ _ rfl; rfl
  nt := by rintro _ _ rfl; rfl
  set := by rintro _ _ rfl; rfl
  setSlot := by rintro _ _ _ _ rfl; rfl
  setGroup := by rintro _ _ _ _ rfl; rfl
  setMember := by rintro _ _ _ _ rfl; rfl
  setPort := by rintro _ _ _ _ rfl; rfl
  setStore := by rintro _ _ _ rfl; rfl
  setTables := by rintro _ _ _ rfl; rfl
  raise := by rintro _ _ _ rfl; rfl
  takeRecord := by rintro _ _ _ rfl; rfl

/-- A choice that both sides make alike. -/
theorem ite_commutes {α β : Type} (g : α → β) {p : Prop} [Decidable p] {a b : α} {c d : β} (yes : p → c = g a)
    (no : ¬p → d = g b) :
    (if p then c else d) = g (if p then a else b) := by
  split
  · next h => exact yes h
  · next h => exact no h

theorem ite_setManager {p : Prop} [Decidable p] {a b c d : Answer} {x : Trunk × Management} (yes : p → c = a.setManager x)
    (no : ¬p → d = b.setManager x) :
    (if p then c else d) = (if p then a else b).setManager x :=
  ite_commutes (Answer.setManager · x) yes no

/-- What an owner does, and answers, does not depend on the trunk interface and the engine. -/
def BlindToManager (o : State → Answer) : Prop := ∀ (s : State) (x : Trunk × Management), o (s.setManager x) = (o s).setManager x

section
variable (s : State) (x : Trunk × Management)

/-! ### The shared operations -/

theorem takeMember_setManager (e : MemberEvent) : (s.setManager x).takeMember e = (s.takeMember e).setManager x :=
  (blind_managerReplaced x).takeMember e rfl

theorem settle_setManager (g : Fin 16) (change : Bool) : (s.setManager x).settle g change = (s.settle g change).setManager x :=
  (blind_managerReplaced x).settle g change rfl

theorem evaluateNow_setManager (gs : List (Fin 16)) : (s.setManager x).evaluateNow gs = (s.evaluateNow gs).setManager x :=
  (blind_managerReplaced x).evaluateNow gs rfl

theorem endTransition_setManager (i : Fin 64) (o : RecordOutcome) :
    (s.setManager x).endTransition i o = (s.endTransition i o).setManager x :=
  (blind_managerReplaced x).endTransition i o rfl

theorem membersOf_setManager (g : Fin 16) : (s.setManager x).membersOf g = s.membersOf g :=
  (blind_managerReplaced x).membersOf rfl g

theorem readLocation_setManager (l : Location) :
    (s.setManager x).readLocation l = ((s.readLocation l).1.setManager x, (s.readLocation l).2) := by
  obtain ⟨state, image⟩ := (blind_managerReplaced x).readLocation l (u := s) rfl
  exact Prod.ext state image.symm

/-- Operations that send member events are delivered alike. -/
theorem deliver_related {a c : Sent} (state : c.1 = a.1.setManager x) (sent : a.2 = c.2) : c.deliver = a.deliver.setManager x := by
  unfold Sent.deliver
  rw [← sent]
  exact (blind_managerReplaced x).takeMembers a.2 state

theorem stepEvent_setManager : (s.setManager x).stepEvent = s.stepEvent.setManager x := by
  have flags : (s.setManager x).setStepFlags s.runningSlots = (s.setStepFlags s.runningSlots).setManager x :=
    List.foldl_hom (fun t : State => t.setManager x) fun _ _ => rfl
  exact (blind_managerReplaced x).timetableStep flags

theorem mirrorFilter_setManager (filter : SlotSet) : (s.setManager x).mirrorFilter filter = (s.mirrorFilter filter).setManager x :=
  List.foldl_hom (fun t : State => t.setManager x) fun _ _ => ite_commutes (State.setManager · x) (fun _ => rfl) fun _ => rfl

/-- R138: a cause joins a slot whatever the trunk interface and the engine are. -/
theorem joinCause_related (i : Fin 64) (c : OverrideCause) : ((s.setManager x).joinCause i c).1 = ((s.joinCause i c).1).setManager x ∧
    (s.joinCause i c).2 = ((s.setManager x).joinCause i c).2 := by
  unfold State.joinCause
  dsimp only [State.setManager_slot]
  split
  · exact ⟨rfl, rfl⟩
  · split
    · exact ⟨rfl, rfl⟩
    · exact (blind_managerReplaced x).enterOverridden i rfl

theorem holdDifference_related (l : Fin 4) (old new : SlotSet) (i : Fin 64) :
    ((s.setManager x).holdDifference l old new i).1 = ((s.holdDifference l old new i).1).setManager x ∧
    (s.holdDifference l old new i).2 = ((s.setManager x).holdDifference l old new i).2 := by
  unfold State.holdDifference
  split
  · exact joinCause_related s x i _
  · split <;> exact ⟨rfl, rfl⟩

theorem setHoldMap_setManager (l : Fin 4) (map : SlotSet) : (s.setManager x).setHoldMap l map = (s.setHoldMap l map).setManager x := by
  unfold State.setHoldMap
  dsimp only [State.setManager_hold]
  split
  · rfl
  · obtain ⟨state, sent⟩ := overSlots_related (R := State.managerReplaced x) (f := State.holdDifference l (s.hold l).map map)
      (fun {u v} i h => by cases h; exact holdDifference_related u x l _ _ i) (List.finRange 64)
      (u := s.setHold l { s.hold l with map := map }) rfl
    exact deliver_related x state sent

theorem setDayNumber_setManager (day : Nat) : (s.setManager x).setDayNumber day = (s.setDayNumber day).setManager x :=
  ite_commutes (State.setManager · x)
    (fun _ => stepEvent_setManager ((s.setTime { s.time with day := day }).raise .timeStep) x) fun _ => rfl

end

/-! ### The owners -/

theorem refuse_blind (o : RequestOutcome) : BlindToManager (refuse o) := fun _ _ => rfl

theorem changed_setManager (s : State) (x : Trunk × Management) (t : Timetable) (gs : List (Fin 16)) (fields : List Byte) :
    changed (s.setManager x) t gs fields = (changed s t gs fields).setManager x :=
  congrArg (fun v => (⟨v, .done, fields⟩ : Answer)) (evaluateNow_setManager (s.setTables t) x gs)

theorem setDay_blind (day : Half) : BlindToManager fun s => { state := s.setDayNumber day.toNat, outcome := .done } :=
  fun s x => congrArg (fun v => (⟨v, .done, []⟩ : Answer)) (setDayNumber_setManager s x day.toNat)

theorem setPortRequest_blind (port : Byte) (window : Half) (clear : Byte) : BlindToManager (setPortRequest port window clear) := by
  intro s x
  unfold setPortRequest
  split
  · rfl
  · exact ite_setManager (fun _ => rfl) fun _ => by dsimp only [State.setManager_port]; rfl

theorem readPort_blind (port : Byte) : BlindToManager (readPort port) := by
  intro s x
  unfold readPort
  split <;> rfl

theorem define_setManager (s : State) (x : Trunk × Management) (d : SlotIdentity) : (s.setManager x).define d = (s.define d).setManager x := by
  have taken := takeMember_setManager (s.setSlot d.slot (s.newSlot d)) x ⟨d.slot, .joining, 0, some d.group⟩
  obtain ⟨state, sent⟩ := (blind_managerReplaced x).positionAttempt d.slot taken
  exact deliver_related x state sent

theorem defineSlot_blind (slot : Byte) (intersection : Half) (port drop group divider mode : Byte) :
    BlindToManager (defineSlot slot intersection port drop group divider mode) := by
  intro s x
  unfold defineSlot
  split
  · rfl
  · exact ite_setManager (fun _ => rfl) fun _ => ite_setManager (fun _ => rfl) fun _ =>
      congrArg (fun v => (⟨v, .done, []⟩ : Answer)) (define_setManager s x _)

/-- A request at a defined slot is blind where what it does there is. -/
theorem onDefinedSlot_blind (slot : Byte) {f : State → Fin 64 → Answer} (hf : ∀ i, BlindToManager fun s => f s i) :
    BlindToManager fun s => onDefinedSlot slot (f s) s := by
  intro s x
  unfold onDefinedSlot
  split
  · rfl
  · exact ite_setManager (fun _ => rfl) fun _ => hf _ s x

theorem releaseSlot_blind (slot : Byte) : BlindToManager (releaseSlot slot) := by
  refine onDefinedSlot_blind slot (f := fun s i => { state := s.releaseSlot i, outcome := .done }) fun i s x => ?_
  refine congrArg (fun v => (⟨v, .done, []⟩ : Answer)) ?_
  unfold State.releaseSlot
  rw [endTransition_setManager]
  exact (blind_managerReplaced x).takeMember _ rfl

theorem readSlot_blind (slot : Byte) : BlindToManager (readSlot slot) := by
  intro s x
  unfold readSlot
  split <;> rfl

theorem setHoldMap_blind (line : Byte) (map : SlotSet) : BlindToManager (setHoldMap line map) := by
  intro s x
  unfold setHoldMap
  split
  · rfl
  · rw [setHoldMap_setManager]
    rfl

theorem clearOverride_blind (slot : Byte) : BlindToManager (clearOverride slot) :=
  onDefinedSlot_blind slot fun _ _ _ => ite_setManager (fun _ => rfl) fun _ => rfl

theorem setGroup_blind (group plan policy mode tol limit : Byte) : BlindToManager (setGroup group plan policy mode tol limit) := by
  intro s x
  unfold setGroup
  split
  · next g settings _ _ =>
    refine congrArg (fun v => (⟨v, .done, ((s.group g).withSettings settings).settingFields⟩ : Answer)) ?_
    unfold State.regroup
    exact (blind_managerReplaced x).evaluateNow [g] (ite_commutes (State.setManager · x) (fun _ => rfl)
      fun _ => settle_setManager (s.setGroup g ((s.group g).withSettings settings)) x g true)
  · rfl

theorem readGroup_blind (group cursor : Byte) : BlindToManager (readGroup group cursor) := by
  intro s x
  unfold readGroup
  split
  · rfl
  · next g _ =>
    have fields : (s.setManager x).groupFields g = s.groupFields g := by
      unfold State.groupFields
      rw [membersOf_setManager]
      rfl
    have found : (s.setManager x).membersFrom g cursor.toNat = s.membersFrom g cursor.toNat := by
      unfold State.membersFrom
      rw [membersOf_setManager]
    refine ite_setManager (fun _ => rfl) fun _ => ?_
    dsimp only
    rw [fields, found]
    split <;> rfl

theorem setCalendar_blind (day : Half) (action dayType : Byte) : BlindToManager (setCalendar day action dayType) := by
  intro s x
  unfold setCalendar
  split
  · refine ite_setManager (fun _ => ?_) fun _ => rfl
    unfold calendarSet
    dsimp only [State.setManager_tables]
    split
    · exact ite_setManager (fun _ => rfl) fun _ => changed_setManager s x _ _ _
    · exact ite_setManager (fun _ => changed_setManager s x _ _ _) fun _ => rfl
  · exact ite_setManager (fun _ => changed_setManager s x _ _ _) fun _ => rfl
  · rfl

theorem addBase_blind (group mask : Byte) (start : Half) (plan mode : Byte) : BlindToManager (addBase group mask start plan mode) := by
  intro s x
  unfold addBase
  split
  · exact ite_setManager (fun _ => rfl) fun _ => ite_setManager (fun _ => rfl) fun _ => ite_setManager (fun _ => rfl) fun _ =>
      changed_setManager s x _ _ _
  · rfl

theorem addEvent_blind (group : Byte) (startDay startMinute endDay endMinute : Half) (plan priority mode : Byte) :
    BlindToManager (addEvent group startDay startMinute endDay endMinute plan priority mode) := by
  intro s x
  unfold addEvent
  split
  · rfl
  · exact ite_setManager (fun _ => rfl) fun _ => ite_setManager (fun _ => rfl) fun _ => ite_setManager (fun _ => rfl) fun _ =>
      changed_setManager s x _ _ _

theorem cutEntry_blind (kind : Byte) (id : Half) : BlindToManager (cutEntry kind id) := by
  intro s x
  unfold cutEntry
  split
  · refine ite_setManager (fun _ => ?_) fun _ => rfl
    unfold cutBase
    dsimp only [State.setManager_tables]
    split
    · exact changed_setManager s x _ _ _
    · rfl
  · refine ite_setManager (fun _ => ?_) fun _ => rfl
    unfold cutEvent
    dsimp only [State.setManager_tables]
    split
    · exact changed_setManager s x _ _ _
    · rfl
  · rfl

theorem readTimetable_blind (collection : Byte) (cursor : Half) : BlindToManager (readTimetable collection cursor) := by
  intro s x
  unfold readTimetable
  dsimp only [State.setManager_tables]
  split
  · refine ite_setManager (fun _ => ?_) fun _ => rfl
    unfold readItems
    dsimp only
    split <;> rfl
  · rfl

theorem setCue_blind (cue group plan : Byte) (duration : Half) (priority : Byte) :
    BlindToManager (setCue cue group plan duration priority) := by
  intro s x
  unfold setCue
  split
  · exact ite_setManager (fun _ => rfl) fun _ => ite_setManager (fun _ => rfl) fun _ => rfl
  · rfl

theorem cutCue_blind (cue group : Byte) : BlindToManager (cutCue cue group) := by
  intro s x
  unfold cutCue
  split
  · rfl
  · exact ite_setManager (fun _ => rfl) fun _ => ite_setManager (fun _ => rfl) fun _ => rfl

theorem directPlan_blind (group plan : Byte) (duration : Half) : BlindToManager (directPlan group plan duration) := by
  intro s x
  unfold directPlan
  split
  · exact ite_setManager (fun _ => rfl) fun _ => changed_setManager s x _ _ _
  · rfl

theorem endDirect_blind (group : Byte) : BlindToManager (endDirect group) := by
  intro s x
  unfold endDirect
  dsimp only [State.setManager_tables]
  split
  · rfl
  · split
    · rfl
    · exact changed_setManager s x _ _ _

theorem setRecording_blind (filter : SlotSet) (reload choice : Byte) : BlindToManager (setRecording filter reload choice) := by
  intro s x
  unfold setRecording
  split
  · rfl
  · dsimp only [State.setManager_records]
    rw [show ∀ u, (s.setManager x).setRecords u = (s.setRecords u).setManager x from fun _ => rfl, mirrorFilter_setManager]
    generalize State.mirrorFilter _ filter = t
    rfl

theorem readRecords_blind (maximum : Byte) : BlindToManager (readRecords maximum) := by
  intro s x
  unfold readRecords
  exact ite_setManager (fun _ => rfl) fun _ => rfl

theorem loadPlan_blind (slot plan : Byte) (p : Plan) : BlindToManager (loadPlan slot plan p) := by
  intro s x
  unfold loadPlan
  split
  · rfl
  · refine ite_setManager (fun _ => ?_) fun _ => rfl
    refine ite_setManager (fun _ => rfl) fun _ => ite_setManager (fun _ => rfl) fun _ => ?_
    dsimp only [State.setManager_store]
    rw [show (s.setManager x).pinCurrent = s.pinCurrent from rfl]
    split <;> rfl

theorem dropPlan_blind (slot plan part : Byte) : BlindToManager (dropPlan slot plan part) := by
  intro s x
  unfold dropPlan
  split
  · refine ite_setManager (fun _ => ?_) fun _ => rfl
    split
    · unfold dropRecord
      dsimp only [State.setManager_store]
      split
      · rfl
      · exact ite_setManager (fun _ => rfl) fun _ => rfl
    · unfold dropShadow
      dsimp only [State.setManager_store]
      split <;> rfl
  · rfl

theorem readHeld_blind (l : Location) : BlindToManager (readHeld l) := by
  intro s x
  refine ite_setManager (fun _ => rfl) fun _ => ?_
  rw [readLocation_setManager]
  generalize s.readLocation l = r
  obtain ⟨t, _ | image⟩ := r <;> rfl

theorem readPlan_blind (slot plan part : Byte) : BlindToManager (readPlan slot plan part) := by
  intro s x
  unfold readPlan
  split
  · refine ite_setManager (fun _ => ?_) fun _ => rfl
    refine ite_setManager (fun _ => rfl) fun _ => ?_
    dsimp only [State.setManager_store]
    split
    · rfl
    · exact readHeld_blind _ s x
  · rfl

/-- The same running sum, where the trunk interface and the engine are `x`. -/
def Checksum.setManager (c : Checksum) (x : Trunk × Management) : Checksum := { c with state := c.state.setManager x }

theorem checksumStep_setManager (x : Trunk × Management) (c : Checksum) (n : Nat) : (c.setManager x).step n = (c.step n).setManager x := by
  unfold Checksum.step
  dsimp only [Checksum.setManager, State.setManager_store]
  split
  · rfl
  · next l _ =>
    split
    · rfl
    · rw [readLocation_setManager]
      generalize c.state.readLocation l = r
      obtain ⟨t, _ | image⟩ := r <;> rfl

theorem checksumPlans_blind (first last sum : Nat) : BlindToManager (checksumPlans first last sum) := by
  intro s x
  have run : checksumRun first last sum (s.setManager x) = (checksumRun first last sum s).setManager x :=
    List.foldl_hom (init := ⟨s, sum, 0, 0, 0⟩) (fun c : Checksum => c.setManager x) fun c n => checksumStep_setManager x c n
  refine ite_setManager (fun _ => rfl) fun _ => ?_
  dsimp only
  rw [run]
  generalize checksumRun first last sum s = c
  exact ite_setManager (fun _ => rfl) fun _ => rfl

theorem runTest_blind (num : Nat) : BlindToManager (runTest num) := by
  intro s x
  unfold runTest
  dsimp only [State.setManager_store]
  generalize s.store.firstFailure num = failure
  generalize s.store.at? num = held
  cases failure <;> cases held <;> rfl

theorem testLocation_blind (num : Nat) : BlindToManager (testLocation num) := by
  intro s x
  unfold testLocation
  refine ite_setManager (fun _ => rfl) fun _ => ?_
  dsimp only [State.setManager_store]
  split
  · exact ite_setManager (fun _ => rfl) fun _ => runTest_blind num s x
  · exact runTest_blind num s x

theorem forceCheck_blind (num word : Nat) (bit1 bit2 : Byte) : BlindToManager (forceCheck num word bit1 bit2) := by
  intro s x
  unfold forceCheck
  refine ite_setManager (fun _ => rfl) fun _ => ?_
  dsimp only [State.setManager_store]
  split
  · rfl
  · exact ite_setManager (fun _ => rfl) fun _ => rfl

theorem scrubControl_blind (code : Byte) : BlindToManager (scrubControl code) := by
  intro s x
  unfold scrubControl
  split <;> rfl

/-- READ_STATION reads the trunk interface and the engine; no other request does. -/
theorem owner_blind {i : Instr} {o : State → Answer} (h : ownerOf i = some o) (notStation : ∀ src clear, i ≠ .readStation src clear) :
    BlindToManager o := by
  cases i with
  | readStation src clear => exact absurd rfl (notStation src clear)
  | unknownRequestCode src code params =>
    obtain ⟨-, rfl⟩ : namesNoRow code params = true ∧ refuse .badValue = o := by
      simpa only [ownerOf, Option.ite_none_right_eq_some, Option.some.injEq] using h
    exact refuse_blind _
  | setDay => cases h; exact setDay_blind _
  | setPort => cases h; exact setPortRequest_blind _ _ _
  | readPort => cases h; exact readPort_blind _
  | defineSlot => cases h; exact defineSlot_blind _ _ _ _ _ _ _
  | releaseSlot => cases h; exact releaseSlot_blind _
  | readSlot => cases h; exact readSlot_blind _
  | setHoldMap => cases h; exact setHoldMap_blind _ _
  | clearOverride => cases h; exact clearOverride_blind _
  | setGroup => cases h; exact setGroup_blind _ _ _ _ _ _
  | readGroup => cases h; exact readGroup_blind _ _
  | setCalendar => cases h; exact setCalendar_blind _ _ _
  | addBase => cases h; exact addBase_blind _ _ _ _ _
  | addEvent => cases h; exact addEvent_blind _ _ _ _ _ _ _ _
  | cutEntry => cases h; exact cutEntry_blind _ _
  | readTimetable => cases h; exact readTimetable_blind _ _
  | setCue => cases h; exact setCue_blind _ _ _ _ _
  | cutCue => cases h; exact cutCue_blind _ _
  | directPlan => cases h; exact directPlan_blind _ _ _
  | endDirect => cases h; exact endDirect_blind _
  | setRecording => cases h; exact setRecording_blind _ _ _
  | readRecords => cases h; exact readRecords_blind _
  | loadPlan => cases h; exact loadPlan_blind _ _ _
  | dropPlan => cases h; exact dropPlan_blind _ _ _
  | readPlan => cases h; exact readPlan_blind _ _ _
  | checksumPlans => cases h; exact checksumPlans_blind _ _ _
  | testLocation => cases h; exact testLocation_blind _
  | forceCheck => cases h; exact forceCheck_blind _ _ _ _
  | scrubControl => cases h; exact scrubControl_blind _
  | readTime => cases h; exact fun _ _ => rfl
  | readNotices => cases h; exact fun _ _ => rfl
  | setNoticeMask => cases h; exact fun _ _ => rfl
  | readLogout => cases h; exact fun _ _ => rfl
  | _ => cases h

end Sys2Proof.Machine
end

section
/-! PROOFS. Requests at the trunk: taken, refused, passed on, discarded, and held back by a full A-out (O46). -/

namespace Sys2Proof.Machine

variable {s t u : State} {c : Instr} {r : Request} {o : State → Answer} {own kind station hops a b code : Byte} {params body : List Byte}

/-! ### A request offered to the engine (R157) -/

/-- R157: from `s` to `t` request `r` is queued and taken at once by an IDLE engine, or finds the queue full: it is answered BUSY, or, a
broadcast one, left. -/
def State.requestOffered (s t : State) (r : Request) : Prop :=
  (s.mgmt.queue.length < 4 →
    t.mgmt = ({ s.mgmt with queue := s.mgmt.queue ++ [r] } : Management).takeNext ∧ t.trunk.aOut = s.trunk.aOut) ∧
  (4 ≤ s.mgmt.queue.length → t.mgmt = s.mgmt) ∧
  (r.src.broadcast = true → t.trunk.aOut = s.trunk.aOut) ∧
  (r.src.broadcast = false → 4 ≤ s.mgmt.queue.length → s.trunk.aOut.frames.length < 8 →
    t.trunk.aOut = { s.trunk.aOut with frames := s.trunk.aOut.frames ++ [s.replyTo r .busy s.records.notices []] }) ∧
  (r.src.broadcast = false → 4 ≤ s.mgmt.queue.length → 8 ≤ s.trunk.aOut.frames.length →
    t.trunk.aOut = { s.trunk.aOut with drops := min 65535 (s.trunk.aOut.drops + 1) } ∧ s.notified t .trunkDrop)

theorem offerRequest_of_room (room : s.mgmt.queue.length < 4) :
    s.offerRequest r = s.setMgmt ({ s.mgmt with queue := s.mgmt.queue ++ [r] } : Management).takeNext := if_pos room

theorem offerRequest_of_broadcast (full : 4 ≤ s.mgmt.queue.length) (broadcast : r.src.broadcast = true) : s.offerRequest r = s :=
  (if_neg (Nat.not_lt.mpr full)).trans (if_pos broadcast)

theorem offerRequest_of_busy (full : 4 ≤ s.mgmt.queue.length) (addressed : r.src.broadcast = false) :
    s.offerRequest r = s.offerA (s.replyTo r .busy s.records.notices []) := by
  rw [← buildReply_eq]
  exact (if_neg (Nat.not_lt.mpr full)).trans (if_neg (by simp [addressed]))

/-- What offering a request leaves: of the trunk interface, at most A-out has changed. -/
theorem offerRequest_leaves (s : State) (r : Request) : s.requestOffered (s.offerRequest r) r ∧
    (s.offerRequest r).trunk = { s.trunk with aOut := (s.offerRequest r).trunk.aOut } ∧ s.records.grows (s.offerRequest r).records ∧
    s.changesOnly (s.offerRequest r) [.trunk, .mgmt, .records] := by
  by_cases room : s.mgmt.queue.length < 4
  · rw [offerRequest_of_room room]
    exact ⟨⟨fun _ => ⟨rfl, rfl⟩, fun full => absurd room (Nat.not_lt.mpr full), fun _ => rfl,
      fun _ full => absurd room (Nat.not_lt.mpr full), fun _ full => absurd room (Nat.not_lt.mpr full)⟩, rfl, RecordUnit.grows_refl _,
      changesOnly_setMgmt _ (by simp) changesOnly_refl⟩
  · have full : 4 ≤ s.mgmt.queue.length := Nat.not_lt.mp room
    cases broadcast : r.src.broadcast with
    | true =>
      rw [offerRequest_of_broadcast full broadcast]
      exact ⟨⟨fun yes => absurd yes room, fun _ => rfl, fun _ => rfl, fun no => absurd broadcast (by simp [no]),
        fun no => absurd broadcast (by simp [no])⟩, rfl, RecordUnit.grows_refl _, changesOnly_refl⟩
    | false =>
      rw [offerRequest_of_busy full broadcast]
      by_cases place : s.trunk.aOut.frames.length < 8
      · rw [offerA_of_room place]
        exact ⟨⟨fun yes => absurd yes room, fun _ => rfl, fun yes => absurd broadcast (by simp [yes]), fun _ _ _ => rfl,
          fun _ _ none => absurd place (Nat.not_lt.mpr none)⟩, rfl, RecordUnit.grows_refl _,
          changesOnly_setTrunk _ (by simp) changesOnly_refl⟩
      · rw [offerA_of_full (Nat.not_lt.mp place)]
        exact ⟨⟨fun yes => absurd yes room, fun _ => rfl, fun yes => absurd broadcast (by simp [yes]),
          fun _ _ yes => absurd yes place, fun _ _ _ => ⟨rfl, notified_raise (t := s.setTrunk _) (RecordUnit.grows_refl _) .trunkDrop
            (RecordUnit.grows_refl _)⟩⟩, rfl, RecordUnit.grows_raise _ _,
          changesOnly_raise _ (by simp) (changesOnly_setTrunk _ (by simp) changesOnly_refl)⟩

/-! ### A REQUEST frame (R153, R154) -/

/-- The REQUEST frame of a body that holds a tag and a code. -/
def requestFrame (station hops a b code : Byte) (params : List Byte) : TrunkFrame := .make 0x10#8 station hops (a :: b :: code :: params)

/-- The request that it holds. -/
def requestHeld (station a b code : Byte) (params : List Byte) : Request := ⟨⟨beHalf a b, decide (station = 0#8)⟩, code, params⟩

theorem actOn_request (mine : station = own ∨ station = 0#8) :
    s.actOn own (requestFrame station hops a b code params) = s.offerRequest (requestHeld station a b code params) := by
  unfold State.actOn requestFrame
  rw [if_neg (by simp [TrunkFrame.make]), if_neg (by simp [TrunkFrame.make]), if_neg (by simp [TrunkFrame.make]), if_pos ⟨rfl, mine⟩]
  rfl

/-- R153: station numbers begin at 1; 0 is every station's. -/
theorem own_ne_zero (named : s.trunk.station = some own) : own ≠ 0#8 := by
  rintro rfl
  unfold Trunk.station at named
  split at named
  next range =>
    rw [Option.some.inj named] at range
    exact absurd range.1 (by decide)
  next => exact nomatch named

theorem request_taken (running : s.resetAsserted = false) (short : params.length ≤ 237) :
    exec (.request station hops (a :: b :: code :: params)) s =
      .next (s.acceptedFrame .a (requestFrame station hops a b code params)) :=
  congrArg Host.Outcome.next (frameFromA_taken running (by simp only [List.length_cons]; omega))

/-- R154: a request to the part itself is consumed. -/
theorem requestFrame_own (named : s.trunk.station = some own) (t : State)
    (e : t = s.acceptedFrame .a (requestFrame own hops a b code params)) :
    t.trunk.countsA.received = min 65535 (s.trunk.countsA.received + 1) ∧ t.trunk.bOut = s.trunk.bOut ∧
    s.requestOffered t (requestHeld own a b code params) ∧ s.changesOnly t [.trunk, .mgmt, .records] := by
  rw [acceptedFrame_consumed named (by simp [consumed, requestFrame, TrunkFrame.make]), actOn_request (.inl rfl)] at e
  subst e
  obtain ⟨offered, trunk, -, frame⟩ := offerRequest_leaves (s.countAccepted .a (requestFrame own hops a b code params))
    (requestHeld own a b code params)
  refine ⟨?_, ?_, offered, changesOnly_trans (changesOnly_mono (countAccepted_leaves s .a _).1 (by simp)) frame⟩ <;> rw [trunk] <;> rfl

/-- R154: a request to station 0 is offered, and passed on. -/
theorem requestFrame_broadcast (named : s.trunk.station = some own) (other : own ≠ 0#8) (t : State)
    (e : t = s.acceptedFrame .a (requestFrame 0#8 hops a b code params)) :
    t.trunk.countsA.received = min 65535 (s.trunk.countsA.received + 1) ∧ s.requestOffered t (requestHeld 0#8 a b code params) ∧
    s.passedOn t (requestFrame 0#8 hops a b code params) ∧ s.changesOnly t [.trunk, .mgmt, .records] := by
  rw [acceptedFrame_shared named (by simpa [consumed, requestFrame, TrunkFrame.make] using other.symm), actOn_request (.inr rfl)] at e
  subst e
  obtain ⟨⟨queued, full, unanswered, -⟩, trunk, grown, frame⟩ :=
    offerRequest_leaves (s.countAccepted .a (requestFrame 0#8 hops a b code params)) (requestHeld 0#8 a b code params)
  generalize (s.countAccepted .a (requestFrame 0#8 hops a b code params)).offerRequest (requestHeld 0#8 a b code params) = u at *
  obtain ⟨passed, left, -, -, passFrame⟩ := passOn_leaves u (requestFrame 0#8 hops a b code params)
  have heard : (requestHeld 0#8 a b code params).src.broadcast = true := rfl
  have mgmt : (u.passOn .a (requestFrame 0#8 hops a b code params)).mgmt = u.mgmt := passFrame.2.2 .mgmt (by decide)
  have aOut : (u.passOn .a (requestFrame 0#8 hops a b code params)).trunk.aOut = u.trunk.aOut := by rw [left]
  refine ⟨?_, ⟨fun room => ⟨mgmt.trans (queued room).1, aOut.trans (queued room).2⟩, fun busy => mgmt.trans (full busy),
    fun broadcast => aOut.trans (unanswered broadcast), fun no => absurd heard (by simp [no]), fun no => absurd heard (by simp [no])⟩, ?_,
    changesOnly_trans (changesOnly_mono (countAccepted_leaves s .a _).1 (by simp))
      (changesOnly_trans frame (changesOnly_mono passFrame (by simp)))⟩
  · rw [left, trunk]
    rfl
  · exact passedOn_of (by rw [trunk]; rfl) (by rw [trunk]; rfl) grown passed

/-- R154: a request to another station is passed on, and that is all. -/
theorem requestFrame_elsewhere (named : s.trunk.station = some own) (other : station ≠ own) (addressed : station ≠ 0#8) (t : State)
    (e : t = s.acceptedFrame .a (requestFrame station hops a b code params)) :
    t.trunk.countsA.received = min 65535 (s.trunk.countsA.received + 1) ∧ t.trunk.aOut = s.trunk.aOut ∧
    s.passedOn t (requestFrame station hops a b code params) ∧ s.changesOnly t [.trunk, .records] := by
  have unread : (requestFrame station hops a b code params).unread own := .inr (.inr ⟨rfl, fun mine => mine.2.elim other addressed⟩)
  rw [acceptedFrame_shared named (by simpa [consumed, requestFrame, TrunkFrame.make] using other), actOn_unread unread] at e
  subst e
  obtain ⟨passed, received, aOut⟩ := acted_passed (s := s) (f := requestFrame station hops a b code params)
    (u := s.countAccepted .a (requestFrame station hops a b code params)) rfl (RecordUnit.grows_refl _)
  obtain ⟨-, -, -, -, frame⟩ := passOn_leaves (s.countAccepted .a (requestFrame station hops a b code params))
    (requestFrame station hops a b code params)
  exact ⟨received, aOut, passed, changesOnly_trans (changesOnly_mono (countAccepted_leaves s .a _).1 (by simp)) frame⟩

/-- R153: at a pass-through station every frame is counted and passed on. -/
theorem frameFromA_through (running : s.resetAsserted = false) (through : s.trunk.station = none) (fits : body.length ≤ 240) (t : State)
    (e : t = s.frameFromA kind station hops body) : t.trunk.countsA.received = min 65535 (s.trunk.countsA.received + 1) ∧
    t.trunk.aOut = s.trunk.aOut ∧ s.passedOn t (.make kind station hops body) ∧ s.onlyNotices t ∧ s.changesOnly t [.trunk, .records] := by
  rw [frameFromA_taken running fits, acceptedFrame_through through] at e
  subst e
  obtain ⟨passed, received, aOut⟩ := acted_passed (s := s) (f := .make kind station hops body)
    (u := s.countAccepted .a (.make kind station hops body)) rfl (RecordUnit.grows_refl _)
  obtain ⟨-, -, notices, -, frame⟩ := passOn_leaves (s.countAccepted .a (.make kind station hops body)) (.make kind station hops body)
  exact ⟨received, aOut, passed, notices, changesOnly_trans (changesOnly_mono (countAccepted_leaves s .a _).1 (by simp)) frame⟩

/-- A frame passed on stands at the tail of B-out. -/
theorem passedOn_frames {f : TrunkFrame} (passed : s.passedOn t f) (hops : 0 < f.hops.toNat % 64) (room : s.trunk.bOut.frames.length < 8) :
    t.trunk.bOut.frames = s.trunk.bOut.frames ++ [.make f.kind f.station (BitVec.ofNat 8 (f.hops.toNat % 64 - 1)) f.body] :=
  congrArg OutQueue.frames ((passed.2 hops).2.1 room)

/-! ### Requests that are not carried out -/

/-- A request command is an owner's, a restart, or one that UNKNOWN_REQUEST_CODE does not carry. -/
theorem request_cases (encodes : encodeRequest c = some r) : (∃ o, ownerOf c = some o) ∨
    (∃ src code params, c = .unknownRequestCode src code params ∧ namesNoRow code params = false) ∨
    (∃ src pins, c = .restartWarm src pins) ∨ ∃ src, c = .restartCold src := by
  cases c with
  | restartWarm src pins => exact .inr (.inr (.inl ⟨src, pins, rfl⟩))
  | restartCold src => exact .inr (.inr (.inr ⟨src, rfl⟩))
  | unknownRequestCode src code params =>
    cases named : namesNoRow code params with
    | true => exact .inl ⟨_, if_pos named⟩
    | false => exact .inr (.inl ⟨src, code, params, rfl, named⟩)
  | _ => cases encodes <;> exact .inl ⟨_, rfl⟩

/-- R153: a request that the engine does not carry out does nothing. -/
theorem exec_of_not_carried (encodes : encodeRequest c = some r) (idle : s.carries r = false) : exec c s = .next s := by
  rcases request_cases encodes with ⟨o, owner⟩ | ⟨src, code, params, rfl, named⟩ | ⟨src, pins, rfl⟩ | ⟨src, rfl⟩
  · rw [exec_of_owner owner, carryOut_waits o fun q hq => by rwa [Option.some.inj (hq.symm.trans encodes)]]
  · exact congrArg Host.Outcome.next (if_neg (by simp [named]))
  · refine congrArg Host.Outcome.next ?_
    rw [encodes]
    simp [idle]
  · refine congrArg Host.Outcome.next ?_
    rw [encodes]
    simp [idle]

theorem carries_of_through (through : s.trunk.station = none) (r : Request) : s.carries r = false := by
  simp [State.carries, through]

/-- R158: a broadcast request that may not be carried out is discarded. -/
theorem exec_of_discarded (wf : c.wellFormed = true) (encodes : encodeRequest c = some r) (carries : s.carries r = true)
    (gone : discarded r = true) : exec c s = .next s.engineDone := by
  rcases request_cases encodes with ⟨o, owner⟩ | ⟨src, code, params, rfl, named⟩ | ⟨src, pins, rfl⟩ | ⟨src, rfl⟩
  · rw [exec_of_owner owner]
    simp [carryOut, encodes, carries, gone]
  · simp [Instr.wellFormed, named] at wf
  · cases encodes
    simp [discarded, broadcastEligible] at gone
  · refine congrArg Host.Outcome.next ?_
    rw [encodes]
    simp [carries, gone]

/-! ### Replies that find A-out full (R158) -/

/-- From `s` to `t` request `r` is carried out, and its reply is held until A-out has room. -/
def State.heldBack (s t : State) (r : Request) (reply : TrunkFrame) : Prop :=
  t.mgmt.engine = .replyWait r reply ∧ t.mgmt.queue = s.mgmt.queue ∧ t.trunk.aOut.frames = s.trunk.aOut.frames ∧
  ∃ (o : RequestOutcome) (fields : List Byte), reply = s.replyTo r o t.records.notices fields

theorem restart_heldBack (k : RestartKind) (addressed : r.src.broadcast = false) (full : 8 ≤ s.trunk.aOut.frames.length) :
    s.heldBack (s.acceptRestart k r) r (s.replyTo r .done s.records.notices []) := by
  rw [acceptRestart_of_full k addressed full]
  exact ⟨rfl, rfl, rfl, _, _, rfl⟩

theorem readStation_heldBack {src : Source} {clear : Byte} (encodes : encodeRequest (.readStation src clear) = some r)
    (carries : s.carries r = true) (addressed : r.src.broadcast = false) (full : 8 ≤ s.trunk.aOut.frames.length) :
    ∃ t reply, exec (.readStation src clear) s = .next t ∧ s.heldBack t r reply := by
  obtain ⟨u, e, only, cleared, kept⟩ := readStation_offers encodes carries addressed
  have frames : u.trunk.aOut.frames = s.trunk.aOut.frames := by
    by_cases clears : clear = 0#8
    · rw [cleared clears]
      rfl
    · rw [kept clears]
  have mgmt : u.mgmt = s.mgmt := by rw [only]; rfl
  have records : u.records = s.records := by rw [only]; rfl
  rw [placeReply_full addressed (by rw [frames]; exact full)] at e
  refine ⟨_, _, e, rfl, (congrArg Management.queue mgmt :), frames, ?_⟩
  rw [State.setMgmt_records, records]
  split
  · exact ⟨_, _, rfl⟩
  · exact ⟨_, _, rfl⟩

/-- What a blind owner leaves of the trunk interface and the engine. -/
theorem kept_of_blind (blind : BlindToManager o) (s : State) : (o s).state.trunk = s.trunk ∧ (o s).state.mgmt = s.mgmt := by
  have same : o s = (o s).setManager (s.trunk, s.mgmt) := blind s (s.trunk, s.mgmt)
  exact ⟨congrArg (fun a : Answer => a.state.trunk) same, congrArg (fun a : Answer => a.state.mgmt) same⟩

section
variable (blind : BlindToManager o) (encodes : encodeRequest c = some r) (carries : s.carries r = true)
  (addressed : r.src.broadcast = false)
include blind encodes carries addressed

/-- R158: a reply with no room is held. -/
theorem carryOut_heldBack (full : 8 ≤ s.trunk.aOut.frames.length) : ∃ reply,
    reply = s.replyTo r (o s).outcome (o s).state.records.notices (o s).fields ∧
    carryOut c o s = (o s).state.setMgmt { s.mgmt with engine := .replyWait r reply } := by
  obtain ⟨trunk, mgmt⟩ := kept_of_blind blind s
  refine ⟨_, rfl, ?_⟩
  rw [carryOut_full encodes carries addressed full o (by rw [trunk]), mgmt]
  unfold State.replyTo
  rw [trunk]

/-- Section 9.6: where A-out has room the same is done, and the same reply is placed there. -/
theorem carryOut_elsewhere (q : OutQueue) (room : q.frames.length < 8) :
    carryOut c o (s.setTrunk { s.trunk with aOut := q }) = ((o s).state.setTrunk { s.trunk with aOut :=
      { q with frames := q.frames ++ [s.replyTo r (o s).outcome (o s).state.records.notices (o s).fields] } }).setMgmt
        ({ s.mgmt with engine := .idle } : Management).takeNext := by
  have same : o (s.setTrunk { s.trunk with aOut := q }) = (o s).setManager ({ s.trunk with aOut := q }, s.mgmt) :=
    blind s ({ s.trunk with aOut := q }, s.mgmt)
  rw [carryOut_offers encodes (by exact carries) addressed o, same, placeReply_room addressed (by exact room)]
  rfl

end

/-- A request that looks at neither is carried out all the same while its reply is held. -/
theorem owner_heldBack (owner : ownerOf c = some o) (blind : BlindToManager o) (encodes : encodeRequest c = some r)
    (carries : s.carries r = true) (addressed : r.src.broadcast = false) (full : 8 ≤ s.trunk.aOut.frames.length) :
    ∃ t reply, exec c s = .next t ∧ s.heldBack t r reply ∧
      t.trunk = s.trunk ∧ t.mgmt = { s.mgmt with engine := .replyWait r reply } ∧
      ∀ q : OutQueue, q.frames.length < 8 → ∃ v, exec c (s.setTrunk { s.trunk with aOut := q }) = .next v ∧
        v.changesOnly t [.trunk, .mgmt] ∧ v.trunk = { s.trunk with aOut := { q with frames := q.frames ++ [reply] } } ∧
        v.mgmt = ({ s.mgmt with engine := .idle } : Management).takeNext := by
  obtain ⟨reply, built, held⟩ := carryOut_heldBack blind encodes carries addressed full
  obtain ⟨trunk, -⟩ := kept_of_blind blind s
  refine ⟨_, reply, exec_of_owner owner s, ?_⟩
  rw [held]
  refine ⟨⟨rfl, rfl, congrArg (fun x : Trunk => x.aOut.frames) trunk, _, _, built⟩, trunk, rfl, fun q room => ?_⟩
  have placed := carryOut_elsewhere blind encodes carries addressed q room
  rw [← built] at placed
  refine ⟨_, exec_of_owner owner _, ?_⟩
  rw [placed]
  refine ⟨?_, rfl, rfl⟩
  generalize ({ s.mgmt with engine := .idle } : Management).takeNext = next
  have back (v : State) :
      v.changesOnly ((v.setTrunk (o s).state.trunk).setMgmt { s.mgmt with engine := .replyWait r reply }) [.trunk, .mgmt] :=
    changesOnly_setMgmt _ (by simp) (changesOnly_setTrunk _ (by simp) changesOnly_refl)
  exact back _

/-- Settles O46: the frame's own cases, the pass-through station, and the reply of a request that A-out has no room for. -/
theorem requestsQueue : Obligations.RequestsQueue := by
  unfold Obligations.RequestsQueue
  refine ⟨fun s station hops a b code params own running named short => ⟨_, request_taken running short, ?_⟩,
    fun s c kind station hops body running through fits which => ?_,
    fun s c r through encodes => exec_of_not_carried encodes (carries_of_through through r),
    fun s c r wf ⟨encodes, carries, _⟩ broadcast notDay notCalendar notWarm => ?_,
    fun s c r wf encodes carries addressed full => ?_⟩
  · have other : own ≠ 0#8 := own_ne_zero named
    dsimp only
    by_cases mine : station = own
    · subst mine
      obtain ⟨received, bOut, ⟨queued, full, -, placed, dropped⟩, frame⟩ := requestFrame_own (hops := hops) (a := a) (b := b)
        (code := code) (params := params) named _ rfl
      have heard : (requestHeld station a b code params).src.broadcast = false := decide_eq_false other
      exact ⟨received, fun _ => queued, fun _ => full, fun zero => absurd zero other, fun _ => placed heard, fun _ => dropped heard,
        fun no => absurd rfl no, fun _ => bOut, fun no => absurd rfl no, frame⟩
    · by_cases toAll : station = 0#8
      · subst toAll
        obtain ⟨received, ⟨queued, full, unanswered, -⟩, passed, frame⟩ := requestFrame_broadcast (hops := hops) (a := a) (b := b)
          (code := code) (params := params) named other _ rfl
        exact ⟨received, fun _ => queued, fun _ => full, fun _ => unanswered rfl, fun no => absurd no mine, fun no => absurd no mine,
          fun _ no => absurd rfl no, fun no => absurd no mine, fun _ => passedOn_frames passed, frame⟩
      · obtain ⟨received, aOut, passed, frame⟩ := requestFrame_elsewhere (hops := hops) (a := a) (b := b)
          (code := code) (params := params) named mine toAll _ rfl
        exact ⟨received, fun no => (no.elim mine toAll).elim, fun no => (no.elim mine toAll).elim, fun no => absurd no toAll,
          fun no => absurd no mine, fun no => absurd no mine, fun _ _ => ⟨frame.2.2 .mgmt (by decide), aOut⟩,
          fun no => absurd no mine, fun _ => passedOn_frames passed, changesOnly_mono frame (by simp)⟩
  · have taken : exec c s = .next (s.frameFromA kind station hops body) := by
      rcases which with ⟨rfl, rfl⟩ | ⟨rfl, rfl⟩ | ⟨rfl, rfl⟩ | ⟨rfl, rfl⟩ <;> rfl
    obtain ⟨received, aOut, passed, notices, frame⟩ := frameFromA_through (kind := kind) (station := station) (hops := hops) running
      through fits _ rfl
    exact ⟨_, taken, received, aOut, passedOn_frames passed, notices, frame⟩
  · have gone : discarded r = true := by
      simpa [discarded, broadcastEligible, broadcast] using ⟨⟨notDay, notCalendar⟩, not_and_or.mp notWarm⟩
    exact exec_of_discarded wf encodes carries gone
  · by_cases station : ∃ src clear, c = .readStation src clear
    · obtain ⟨src, clear, rfl⟩ := station
      obtain ⟨t, reply, e, engine, queue, frames, built⟩ := readStation_heldBack encodes carries addressed full
      exact ⟨t, reply, e, engine, queue, frames, built, fun no => absurd rfl (no src clear)⟩
    · rcases request_cases encodes with ⟨o, owner⟩ | ⟨src, code, params, rfl, named⟩ | ⟨src, pins, rfl⟩ | ⟨src, rfl⟩
      · have blind : BlindToManager o := owner_blind owner fun src clear same => station ⟨src, clear, same⟩
        obtain ⟨t, reply, e, ⟨engine, queue, frames, built⟩, all⟩ := owner_heldBack owner blind encodes carries addressed full
        exact ⟨t, reply, e, engine, queue, frames, built, fun _ _ _ => all⟩
      · simp [Instr.wellFormed, named] at wf
      · obtain ⟨engine, queue, frames, built⟩ := restart_heldBack .warm addressed full
        exact ⟨_, _, exec_restartWarm_addressed encodes carries addressed, engine, queue, frames, built,
          fun _ no => absurd rfl (no src pins)⟩
      · obtain ⟨engine, queue, frames, built⟩ := restart_heldBack .cold addressed full
        exact ⟨_, _, exec_restartCold_addressed encodes carries addressed, engine, queue, frames, built,
          fun _ _ no => absurd rfl (no src)⟩

end Sys2Proof.Machine
end
